-- ==== Sys2Proof/Word.lean ====
section
/-! DEFINITION. The word types of the Caeroarn wafer model and the ranges of its places (R4 to R8, R223). -/
namespace Sys2Proof

/-- A register word (R6). -/
abbrev Word := BitVec 32
/-- A byte. -/
abbrev Byte := BitVec 8
/-- A field, 0 to 55 (R223). -/
abbrev FieldId := Fin 56
/-- A physical tile of a field, r × 26 + c, 0 to 467 (R223). -/
abbrev TileId := Fin 468
/-- A landing, L0 to L11 (R223). -/
abbrev LandingId := Fin 12

/-- A 0 or a 1. -/
def bit (b : Bool) : Nat := if b then 1 else 0

/-- The `w` bits of `n` from bit `lo` up. -/
def bits (n lo w : Nat) : Nat := n / 2 ^ lo % 2 ^ w

/-- One bit of a number. -/
def bitAt (n i : Nat) : Bool := n / 2 ^ i % 2 == 1

/-- A signed reading of the low `w` bits of `n`. -/
def signed (n w : Nat) : Int := if bits n (w - 1) 1 = 1 then (bits n 0 w : Int) - 2 ^ w else bits n 0 w

end Sys2Proof
end

