-- ==== Sys2Proof/Syntax.lean ====
section
/-! DEFINITION. The commands of the block: one constructor of Instr for each row of spec/opcode_table.json, with the
row's operands.  What the surroundings decide (a regulator's answer, a sensor's reading, a test's result, a packet that
arrives) is an operand. -/
namespace Sys2Proof

/-- A supply rail that the Mast switches (R93). -/
inductive Rail
  | field (f : FieldId)
  | landing (k : LandingId)
  | main
deriving DecidableEq, Repr

/-- What a regulator answers in the probe (R104): nothing, or its three readings. -/
inductive RegReply
  | noAck
  | readings (revision capability voutMode : Byte)
deriving DecidableEq, Repr

/-- The answers of the 69 regulators to a probe, by place in ascending address order (R95); a regulator that is not
listed answers with the readings 0x33, 0xC0 and 0x14, which R94 accepts. -/
abbrev ProbeAnswers := List (Nat × RegReply)

/-- What a STATUS_WORD read brings: nothing, or the word (R96). -/
inductive StatusReply
  | noAck
  | word (w : BitVec 16)
deriving DecidableEq, Repr

/-- What a retried transaction brings (R105): nothing; an acknowledgement, with the readings of the probe where it reads them; or the
STATUS_WORD that it reads, and whether the deskew calibration that may follow succeeds (R96, R134). -/
inductive RetryReply
  | noAck
  | readings (revision capability voutMode : Byte)
  | status (w : BitVec 16) (deskewOk : Bool)
deriving DecidableEq, Repr

/-- What the flash answers to the probe of R200 and R202. -/
structure FlashProbe where
  /-- The SFDP signature was returned and the flash meets R199. -/
  meets : Bool
  /-- JEDEC ID read, 0 when none. -/
  jedec : Word
deriving DecidableEq, Repr

/-- A management frame in progress: the edges counted and the bytes received so far (R277). -/
structure Frame where
  edges : Nat
  bytes : List Byte
deriving DecidableEq, Repr

/-- Who writes a register (R225, R287). -/
inductive Writer
  | management
  | rig
deriving DecidableEq, Repr

/-- A fault that travels up the escalation path to the roster (R28, R176, R208). -/
inductive Escalation
  /-- An escalated stop of a tile, with its report (R534, R537). -/
  | stop (f : FieldId) (t : TileId) (report : BitVec 96)
  /-- A lost tile. -/
  | tileLost (f : FieldId) (t : TileId) (inRouter : List Nat)
  /-- An uncorrectable DMEM bank (R465) and the address found. -/
  | bankUe (f : FieldId) (t : TileId) (b : Fin 8) (addr : Nat)
  /-- A lane that an end of a channel retired (R652, R654). -/
  | laneRetired (f : FieldId) (e : Fin 96) (lane : Nat)
  /-- A channel end that declared its link broken (R672), its reason, its lost count and the source and destination
  logical identifiers of the packets lost (R340, R673). -/
  | linkBroken (f : FieldId) (e : Fin 96) (reason lost : Nat) (parties : List Nat)
deriving DecidableEq, Repr

/-- A host of channel ends: a field 0 to 55, or the landing Lk as 56 + k (R594, R626). -/
abbrev HostId := Fin 68
/-- A channel end of its host: e of R676 for a field, the channel 0 to 7 for a landing. -/
abbrev EndId := Fin 96
/-- A net landing, L0 to L7. -/
abbrev NetId := Fin 8
/-- A store landing, L8 to L11 by k - 8. -/
abbrev StoreId := Fin 4

/-- Where a device's inbound request falls (R706). -/
inductive Inbound
  /-- The staging-buffer region of a transfer slot. -/
  | staging (slot : Fin 16)
  /-- The landing's MSI-X address. -/
  | msix
  | other
deriving DecidableEq, Repr

/-- The commands of the block, in the table's order. -/
inductive Instr
  /-- A STATUS frame is taken and returns the status record without changing any state (R281). -/
  | status (tag : Byte)
  /-- A READ frame is taken and reads the register word at ADDRESS into LAST_DATA (R282). -/
  | read (tag : Byte) (addr : BitVec 40)
  /-- A WRITE frame is taken and writes DATA to the word at ADDRESS, each field by its attribute (R282). -/
  | write (tag : Byte) (addr : BitVec 40) (data : Word)
  /-- A MOOR frame is taken and acts as a write of 1 to MOOR_REQ.MOOR (R282). -/
  | moor (tag : Byte)
  /-- A WAKE frame is taken and acts as a wake source, or is held or ignored depending on the power state (R282). -/
  | wake (tag : Byte) (probe : ProbeAnswers)
  /-- A frame that fails the judgement of R277 is rejected, updating only the rejection fields and counters (R278). -/
  | rejectedFrame (frame : Frame) (probe : ProbeAnswers := [])
  /-- The command in progress completes and LAST_RESULT, and for a READ LAST_DATA, take their values (R280). -/
  | commandComplete
  /-- A write by the management port or by iow to a register with no behaviour of its own applies to each field by its attribute (R232). -/
  | registerWrite (w : Writer) (addr : BitVec 40) (data : Word)
  /-- VSTBY is first applied; the standby domain becomes ready within 2 ms and the wafer is moored (R143). -/
  | vstbyApplied
  /-- RESET_N low for 10 us takes effect, discarding any frame in progress and mooring the wafer (R179). -/
  | resetN (frame : Option Frame)
  /-- A falling edge on WAKE_N held low for 10 us wakes a moored wafer (R139). -/
  | wakeN (probe : ProbeAnswers)
  /-- The RTC alarm fires on a second tick with RTC_SECONDS at or above RTC_ALARM, clearing ALARM_EN and waking a moored wafer (R141). -/
  | rtcAlarm (probe : ProbeAnswers)
  /-- A write of RTC_SECONDS_HI loads all 48 bits and restarts the seconds divider (R141). -/
  | rtcSecondsWrite (hi : Word)
  /-- A read of RTC_SECONDS_LO latches RTC_SECONDS_HI (R141). -/
  | rtcSecondsLoRead
  /-- A 10 ms retry interval for an unacknowledged PMBus transaction expires and the transaction is retried, or the rail is faulted after the third retry (R105). -/
  | pmbusRetry (reply : RetryReply) (probe : ProbeAnswers)
  /-- The Mast finds PMB_SDA low with the bus idle and runs the nine-clock recovery, setting SDA_STUCK if it fails (R107). -/
  | sdaLowIdle (freed : Bool)
  /-- A target holds PMB_SCL low for 25 ms and the transaction is abandoned as not acknowledged (R108). -/
  | sclLowTimeout (rail : Rail)
  /-- A write of 1 to SIDEBAND_RETRY repeats the regulator probe (R110). -/
  | sidebandRetry (probe : ProbeAnswers)
  /-- The Mast services a low PMB_ALERT_N by reading the Alert Response Address and STATUS_WORD and sending CLEAR_FAULTS (R111). -/
  | pmbAlertService (rail : Rail) (reply : StatusReply)
  /-- The 100 us poll of STATUS_WORD during a rail step finds power good and ends the step (R96). -/
  | railStatusPoll (reply : StatusReply) (deskewOk : Bool)
  /-- A rail misses power good at 5.0 ms and is switched off with its fault bit set (R97). -/
  | powerGoodTimeout
  /-- The wafer PLL locks and the Mast goes on to reconcile the defect-map copies (R129). -/
  | pllLocked (flash : FlashProbe)
  /-- The PLL has not locked 1 ms after the main rail is good, and the wafer stays moored (R130). -/
  | pllNoLock
  /-- Reconciliation of the two defect-map copies ends with its case recorded in RECONCILE (R204). -/
  | reconciled
  /-- Setting a FIELD_ON bit while awake switches that field rail on (R99). -/
  | fieldOnSet (f : FieldId)
  /-- Clearing a FIELD_ON bit removes the field from the roster, fences it and soft-offs its rail (R100). -/
  | fieldOnClear (f : FieldId)
  /-- Setting a LANDING_ON bit while awake switches that landing rail on (R99). -/
  | landingOnSet (k : LandingId)
  /-- Clearing a LANDING_ON bit switches the landing off at once with OPERATION 0x40 (R100). -/
  | landingOnClear (k : LandingId)
  /-- A write of 1 to MOOR_REQ.MOOR begins mooring at once, losing any crossing in progress (R135). -/
  | moorReq
  /-- Every 16 WCLK cycles the field loop recomputes the heavy-trigger allowance from margin and estimated power (R114). -/
  | allowanceRecompute (f : FieldId) (margin : Nat) (watts : List Nat)
  /-- A droop monitor trips and the allowance drops to 1 within 2 cycles (R115). -/
  | droopTrip (f : FieldId)
  /-- The 1,024-cycle hold after a droop trip expires and DROOP_HOLD clears (R115). -/
  | droopHoldEnd (f : FieldId)
  /-- Every 1 ms the loop recomputes VDEMAND within 0.62 V and the effective VCEIL (R117). -/
  | vdemandRecompute (f : FieldId) (code : Nat)
  /-- The Mast visits a powered field, reads VDEMAND and steps VOUT_COMMAND toward it (R118). -/
  | mastVisit (f : FieldId) (acked : Bool)
  /-- Every 10 us the damage guard samples the 12 temperature sensors of each powered field (R125). -/
  | damageGuardSample (readings : List (FieldId × List Nat)) (unacked : List FieldId)
  /-- A tile leaves the built-in self-test as passed or failed, with defect-map entries and spare repair applied (R151). -/
  | tileTestEnd (f : FieldId) (t : TileId) (part : Option Nat) (banks : List Nat)
  /-- A tile still under test 25 ms after its field's test started is marked failed (R153). -/
  | bistTimeout (f : FieldId)
  /-- A landing's self-test ends and the landing reports ready or failed (R159). -/
  | landingSelfTestEnd (k : LandingId) (passed : Bool)
  /-- A port of a ready landing has been down for 3 s, letting LANDINGS_DONE rise (R163). -/
  | portWindowExpiry (k : LandingId) (p : Nat)
  /-- An escalation reaches the roster, updating roster entries and committing defect-map entries (R176). -/
  | escalationReachesRoster (e : Escalation)
  /-- A write of 1 to RETIRE_CMD.GO requests an operator retirement and sets RESULT (R213). -/
  | retireCmd
  /-- A write of 1 to SERVICE.MAP_SYNC clears FLASH_FAULT and, when awake, re-probes the flash and reconciles the copies (R795). -/
  | mapSync (flash : FlashProbe)
  /-- A write of READ_INDEX makes READ_WORD0 to READ_WORD3 show the selected record of copy A (R221). -/
  | readIndex (index : Word)
  /-- The 100 us busy poll finds a flash program or erase complete and the Mast checks it or goes on with copy B; `late`: a
  program whose read-back differs completes later (R200, R201). -/
  | flashBusyPoll (readBackOk : Bool) (late : Bool := false)
  /-- A flash program stays busy 5 ms or an erase 500 ms, and the operation is repeated or FLASH_FAULT set; `late`: the program
  completes later (R201). -/
  | flashOpTimeout (late : Bool := false)
  /-- HOIST_CMD CHECK forms and locks the hoist set and runs the consistency checker (R253). -/
  | check
  /-- HOIST_CMD ARM checks the hoist set and, on a pass, arms the hoist for its instant (R253). -/
  | arm
  /-- HOIST_CMD DISARM returns an armed hoist to IDLE and unlocks its pages (R253). -/
  | disarm
  /-- HOIST_CMD ABORT stops a running check with VERDICT 4 (R253). -/
  | abort
  /-- The consistency checker completes, setting the verdict of each page and of the hoist (R247). -/
  | checkEnd
  /-- A read of FIFO_HI removes the head entry of the checker error FIFO (R250). -/
  | fifoHiRead
  /-- An armed hoist applies every shadow of its set on one WCLK edge (R259). -/
  | hoistInstant
  /-- A write of 1 to STAGE_CONTROL.DISCARD copies live RW-S values into the shadow and clears DIRTY (R238). -/
  | discard (page : BitVec 40)
  /-- A write of PAGE_CONTROL.HALT_REQ requests a halt, or with 0 releases the block (R231). -/
  | haltReq (page : BitVec 40) (request : Bool)
  /-- A block with a halt requested reaches its halt point and HALTED rises (R231). -/
  | haltPointReached (page : BitVec 40)
  /-- A write of 1 to CNT_CLEAR sets the six frame counters to 0 (R298). -/
  | cntClear
  /-- ALERT_N has been low for 1 ms while not driven by the Mast, setting HELD_LOW; or, with `low` false, has been let go (R295). -/
  | alertHeldLow (low : Bool := true)
  /-- Loading EXTEST drives pins from the boundary register while moored, or acts as BYPASS otherwise (R303). -/
  | extest (frame : Option Frame)
  /-- Loading SAMPLE/PRELOAD places the boundary register between TDI and TDO (R300). -/
  | samplePreload (probe : ProbeAnswers)
  /-- Loading IDCODE places the device identification register between TDI and TDO (R301). -/
  | idcode (probe : ProbeAnswers)
  /-- Loading BYPASS or a code from 0x3 to 0xE selects the one-bit bypass register (R300). -/
  | bypass (code : Nat) (probe : ProbeAnswers)
  /-- TRST_N resets the public test port to Test-Logic-Reset asynchronously (R299). -/
  | trstN (low : Bool) (probe : ProbeAnswers)
  /-- CSEQ START opens a crossing on the next edge (R307). -/
  | start
  /-- CSEQ STOP sets STOP_PENDING so that CSEQ stops at the final slack water (R307). -/
  | stop
  /-- CSEQ STEP opens one crossing and sets STOP_PENDING (R307). -/
  | step
  /-- A read of CUR_NO_LO latches CUR_NO_HI (R312). -/
  | curNoLoRead
  /-- A crossing opens: slots and length are latched, post halves swap and participating tiles start at CX_ENTRY (R313). -/
  | opening
  /-- WTIME reaches the opening WTIME plus the latched length; landings seal the next batch and drain begins (R310). -/
  | ingressClose
  /-- A write of 1 to CXDONE ends the tile's work once its snapshot copy has completed (R314). -/
  | cxdone (f : FieldId) (t : TileId)
  /-- A tile issues its budgeted bundle, its berth ends OVERRUN and its other tiles are stopped (R327). -/
  | overrun (f : FieldId) (t : TileId)
  /-- Stage 1 is not empty DRAIN_LIMIT cycles after ingress close and CSEQ stops every tile not done (R321). -/
  | drainLimit
  /-- A re-crossing reaches CROSS_LEN plus DRAIN_LIMIT cycles and its unfinished tiles are stopped (R342). -/
  | recrossStage1Limit
  /-- Drain stage 4 becomes empty and landings transmit held frames of undamaged berths and discard the rest (R318). -/
  | egressRelease
  /-- The slack-water test passes; retirements, fences, routes, endings, suspensions and releases take effect (R320). -/
  | slackWater
  /-- The last snapshot copy back from the holders completes, ending RESTORING (R338). -/
  | restoreEnd
  /-- A 64-byte line of a snapshot copy completes at the holder, releasing waiting berth-world writes (R337). -/
  | snapshotLineCopied (f : FieldId) (t : TileId) (failed : Bool)
  /-- A write of 1 to a berth's RESUME requests resumption at the next opening, or is refused (R344). -/
  | resume (berth : Fin 24192)
  /-- A write of 1 to a berth's SUSPEND suspends it at the next slack water (R325). -/
  | suspend (berth : Fin 24192)
  /-- A move writes a value into a register or operand port (R352). -/
  | move (f : FieldId) (t : TileId)
  /-- ALU add writes o + t to r and the carry to c (R397). -/
  | add (f : FieldId) (t : TileId)
  /-- ALU addc writes o + t + c to r and the carry to c (R397). -/
  | addc (f : FieldId) (t : TileId)
  /-- ALU addv adds and raises OVERFLOW on signed overflow (R397). -/
  | addv (f : FieldId) (t : TileId)
  /-- ALU sub writes o - t and the borrow (R397). -/
  | sub (f : FieldId) (t : TileId)
  /-- ALU subb writes o - t - c and the borrow (R397). -/
  | subb (f : FieldId) (t : TileId)
  /-- ALU subv subtracts and raises OVERFLOW on signed overflow (R397). -/
  | subv (f : FieldId) (t : TileId)
  /-- ALU and writes o AND t (R397). -/
  | and (f : FieldId) (t : TileId)
  /-- ALU or writes o OR t (R397). -/
  | or (f : FieldId) (t : TileId)
  /-- ALU xor writes o XOR t (R397). -/
  | xor (f : FieldId) (t : TileId)
  /-- ALU andn writes o AND NOT t (R397). -/
  | andn (f : FieldId) (t : TileId)
  /-- ALU slt writes 1 when o < t signed (R397). -/
  | slt (f : FieldId) (t : TileId)
  /-- ALU sltu writes 1 when o < t unsigned (R397). -/
  | sltu (f : FieldId) (t : TileId)
  /-- ALU min writes the signed smaller of o and t (R397). -/
  | min (f : FieldId) (t : TileId)
  /-- ALU minu writes the unsigned smaller of o and t (R397). -/
  | minu (f : FieldId) (t : TileId)
  /-- ALU max writes the signed larger of o and t (R397). -/
  | max (f : FieldId) (t : TileId)
  /-- ALU maxu writes the unsigned larger of o and t (R397). -/
  | maxu (f : FieldId) (t : TileId)
  /-- ALU abs writes the magnitude of t (R397). -/
  | abs (f : FieldId) (t : TileId)
  /-- ALU pass writes t to r (R397). -/
  | pass (f : FieldId) (t : TileId)
  /-- SHF shl shifts o left by t[4:0] (R399). -/
  | shl (f : FieldId) (t : TileId)
  /-- SHF shr shifts o right with zero fill (R399). -/
  | shr (f : FieldId) (t : TileId)
  /-- SHF sar shifts o right with sign fill (R399). -/
  | sar (f : FieldId) (t : TileId)
  /-- SHF rol rotates o left (R399). -/
  | rol (f : FieldId) (t : TileId)
  /-- SHF ror rotates o right (R399). -/
  | ror (f : FieldId) (t : TileId)
  /-- SHF ext extracts a field of t zero-extended (R401). -/
  | ext (f : FieldId) (t : TileId)
  /-- SHF exts extracts a field of t sign-extended (R401). -/
  | exts (f : FieldId) (t : TileId)
  /-- SHF ins replaces a field of o with the low bits of t (R401). -/
  | ins (f : FieldId) (t : TileId)
  /-- SHF bswap reverses the four bytes of t (R399). -/
  | bswap (f : FieldId) (t : TileId)
  /-- SHF hswap exchanges the bytes of each half of t (R399). -/
  | hswap (f : FieldId) (t : TileId)
  /-- SHF clz counts leading zero bits of t (R399). -/
  | clz (f : FieldId) (t : TileId)
  /-- SHF ctz counts trailing zero bits of t (R399). -/
  | ctz (f : FieldId) (t : TileId)
  /-- CHK performs one CRC-32C byte step of acc (R406). -/
  | c32cB (f : FieldId) (t : TileId)
  /-- CHK performs one CRC-32C word step of acc (R406). -/
  | c32cW (f : FieldId) (t : TileId)
  /-- CHK performs one IEEE 802.3 CRC-32 byte step (R406). -/
  | c32B (f : FieldId) (t : TileId)
  /-- CHK performs one IEEE 802.3 CRC-32 word step (R406). -/
  | c32W (f : FieldId) (t : TileId)
  /-- CHK performs one CRC-16/CCITT byte step (R406). -/
  | c16B (f : FieldId) (t : TileId)
  /-- CHK performs one CRC-16/CCITT word step (R406). -/
  | c16W (f : FieldId) (t : TileId)
  /-- CHK performs one programmable CRC byte step (R406). -/
  | cpB (f : FieldId) (t : TileId)
  /-- CHK performs one programmable CRC word step (R406). -/
  | cpW (f : FieldId) (t : TileId)
  /-- CHK fin32 writes t XOR 0xFFFFFFFF to c (R403). -/
  | fin32 (f : FieldId) (t : TileId)
  /-- CHK fin16 writes t[15:0] zero-extended to c (R403). -/
  | fin16 (f : FieldId) (t : TileId)
  /-- CHK finp applies the programmable finalisation (R407). -/
  | finp (f : FieldId) (t : TileId)
  /-- CHK par_w writes the parity of the word (R403). -/
  | parW (f : FieldId) (t : TileId)
  /-- CHK par_b writes the parity of each byte (R403). -/
  | parB (f : FieldId) (t : TileId)
  /-- CHK rev_w reverses the bits of t (R403). -/
  | revW (f : FieldId) (t : TileId)
  /-- CHK rev_b reverses the bits within each byte (R403). -/
  | revB (f : FieldId) (t : TileId)
  /-- CHK pop counts the set bits of t (R403). -/
  | pop (f : FieldId) (t : TileId)
  /-- CHK fold32c starts or continues a CRC-32C FOLD over a buffer (R410). -/
  | fold32c (f : FieldId) (t : TileId)
  /-- CHK fold32 starts or continues an IEEE 802.3 CRC-32 FOLD (R410). -/
  | fold32 (f : FieldId) (t : TileId)
  /-- CHK fold16 starts or continues a CRC-16/CCITT FOLD (R410). -/
  | fold16 (f : FieldId) (t : TileId)
  /-- CHK foldp starts or continues a programmable-CRC FOLD (R410). -/
  | foldp (f : FieldId) (t : TileId)
  /-- CHK fclr clears RESUME of a stopped FOLD (R403). -/
  | fclr (f : FieldId) (t : TileId)
  /-- A 16-byte M4 read of a FOLD returns and its bytes are processed (R414). -/
  | foldBeatRead (f : FieldId) (t : TileId)
  /-- MUL mul writes the signed 64-bit product to r and h (R420). -/
  | mul (f : FieldId) (t : TileId)
  /-- MUL mulu writes the unsigned 64-bit product (R420). -/
  | mulu (f : FieldId) (t : TileId)
  /-- MUL mulv multiplies and raises OVERFLOW on signed overflow (R420). -/
  | mulv (f : FieldId) (t : TileId)
  /-- MUL mulvu multiplies and raises OVERFLOW when h is not 0 (R420). -/
  | mulvu (f : FieldId) (t : TileId)
  /-- DIV div divides signed and raises DIVIDE_BY_ZERO or OVERFLOW (R421). -/
  | div (f : FieldId) (t : TileId)
  /-- DIV divu divides unsigned and raises DIVIDE_BY_ZERO (R421). -/
  | divu (f : FieldId) (t : TileId)
  /-- DIV divq divides signed without raising (R421). -/
  | divq (f : FieldId) (t : TileId)
  /-- DIV divqu divides unsigned without raising (R421). -/
  | divqu (f : FieldId) (t : TileId)
  /-- HSH init loads the SHA-256 initial hash value (R425). -/
  | init (f : FieldId) (t : TileId)
  /-- HSH seth loads H0 to H7 from w0 to w7 (R425). -/
  | seth (f : FieldId) (t : TileId)
  /-- HSH rnd runs one group of eight rounds (R426). -/
  | rnd (f : FieldId) (t : TileId)
  /-- A fixed-latency operation reaches its latency and writes its sockets (R369). -/
  | unitResult (f : FieldId) (t : TileId)
  /-- LSU ldb loads a byte zero-extended (R431). -/
  | ldb (f : FieldId) (t : TileId)
  /-- LSU ldbs loads a byte sign-extended (R431). -/
  | ldbs (f : FieldId) (t : TileId)
  /-- LSU ldh loads a half-word zero-extended (R431). -/
  | ldh (f : FieldId) (t : TileId)
  /-- LSU ldhs loads a half-word sign-extended (R431). -/
  | ldhs (f : FieldId) (t : TileId)
  /-- LSU ldw loads a word (R431). -/
  | ldw (f : FieldId) (t : TileId)
  /-- LSU stb stores o[7:0] (R431). -/
  | stb (f : FieldId) (t : TileId)
  /-- LSU sth stores o[15:0] (R431). -/
  | sth (f : FieldId) (t : TileId)
  /-- LSU stw stores o (R431). -/
  | stw (f : FieldId) (t : TileId)
  /-- LSU swp swaps a word as a locked read-modify-write (R432). -/
  | swp (f : FieldId) (t : TileId)
  /-- LSU ldadd adds o to a word as a locked read-modify-write (R432). -/
  | ldadd (f : FieldId) (t : TileId)
  /-- LSU cas compares and swaps a word as a locked read-modify-write (R432). -/
  | cas (f : FieldId) (t : TileId)
  /-- LSU sync completes once every earlier LSU access has completed (R432). -/
  | sync (f : FieldId) (t : TileId)
  /-- An LSU access completes at its target and into r, or receives an error response that raises BUS_ERROR (R434). -/
  | lsuAccessComplete (f : FieldId) (t : TileId)
  /-- IOU ior reads an I/O-space word (R436). -/
  | ior (f : FieldId) (t : TileId)
  /-- IOU iow writes an I/O-space word by field attributes (R436). -/
  | iow (f : FieldId) (t : TileId)
  /-- An IOU access completes, or receives an error response that raises BUS_ERROR (R438). -/
  | iouAccessComplete (f : FieldId) (t : TileId)
  /-- CU jmp transfers to bundle t[11:0] after two delay bundles (R479). -/
  | jmp (f : FieldId) (t : TileId)
  /-- CU call transfers and writes LNK with the call address plus 3 (R380). -/
  | call (f : FieldId) (t : TileId)
  /-- CU ret transfers to the bundle in LNK (R479). -/
  | ret (f : FieldId) (t : TileId)
  /-- CU dbnz decrements LC and branches when the result is not 0 (R483). -/
  | dbnz (f : FieldId) (t : TileId)
  /-- CU rpt repeats the bundle after the delay bundles, non-interruptibly (R485). -/
  | rpt (f : FieldId) (t : TileId)
  /-- CU rpti repeats the bundle after the delay bundles, interruptibly (R485). -/
  | rpti (f : FieldId) (t : TileId)
  /-- CU trap enters the handler at ENTRY with cause TRAP and its number (R499). -/
  | trap (f : FieldId) (t : TileId)
  /-- A gate trigger with t 0 to 63 calls through a gate descriptor (R544). -/
  | gateCall (f : FieldId) (t : TileId)
  /-- A gate trigger with t 64 returns from the top gate stack entry (R545). -/
  | gateReturn (f : FieldId) (t : TileId)
  /-- CU gwcall calls through a gangway register, saving guards and a0 to a3 (R504). -/
  | gwcall (f : FieldId) (t : TileId)
  /-- CU gwret returns from the active gangway, restoring the shadow bank (R505). -/
  | gwret (f : FieldId) (t : TileId)
  /-- CU slip switches from the berth world into keeper supervisor, or back (R548). -/
  | slip (f : FieldId) (t : TileId)
  /-- CU eret restores level and mask and resumes the continuation (R532). -/
  | eret (f : FieldId) (t : TileId)
  /-- A CU compare sets guard gN from the relation of o and t (R441). -/
  | compare (f : FieldId) (t : TileId)
  /-- FRY kick queues a descriptor with the current world and level (R443). -/
  | kick (f : FieldId) (t : TileId)
  /-- At a bundle boundary the rig takes a fault or event and enters the handler at ENTRY (R524). -/
  | handlerEntry (f : FieldId) (t : TileId)
  /-- WTIME[31:0] equals TIMER_CMP while TIMER_ARM is 1, setting TIMER pending (R520). -/
  | timerEvent (f : FieldId) (t : TileId)
  /-- A write of 1 to EVENTS.RAISE sets the SOFT pending bit (R520). -/
  | raise (f : FieldId) (t : TileId)
  /-- A write that changes PMODE sets the most privileged level and clears gate, slip and gangway state (R514). -/
  | pmodeWrite (f : FieldId) (t : TileId) (split : Bool)
  /-- A write of ESC_RELEASE.GO requests release of a tile in escalated stop (R535). -/
  | escRelease (f : FieldId) (t : Nat)
  /-- A read of ESC_HEAD2 removes the head escalation report (R536). -/
  | escHead2Read (f : FieldId)
  /-- IFS.GO writes IF_DATA as one bundle to IMEM at IF_ADDR (R470). -/
  | ifs (f : FieldId) (t : TileId) (inc : Bool)
  /-- IFL.GO loads the bundle at IF_ADDR into IF_DATA (R470). -/
  | ifl (f : FieldId) (t : TileId) (inc : Bool)
  /-- A write of 1 to INJ_CE arms a correctable-error injection on the latched bank (R467). -/
  | injCe (f : FieldId) (t : TileId)
  /-- A write of 1 to INJ_UE arms an uncorrectable-error injection on the latched bank (R467). -/
  | injUe (f : FieldId) (t : TileId)
  /-- Every 1,024 cycles a bank's patrol scrubber reads one line and corrects or reports errors (R464). -/
  | patrolScrub (f : FieldId) (t : TileId) (b : Fin 8)
  /-- A credit window opens when WTIME mod 100 = 0 and credits are set to the live shares (R581). -/
  | creditWindow
  /-- A route computation ends and its routes become live, or wait for slack water (R608). -/
  | routeComputeEnd (f : FieldId)
  /-- A write of LOOKUP_IN makes LOOKUP_OUT show the tile that holds the identifier (R611). -/
  | lookupIn (f : FieldId) (lid : BitVec 16)
  /-- A FAR_READ packet arrives and is served through M3 (R598). -/
  | farRead (i : Nat)
  /-- A FAR_WRITE packet arrives and is written through M3 (R598). -/
  | farWrite (i : Nat)
  /-- A FAR_ATOMIC packet arrives and runs as a locked read-modify-write (R598). -/
  | farAtomic (i : Nat)
  /-- A BLOCK_WRITE packet arrives and is written as one burst (R598). -/
  | blockWrite (i : Nat)
  /-- An IMEM_WRITE packet arrives and is written to IMEM (R598). -/
  | imemWrite (i : Nat)
  /-- A POST packet arrives and is placed in the collecting half of the post bay (R598). -/
  | post (i : Nat)
  /-- EGRESS packets reach a net landing and their frame is accepted into the egress buffer or refused (R698). -/
  | egress (i : Nat)
  /-- A BLOCK_READ packet arrives and is read as one burst (R598). -/
  | blockRead (i : Nat)
  /-- A READ_RESP packet returns read data to the issuing unit (R598). -/
  | readResp (i : Nat)
  /-- A mesh ACK packet completes a write at the issuing unit (R598). -/
  | ack (i : Nat)
  /-- A BLOCK_RESP packet returns block data to the issuing unit (R598). -/
  | blockResp (i : Nat)
  /-- A mesh ERROR packet completes a request with an error response (R598). -/
  | error (i : Nat)
  /-- The ferry engine starts the next queued descriptor and checks it (R619). -/
  | descriptorStart (f : FieldId) (t : TileId)
  /-- A descriptor completes with its code, increments done and follows NEXT on OK (R621). -/
  | descriptorComplete (f : FieldId) (t : TileId)
  /-- A Hawser DATA packet is received and delivered, acknowledged or NAKed (R644): its header as received, whether a byte other than
  the copies of the header's fields has a parity error, which of the copies of TYPE (bytes 0 and 7) and of LEN and VC (bytes 1 and 6)
  have one, and whether the router or the landing takes it at once. -/
  | dataPacket (h : HostId) (e : EndId) (header : BitVec 64) (parity : Bool) (badType badLen : BitVec 2) (taken : Bool)
  /-- A Hawser ACK command releases packets up to ASEQ from the replay buffer (R645). -/
  | hawserAck (h : HostId) (e : EndId) (w : Word)
  /-- A Hawser NAK command releases earlier packets and triggers replay, shedding or a break by REASON (R647); `sent` packets of the
  replay that it finds running have been sent. -/
  | nak (h : HostId) (e : EndId) (w : Word) (sent : Nat := 0)
  /-- A Hawser LANE command sheds and adds lanes of a direction from the next word time (R655). -/
  | lane (h : HostId) (e : EndId) (w : Word)
  /-- A Hawser FLOW command sets XON or XOFF of each VC at the transmitter (R660); `sent0` and `sent1` packets of the replays that it
  finds running have been sent. -/
  | flow (h : HostId) (e : EndId) (w : Word) (sent0 : Nat := 0) (sent1 : Nat := 0)
  /-- A TRAIN MASK command carries the partner's good lanes of one segment (R667). -/
  | trainMask (h : HostId) (e : EndId) (w : Word)
  /-- A TRAIN READY command is compared with the end's usable count and hash (R667). -/
  | trainReady (h : HostId) (e : EndId) (w : Word) (link : Bool)
  /-- A receiver finds lane parity errors in a word time and retires the lanes or breaks the link (R652). -/
  | laneParityError (h : HostId) (e : EndId) (lanes : List Nat) (inside : Option (Fin 2))
  /-- A VC's ACK timer expires and its held packets are replayed or the link breaks (R648). -/
  | ackTimerExpiry (h : HostId) (e : EndId) (v : Fin 2)
  /-- 128 cycles pass since an unacknowledged delivery and an ACK becomes due (R645). -/
  | ackDue (h : HostId) (e : EndId) (v : Fin 2)
  /-- 256 cycles pass since the last FLOW and a FLOW becomes due (R660). -/
  | flowRefresh (h : HostId) (e : EndId)
  /-- A VC stays XOFF longer than CREDIT_TIMEOUT and the link breaks for CREDIT (R662). -/
  | creditTimeout (h : HostId) (e : EndId) (v : Fin 2)
  /-- 256 cycles after the first good lane the end leaves PROBE for EXCHANGE (R667). -/
  | probeWindowEnd (h : HostId) (e : EndId)
  /-- A training attempt has not reached UP after 1 ms and a new attempt starts (R667). -/
  | trainingAttemptTimeout (h : HostId) (e : EndId)
  /-- Every 64 cycles in UP_WAIT the end sends a link-format TRAIN READY (R667). -/
  | upWaitReadyInterval (h : HostId) (e : EndId)
  /-- 12,000 cycles in QUIET end and the end returns to PROBE (R667). -/
  | quietEnd (h : HostId) (e : EndId)
  /-- A write of 1 to CONTROL.BREAK declares the link broken for OPERATOR (R671). -/
  | linkBreak (h : HostId) (e : EndId)
  /-- A net port's link comes up after auto-negotiation, training and lock (R680). -/
  | netPortUp (k : NetId) (p : Fin 2) (pause : Bool)
  /-- A net port goes down and discards the frame it is receiving (R680). -/
  | netPortDown (k : NetId) (p : Fin 2)
  /-- A net port accepts a frame, classifies it by flow and holds it for its crossing, or drops it (R684); RS-FEC corrected `corr`
  codewords since the frame before and found `uncorr` of this frame's past correction (R681, R713). -/
  | netFrameRx (k : NetId) (p : Fin 2) (frame : List Byte) (corr : Nat) (uncorr : Nat := 0)
  /-- A MAC control frame is received and, for PAUSE, stops the port transmitter for its quanta (R682). -/
  | pauseFrame (k : NetId) (p : Fin 2) (opcode quanta : BitVec 16)
  /-- The PAUSE quanta of a port expire and its transmitter resumes (R682). -/
  | pauseQuantaExpiry (k : NetId) (p : Fin 2)
  /-- No crossing m-2 remains, so the landing writes bay headers and held frames of crossing m into the bays (R689). -/
  | bayRelease (k : NetId)
  /-- A port holds frames past EGRESS_TIMEOUT and its remaining frames are discarded (R700). -/
  | egressTimeout (k : NetId) (p : Fin 2)
  /-- A write of 1 to XCTL.GO starts or queues a store transfer (R707). -/
  | xctlGo (k : StoreId) (i : Fin 16) (v : Word)
  /-- A drive completes an NVMe command of a running store transfer (R709). -/
  | nvmeCompletion (k : StoreId) (i : Fin 16) (status : Nat) (data : List Byte)
  /-- A store transfer completes with its RESULT (R710). -/
  | storeTransferComplete (k : StoreId) (i : Fin 16)
  /-- A transfer runs past XFER_TIMEOUT, completes with TIMEOUT and its port is reset (R711). -/
  | xferTimeout (k : StoreId) (i : Fin 16)
  /-- The 100 ms PE_PERST_N period ends and the port's reset is released (R703). -/
  | pePerstNRelease (k : StoreId) (p : Fin 4)
  /-- A store port's PCI Express link comes up and the device is enumerated and brought up (R704). -/
  | storeLinkUp (k : StoreId) (p : Fin 4) (gen width : Nat)
  /-- The NVMe controller reports ready with a valid namespace and the store port is up (R704). -/
  | storePortUp (k : StoreId) (p : Fin 4) (lbads : Nat)
  /-- A device not ready within 2 s of link-up has its port reset and retried (R704). -/
  | deviceReadyTimeout (k : StoreId) (p : Fin 4)
  /-- A store port goes down and its running transfers end with LINK_DOWN (R710). -/
  | storeLinkDown (k : StoreId) (p : Fin 4)
  /-- A device's inbound request is taken, or outside an active buffer or MSI-X address gets Unsupported Request (R706). -/
  | inboundRequest (k : StoreId) (p : Fin 4) (target : Inbound)
  /-- An INTx or MSI message from a drive is dropped and counted (R702). -/
  | intDrop (k : StoreId) (p : Fin 4)
  /-- The Mast writes a queued logbook event into its slot (R751). -/
  | logbookWrite
  /-- A write of READ_SEQ copies the selected logbook slot into READ_STATUS and READ_WORD (R759). -/
  | readSeq (v : Word)
  /-- A write of ACK_SEQ advances the saved point, or is refused with BAD_ACK (R760). -/
  | ackSeq (v : Word)
  /-- A write of SERVICE_MARK stores the return reference while no mark exists (R762). -/
  | serviceMark (v : Word)
  /-- A write of SERVICE_REASON sets MARKED and raises a SERVICE_MARK event (R762). -/
  | serviceReason (reason : Byte)
  /-- VSTBY is removed; every volatile state is lost, a logbook write in progress is cut off as a gap and a pending REPEAT count is lost, while MRAM contents survive (R753). -/
  | vstbyRemoved (written : Nat)
  /-- RESET_N rises and any wake source held while it was low is acted on, waking the wafer (R143). -/
  | resetNRise (probe : ProbeAnswers)
  /-- The RTC seconds divider expires and RTC_SECONDS increments by one (R141). -/
  | rtcSecondTick
  /-- A data-register scan of the public test port ends in Update-DR, changing the boundary register outputs under EXTEST or the preload
  values; `levels` are the levels outside the block at its capture, by cell (R302). -/
  | updateDr (value : BitVec 21) (levels : BitVec 21 := 0)
  /-- A Hawser receiver judges a lane good after 16 consecutive correct probe pairs, starting the 256-cycle window when it is the first (R666). -/
  | laneJudgedGood (h : HostId) (e : EndId) (lane : Nat)
  /-- The root port of a store landing receives an AER error and counts it as correctable or uncorrectable (R702). -/
  | aerError (k : StoreId) (p : Fin 4) (uncorrectable : Bool)
  /-- A Hawser receiver finds an item whose TYPE, CODE or framing copies are invalid and breaks the link for PROTOCOL or FRAMING (R635). -/
  | unknownItemType (h : HostId) (e : EndId) (framing : Bool)
  /-- A bundle whose moves are all no-operations or guarded off issues, advancing the issue slot, BUNDLES, the reef history and any repeat (R367). -/
  | noOperation (f : FieldId) (t : TileId)
deriving DecidableEq, Repr

end Sys2Proof
end

