-- ==== Sys2Proof/Decode.lean ====
section
/-! DEFINITION. The command that a word spells by the opcode table's bits: the table gives no row any bits, so no word
spells a command (log 2). -/
namespace Sys2Proof

/-- The command that the word `w` of `nbits` bits spells: none. -/
def decodeTableWord (_nbits _w : Nat) : Option Instr := none

end Sys2Proof
end

