-- ==== Sys2Proof/Config.lean ====
section
/-! DEFINITION. What a part fixes and the spec gives no number for: opaque constants, so that no proof can see a value. -/
namespace Sys2Proof.Config

/-- The Mast firmware's minor version (R297 "Fixed"). -/
opaque fwMinor : BitVec 8
/-- The Mast firmware's major version (R297 "Fixed"). -/
opaque fwMajor : BitVec 8

/-- The cycles that a master of a tile waits for one grant (R589), by 5 × tile key + master and the number of its grants before it: the
cycles of arbitration are not modelled (log 9). -/
opaque waitCycles (key n : Nat) : Nat

/-- A byte that a rig's read of a collecting half finds (R332: "the rig cannot read it"), by the number of such reads before it and
its place among the bytes read (log 40). -/
opaque hiddenByte (n i : Nat) : BitVec 8

/-- What DATA of an ERROR packet holds for a cause (R597 "the error reason"); the spec gives the reasons no values (log 38). -/
opaque errorReason (cause : Nat) : BitVec 32

end Sys2Proof.Config
end

