-- ==== Sys2Proof/Machine/State.lean ====
section
/-! DEFINITION. The state of the block as plain data: the register store, the Mast's standby state (power, port,
logbook, defect map, test port) and the main-domain state that mooring loses (R137). -/
namespace Sys2Proof.Machine

/-- Why the machine stops with a fault. -/
inductive Fault
  /-- A command to a place that the wafer does not have. No meaning raises it: every row answers with what its rules leave (log 4);
  safe. -/
  | noSuchPlace
deriving DecidableEq, Repr

/-- Why the machine refuses a command. -/
inductive Refusal
  /-- A row with no meaning yet, by its mnemonic; raised by exec's arm alone; safe. -/
  | notModelled (mnemonic : String)
deriving DecidableEq, Repr

/-! ### Register fields (R9) -/

/-- The attributes of R9. -/
inductive Attr
  | ro | w1c | wo | rwL | rwS | rwH
deriving DecidableEq, Repr

/-- A register field: offset of its word in the page, lowest bit, width, attribute, reset value; `n` equal registers
stand `stride` bytes apart. -/
structure Fld where
  off : Nat
  lo : Nat
  width : Nat
  attr : Attr
  reset : Nat
  stride : Nat := 4
  n : Nat := 1
deriving DecidableEq, Repr

/-- The blocks whose pages R224 allocates. -/
inductive PageKind
  | mast | mpwr | dmap | logb | roster | rostf | cseq | hoist | berth
  | netl | netlBay | netlFlow | strl | strlX | landingEmpty
  | fctl | fpwr | ftopo | haws | tile0 | tile1 | tile2 | tile3
deriving DecidableEq, Repr

/-! ### Power (R91 to R145) -/

/-- Where a wake stands (R95). -/
inductive WakePhase
  | none | probing | mainRail | pll | reconciling | rails
deriving DecidableEq, Repr

/-- The wake sources of R139. -/
inductive WakeSource
  | pin | rtc | spi
deriving DecidableEq, Repr

/-- Why mooring begins: MOORED event ARG0 (R757). -/
inductive MoorCause
  | request | reset | mainLost
deriving DecidableEq, Repr

/-- What a transaction that was not acknowledged was for (R105): a read of the probe, a poll of a rail step, an OPERATION write of
0x40, the OPERATION write of R126 step 3, a visit's VOUT_COMMAND, the STATUS_WORD read of an alert. -/
inductive PmbPurpose
  | probe | railStep | softOff | tripOff | visit | alert
deriving DecidableEq, Repr

/-- A transaction waiting for a 10 ms retry (R105). -/
structure PmbWait where
  rail : Rail
  purpose : PmbPurpose
  tries : Nat
deriving DecidableEq, Repr

/-- The power side of the Mast (R95 to R145), apart from the MPWR page. -/
structure PowerSt where
  /-- VSTBY is applied and the standby domain ready (R143). -/
  standby : Bool
  phase : WakePhase
  /-- The last OPERATION byte written to each rail's regulator, by rail index. -/
  operation : List (Nat × Nat)
  /-- The VOUT_MODE reading of each regulator, by rail index (R103). -/
  voutMode : List (Nat × Nat)
  /-- The last VOUT_COMMAND word of each rail, by rail index (R118). -/
  vout : List (Nat × Nat)
  /-- What the other commands of R103 last wrote, by 256 × rail index + command code; for CLEAR_FAULTS, how often it was sent. -/
  sent : List (Nat × Nat)
  /-- The rail step of R96 in progress. -/
  railStep : Option Rail
  /-- Rail requests that wait (R101). -/
  railQueue : List Rail
  /-- Regulators marked incompatible (R104). -/
  badRails : List Rail
  /-- Regulators that are sent nothing until a probe (R105). -/
  silentRails : List Rail
  /-- The next place of the running probe, by ascending address (R95, R110). -/
  probeAt : Option Nat
  /-- A regulator acknowledged in the running probe (R106). -/
  probeAcked : Bool
  /-- Transactions that wait for their retry, oldest first (R105). -/
  pmbWaits : List PmbWait
  /-- Wake sources held (R142, R143, R304). -/
  heldWakes : List WakeSource
  /-- A mooring request that waits for its point in a wake (R142). -/
  moorPending : Option MoorCause
  /-- A mooring whose OPERATION writes are not yet all made: its cause, and whether it lost a crossing (R105, R136). -/
  mooring : Option (MoorCause × Bool)
  /-- A RESET event that follows the mooring RESET_N has asked for, with the frame it discarded (R179). -/
  resetDue : Option Bool
  /-- Fields whose soft off waits for the slack water (R100). -/
  leaving : List Nat
  rtc : BitVec 48
  /-- The alarm has fired on a second tick and has not yet acted as a wake source (R141). -/
  alarmDue : Bool
  /-- RTC_SECONDS_HI latched by a read of RTC_SECONDS_LO. -/
  rtcHiLatch : BitVec 16
  /-- The last value written to RTC_SECONDS_LO. -/
  rtcLoWritten : Word
deriving DecidableEq, Repr

/-! ### The management port and the test port (R269 to R305) -/

/-- The command in progress (R280): one whose result is known, with LAST_RESULT 0x00, 0x80 or 0x81 (R284); or an access that has not
yet reached its page (R286). -/
inductive PendCmd
  | answer (result : Nat)
  | read (addr : Nat)
  | write (addr : Nat) (data : Word)
  | broadcast (addr : Nat) (data : Word)
deriving DecidableEq, Repr

/-- The status record's fields (R288) and the command in progress. -/
structure PortSt where
  cmd : Option PendCmd
  lastTag : Byte
  lastResult : Byte
  lastData : Word
  rejTag : Byte
  rejReason : Byte
  rejSeq : Byte
  /-- The bytes last sent on SPI_MISO by a STATUS frame (R274). -/
  miso : List Byte
deriving DecidableEq, Repr

/-- The register between TDI and TDO (R300). -/
inductive TapReg
  | boundary | idcode | bypass
deriving DecidableEq, Repr

/-- The public test port (R299 to R305), apart from TAP_STATUS. -/
structure TapSt where
  sel : TapReg
  /-- EXTEST is in effect (R303). -/
  extest : Bool
  /-- The boundary register's update latches, cell 0 lowest (R302). -/
  latch : BitVec 21
  /-- The bits that the last scan has shifted out of TDO, in their order (R300 to R302). -/
  tdo : List Bool
deriving DecidableEq, Repr

/-- Levels of the input pins that the block keeps. -/
structure PinSt where
  resetN : Bool
  wakeN : Bool
  trstN : Bool
  /-- Another agent pulls ALERT_N low (R295). -/
  alertPulledLow : Bool
deriving DecidableEq, Repr

/-! ### The logbook (R748 to R762) -/

/-- What R753 compares. -/
structure LogKey where
  code : Nat
  field : Nat
  tile : Nat
  arg0 : Word
  arg1 : Word
deriving DecidableEq, Repr

/-- The logbook apart from the LOGB page. -/
structure LogSt where
  /-- Slots by number, 256 bits each; 0 is a slot that nothing was written to (R748). -/
  ring : List (Nat × BitVec 256)
  /-- Events that have a number and are not yet written, oldest first (R751). -/
  queue : List (BitVec 256)
  newest : Option LogKey
  /-- SEQ of the newest event written or queued (R753). -/
  newestSeq : Word
  /-- The first number ever given (R758, OLDEST_SEQ). -/
  first : Word
deriving DecidableEq, Repr

/-! ### The defect map (R186 to R221) -/

/-- A defect-map record (R187), without its CHECK. -/
structure MapRec where
  gen : Word
  kind : Nat
  source : Nat
  field : Nat
  locator : Nat
  remark : Nat
  logseq : Nat
deriving DecidableEq, Repr

/-- A record slot that something was written into (R192): its 16 bytes; or what a write that was interrupted or that failed
left, which is neither erased nor valid and whose bytes the spec leaves open. -/
inductive MapSlot
  | word (w : BitVec 128)
  | torn
deriving DecidableEq, Repr

/-- One area of a copy (R190): the fields of its header in the order of their bytes, and its record slots from slot 2 on; the slots
beyond the list are erased. -/
structure MapArea where
  magic : Word
  format : BitVec 16
  grade : BitVec 16
  waferId : BitVec 64
  baseGen : Word
  areaSeq : Word
  reserved : Word
  hcheck : Word
  slots : List MapSlot
deriving DecidableEq, Repr

/-- A whole-copy write into an area of copy B (R190, R204); `redo` marks the repeat of one that failed (R201). -/
structure WholeCopy where
  area : Nat
  recs : List MapRec
  baseGen : Word
  redo : Bool
deriving DecidableEq, Repr

/-- The flash operation that copy B waits for (R200, R201): a record for the next erased slot, or a sector's erase, and whether it is
the repeat of a failed one; a page of a whole copy. -/
inductive FlashOp
  | slot (r : MapRec) (again : Bool)
  | erase (w : WholeCopy) (sector : Nat) (again : Bool)
  | page (w : WholeCopy) (page : Nat)
deriving DecidableEq, Repr

/-- The commands that the Mast sends to the flash (R200). -/
inductive FlashCmd
  | resetEnable | reset | readSfdp | readId | fastRead | writeEnable | pageProgram | sectorErase | readStatus
deriving DecidableEq, Repr

/-- A resource that leaves service at the next slack water (R49, R213, R465). -/
inductive Retire
  | tile (f t : Nat)
  | bank (f t b : Nat)
  | lane (f ctype cindex lane : Nat)
  | field (f : Nat)
deriving DecidableEq, Repr

/-- The defect map's two copies and the work on copy B. -/
structure MapSt where
  a0 : MapArea
  a1 : MapArea
  b0 : MapArea
  b1 : MapArea
  /-- Entries that wait for copy B, in the order of addition (R194). -/
  bQueue : List MapRec
  /-- A whole copy that waits for the flash (R204, R207). -/
  bWhole : Option WholeCopy
  flashOp : Option FlashOp
  /-- A fault has stopped writing copy B until the next wake or MAP_SYNC (R201). -/
  flashStopped : Bool
  /-- The copies have been reconciled in this wake, so that copy B is written after copy A (R194). -/
  following : Bool
  /-- A write of 1 to MAP_SYNC has asked for a probe and a reconciliation that have not begun (R795). -/
  syncDue : Bool
  /-- The commands of the last probe, reading, erase or program, oldest first (R200). -/
  sent : List FlashCmd
  /-- The identity fused into the Mast at Dunmond (R190, R220). -/
  waferId : BitVec 64
deriving DecidableEq, Repr

/-! ### The hoist (R242 to R261) -/

/-- An armed hoist (R256): its mode, its WTIME and the WTIME of its pass. -/
structure HoistArm where
  slack : Bool
  wtime : Nat
  passAt : Nat
deriving DecidableEq, Repr

/-- The hoist sequencer apart from the HOIST page. -/
structure HoistSt where
  /-- The pages of the set, ascending, by page address. -/
  set : List Nat
  /-- The running check ends in arming (ARM) or not (CHECK). -/
  arming : Bool
  checkStart : Nat
  /-- The checker has worked out its offences. -/
  judged : Bool
  /-- WTIME at which the running check paused on a full FIFO (R250, R251). -/
  pausedAt : Nat
  /-- Entries the checker has not yet put in the FIFO (R250). -/
  todo : List (BitVec 64)
  fifo : List (BitVec 64)
  armed : Option HoistArm
deriving DecidableEq, Repr

/-! ### The rig of a tile (R351 to R510) -/

/-- What a pending control transfer does when it arrives (R379, R504, R505, R532, R544, R545, R548, R549). -/
inductive XferKind
  /-- jmp, call, ret or dbnz. -/
  | jump
  /-- A bundle of the continuation that an eret fixed (R532). -/
  | cont
  | trap (number bundle : Nat)
  | gateCall (level ret caller : Nat)
  | gateRet
  | gwcall (n level : Nat)
  | gwret
  | slipIn (ret : Nat)
  | slipOut
  | eret
deriving DecidableEq, Repr

/-- A transfer that takes effect at bundle position `due` (R379, R381, R487). -/
structure Pend where
  due : Nat
  target : Nat
  kind : XferKind
deriving DecidableEq, Repr

/-- A repeat from its trigger to its last iteration (R485 to R488): the position of the repeated bundle and, from the
first iteration on, its content. -/
structure Rpt where
  start : Nat
  nonInt : Bool
  content : Option (BitVec 128)
deriving DecidableEq, Repr

/-- A fixed-latency operation in flight (R369): the issue slot of its trigger, the slot its result lands in, and what
it writes, by source identifier. -/
structure Land where
  trig : Nat
  due : Nat
  writes : List (Nat × Word)
deriving DecidableEq, Repr

/-- An OVERFLOW or DIVIDE_BY_ZERO on its way (R528, R529): the cycle in which it is raised. -/
structure Arith where
  raiseAt : Nat
  code : Nat
  info : Nat
  bundle : Nat
  slot : Nat
  precise : Bool
deriving DecidableEq, Repr

/-- A fault raised after issue that waits to be taken (R523 step 1, R527, R529). -/
structure Raised where
  code : Nat
  info : Nat
  bundle : Nat
  slot : Nat
  addr : Word
deriving DecidableEq, Repr

/-- An operation of an interlocked socket (R372): its trigger slot, its latency, and its result once it has arrived;
an access that received an error response arrives with no value (R435). -/
structure Ilk where
  slot : Nat
  lat : Nat
  done : Bool
  val : Option Word
deriving DecidableEq, Repr

/-- The LSU's accesses (R431, R432): size in bytes. -/
inductive LsuKind
  | load (size : Nat) (signed : Bool)
  | store (size : Nat)
  | swp | ldadd | cas | sync
deriving DecidableEq, Repr

/-- An outstanding LSU access (R433). -/
structure LsuAcc where
  kind : LsuKind
  addr : Word
  data : Word
  cmp : Word
  slot : Nat
  bundle : Nat
  berth : Bool
  level : Nat
  /-- A far access whose request has left for the mesh (R458). -/
  sent : Bool
deriving DecidableEq, Repr

/-- An outstanding IOU access (R438). -/
structure IouAcc where
  write : Bool
  addr : Word
  data : Word
  slot : Nat
  bundle : Nat
  /-- Triggered in the berth world (R316, R551). -/
  berth : Bool
deriving DecidableEq, Repr

/-- The FOLD state of CHK (R408, R409): the checkpoint, the register and place of the work beyond it, and what the
trigger or continuation had in force, the window registers among it (R419, R527). -/
structure Fold where
  busy : Bool
  resume : Bool
  alg : Nat
  lenErr : Bool
  busErr : Bool
  facc : Word
  fptr : Word
  frem : Word
  acc : Word
  ptr : Word
  rem : Word
  berth : Bool
  level : Nat
  slot : Nat
  bundle : Nat
  /-- Its read has left for the mesh through a far window. -/
  sent : Bool
  wins : List Word
deriving DecidableEq, Repr

/-! ### Exceptions (R518, R523) -/

/-- A fault found at issue: its code, level, information and access address (R518). -/
structure IssueFault where
  code : Nat
  level : Nat
  info : Nat
  addr : Word
deriving DecidableEq, Repr

/-- What R523 chooses. -/
inductive Choice
  /-- BUS_ERROR, for the first in trigger order (R524 step 1); the bundle of a trap whose entry it has replaced. -/
  | bus (lostTrap : Option Nat)
  /-- OVERFLOW or DIVIDE_BY_ZERO in precise-arithmetic mode (R529). -/
  | arith (r : Raised)
  | trap (number bundle : Nat)
  /-- An event by its source, 0 ARITH to 3 SOFT, and its level. -/
  | event (src level : Nat)
  | issue (e : IssueFault)
deriving DecidableEq, Repr

/-- What the rig is doing (R313, R314, R321, R327, R534, R540). -/
inductive RunState
  /-- Reset and never opened (R540). -/
  | fresh
  | running
  /-- Ended its work with CXDONE, or an idle tile (R314). -/
  | idle
  /-- Stopped by an overrun, the drain limit or CSEQ (R321, R327). -/
  | stopped
  /-- In escalated stop (R534). -/
  | escalated
deriving DecidableEq, Repr

/-- The rig of a tile, apart from tile page 0. -/
structure Rig where
  run : RunState
  /-- HALT_REQ was 1 at the opening: the rig starts when released (R540). -/
  startHeld : Bool
  /-- Bundle address of the next bundle in sequence (R358). -/
  pc : Nat
  /-- Position of the next bundle: a repeat's iterations together take one (R487). -/
  pos : Nat
  /-- Issue slots since the opening (R367). -/
  slot : Nat
  /-- The cycle of the last issue, if any. -/
  lastIssue : Option Nat
  /-- a0 to a31 at 0 to 31 and b0 to b31 at 32 to 63 (R378), operand ports by destination identifier (R362). -/
  ports : List (Nat × Word)
  /-- Result sockets by source identifier (R353, R361). -/
  socks : List (Nat × Word)
  g0 : Bool
  g1 : Bool
  g2 : Bool
  lnk : Nat
  lc : Word
  rptc : Nat
  rpt : Option Rpt
  pend : List Pend
  /-- An entry was taken and the bundle at ENTRY has not issued (R793). -/
  entryFresh : Bool
  /-- A transfer of the third row of R497 has arrived and the bundle at its target has not issued (R522). -/
  atTarget : Bool
  /-- A trap whose delay bundles have issued: its number and its bundle (R499). -/
  trapDue : Option (Nat × Nat)
  inflight : List Land
  ariths : List Arith
  /-- MULTI for the ARITH entry to come (R521). -/
  arithMulti : Bool
  /-- What the imprecise exception that set ARITH recorded (R528). -/
  arithRec : Option Raised
  raised : List Raised
  lsuQ : List LsuAcc
  iouQ : List IouAcc
  lsuIlk : List Ilk
  iouIlk : List Ilk
  fold : Fold
  /-- The latched polynomial and configuration (R408) are the sockets fpoly and fpcfg. -/
  hshH : List Word
  hshV : List Word
  hshW : List Word
  hshG : Nat
  /-- The first cycle in which DIV and HSH accept a trigger (R370). -/
  divFree : Nat
  hshFree : Nat
  /-- No bundle issues before this cycle: a precise operation (R529). -/
  holdUntil : Nat
  /-- Cycles of heavy triggers in the last 16 cycles: (cycle, count) (R726). -/
  heavyAt : List (Nat × Nat)
  /-- Writes of IFS that fetch sees from a slot on: (slot, bundle, former content) (R382). -/
  ifsOld : List (Nat × Nat × BitVec 128)
  /-- An entry that waits for outstanding accesses (R524 step 1). -/
  taking : Option Choice
deriving DecidableEq, Repr

/-- A write of IFS or IFL whose beat of T8 is still to come: the bundle address, and for IFS the bundle (R470, R558). -/
structure IfWait where
  addr : Nat
  store : Option (BitVec 128)
deriving DecidableEq, Repr

/-! ### Mesh packets (R597, R598) -/

/-- The unit that issued a request, which its response returns to (R598); the spec leaves its place in TAG open. -/
inductive PktUnit
  | lsu | fold | ferry
  /-- The delivery of a net landing (R691): the sequence number of its frame; none for a header. -/
  | bay (frame : Option Nat)
  /-- A transfer slot of a store landing (R624). -/
  | xfer (slot : Nat)
deriving DecidableEq, Repr

/-- A mesh packet on its way: its header (R597), its data, the channels it has still to cross by their transmit ends, the tile
routers that it has still to pass, by tile key, and the receive buffer that holds it, if one does (R658). -/
structure Pkt where
  kind : Nat
  qos : Nat
  vc : Nat
  cls : Nat
  world : Bool
  dstField : Nat
  dstTile : Nat
  srcField : Nat
  srcTile : Nat
  op : Nat
  tag : Nat
  addr : Word
  data : Word
  flits : List Byte
  unit : PktUnit
  path : List (Nat × Nat)
  via : List Nat
  buf : Option (Nat × Nat)
  /-- Its access has already completed with an error, since its destination was lost (R457). -/
  dead : Bool
deriving DecidableEq, Repr

/-! ### Channel ends (R626 to R678), apart from the HAWS page -/

/-- A command of an end (R639). -/
structure HCmd where
  code : Nat
  w : Word
deriving DecidableEq, Repr

/-- One virtual channel of an end (R642 to R651, R658 to R662). -/
structure HVc where
  /-- The replay buffer by SEQ, oldest first (R643). -/
  held : List (Nat × Pkt)
  /-- Packets routed to the channel and not yet sent (R643, R660, R663). -/
  wait : List Pkt
  /-- SEQ of the next packet of a replay, while one runs or waits for XON (R647). -/
  replay : Option Nat
  /-- WTIME at which the ACK timer started (R648). -/
  timer : Option Nat
  /-- Expiries since the last release (R650). -/
  expiries : Nat
  /-- WTIME from which the partner holds this channel in XOFF (R662). -/
  xoffFrom : Option Nat
  /-- Deliveries since the last ACK or NAK, and the WTIME of the first of them (R645). -/
  fresh : Nat
  freshFrom : Option Nat
  /-- A NAK for the packet being received has been sent (R652). -/
  nakked : Bool
deriving DecidableEq, Repr

/-- A channel end. -/
structure HawEnd where
  v0 : HVc
  v1 : HVc
  /-- Commands that are pending, in the order in which they will be sent (R663). -/
  due : List HCmd
  /-- Commands transmitted and not yet decoded by the partner, oldest first. -/
  out : List HCmd
  /-- The virtual channel that sends next when both may (R663). -/
  turn : Nat
  /-- Lanes out for good: recorded, or retired in this wake (R656); a set of bits. -/
  gone : Nat
  /-- Lanes judged good in this attempt (R666). -/
  good : Nat
  /-- WTIME at which the first lane became good (R667). -/
  firstGood : Option Nat
  /-- Lanes that the partner's masks mark, and the segments received (R667). -/
  mask : Nat
  segs : Nat
  /-- Usable lanes of this attempt (R667). -/
  usable : Nat
  /-- WTIME at which the attempt, or QUIET, began. -/
  since : Nat
  /-- Active and spare lanes of the transmit direction (R631, R654, R655); LANE_STATE shows the receive direction. -/
  txActive : Nat
  txSpare : Nat
deriving DecidableEq, Repr

/-! ### The ferry engine (R613 to R623) -/

/-- A descriptor that the engine has queued: its DMEM address and the world, level and issue slot of its kick (R588,
R613). -/
structure FryReq where
  addr : Word
  berth : Bool
  level : Nat
  slot : Nat
deriving DecidableEq, Repr

/-- The active descriptor (R614) and how far it has come. -/
structure FryAct where
  req : FryReq
  src : Word
  dst : Word
  len : Nat
  row : Nat
  sstride : Word
  dstride : Word
  dkind : Nat
  qos : Nat
  event : Bool
  next : Option Nat
  /-- The sequence number of a post (R619, R331). -/
  seq : Nat
  /-- Bytes moved; the place in the current row, and the starts of the current rows. -/
  pos : Nat
  rowPos : Nat
  srow : Word
  drow : Word
  /-- A read of so many bytes is on its way (R617). -/
  reading : Option Nat
  /-- Writes not yet complete (R621). -/
  writes : Nat
  /-- The bytes of a post or frame gathered so far. -/
  gathered : List Byte
  /-- The completion code once it is fixed. -/
  code : Option Nat
deriving DecidableEq, Repr

/-- The ferry engine of a tile. -/
structure Ferry where
  queue : List FryReq
  /-- The descriptor that a completed one named with NEXT (R621). -/
  chain : Option FryReq
  act : Option FryAct
  /-- The tile has ended its work: no NEXT is followed (R622). -/
  closed : Bool
deriving DecidableEq, Repr

/-! ### Landings (R679 to R716) -/

/-- A frame in the hold buffer: its crossing, flow, port, sequence number and bytes without FCS (R689, R690). -/
structure HeldFrame where
  crossing : Nat
  flow : Nat
  port : Nat
  seq : Nat
  bytes : List Byte
deriving DecidableEq, Repr

/-- What a landing has written into a half of a bay (R690). -/
structure Bay where
  count : Nat
  dropped : Nat
  next : Nat
deriving DecidableEq, Repr

/-- An outbound frame that arrives in EGRESS packets (R696). -/
structure EgPart where
  src : Nat
  handle : Nat
  length : Nat
  bytes : List Byte
deriving DecidableEq, Repr

/-- An outbound frame held (R700): its sender's identifier, its world, its port and its bytes on the line without FCS. -/
structure EgFrame where
  /-- The source tile's logical identifier; a keeper tile may have none. -/
  lid : Option Nat
  berth : Bool
  port : Nat
  bytes : List Byte
deriving DecidableEq, Repr

/-- A net landing apart from its pages. -/
structure NetSt where
  hold : List HeldFrame
  /-- Next sequence number by crossing number (R690). -/
  seqs : List (Nat × Nat)
  /-- The last crossing whose halves have their headers (R689). -/
  released : Option Nat
  /-- Halves by 2 × bay + half. -/
  bays : List (Nat × Bay)
  /-- Frames of the last released crossing that a delivery error has dropped (R692). -/
  lostSeqs : List Nat
  parts : List EgPart
  egress : List EgFrame
  /-- Frames released and not yet on the line, and those that have left, oldest first, by port. -/
  sending : List EgFrame
  line : List (Nat × List Byte)
  /-- The edge on which stage 4 became empty (R700). -/
  since : Option Nat
  /-- PAUSE has been sent and not yet taken back (R683). -/
  pausing : Bool
  /-- PAUSE quanta in force, by port (R682). -/
  quanta : List (Nat × Nat)
deriving DecidableEq, Repr

/-- A store transfer that waits or runs, with its slot's values as GO found them (R707 to R711). -/
structure Xfer where
  slot : Nat
  port : Nat
  /-- DIR 1, from tile to drive; DKIND 1, IMEM. -/
  toDrive : Bool
  imem : Bool
  base : Nat
  count : Nat
  addr : Nat
  lba : Nat
  blocks : Nat
  /-- A reserved bit was set in the write of GO. -/
  reserved : Bool
  /-- WTIME of its start; none while it waits. -/
  start : Option Nat
  /-- It belongs to a crossing (R311). -/
  inCrossing : Bool
  /-- N, once it runs. -/
  len : Nat
  /-- Its BLOCK_READs, or its Reads of the drive, have been sent. -/
  asked : Bool
  /-- Bytes for which the drive has been sent a Write. -/
  issued : Nat
  /-- Bytes that the drive has given or taken. -/
  moved : Nat
  /-- Tile writes and reads not yet answered. -/
  open' : Nat
  /-- Bytes read from the tile for the drive. -/
  staged : List Byte
  /-- Identifiers skipped (R625). -/
  skipped : List Nat
  /-- A result other than OK that has been fixed. -/
  result : Option Nat
deriving DecidableEq, Repr

/-- The admin commands that a store landing uses (R705): Identify by its CNS and namespace, and the creation of the I/O queues by
identifier, entries and, for a submission queue, its completion queue. -/
inductive NvmeAdmin
  | identify (cns nsid : Nat)
  | createCq (id entries : Nat)
  | createSq (id entries cq : Nat)
deriving DecidableEq, Repr

/-- An I/O command in a port's submission queue (R705): Read, or Write with FUA, of a number of logical blocks of namespace 1, with
its PRP entries, its PRP list and, for a Write, its data; it belongs to a transfer slot. -/
structure NvmeCmd where
  cid : Nat
  slot : Nat
  write : Bool
  fua : Bool
  lba : Nat
  blocks : Nat
  prp1 : Nat
  prp2 : Nat
  list : List Nat
  data : List Byte
deriving DecidableEq, Repr

/-- A port's NVMe controller as the landing drives it (R704, R705): WTIME of link-up, the admin commands sent since then, and the I/O
commands that the drive has not yet completed, both oldest first. -/
structure Nvme where
  upAt : Nat
  admin : List NvmeAdmin
  io : List NvmeCmd
deriving DecidableEq, Repr

/-- A store landing apart from its pages. -/
structure StoreSt where
  /-- Transfers in the order of their GO writes. -/
  xfers : List Xfer
  /-- Ports whose PE_PERST_N is low, with the WTIME at which it went low (R703). -/
  perst : List (Nat × Nat)
  /-- NVMe controllers by port. -/
  nvme : List (Nat × Nvme)
deriving DecidableEq, Repr

/-! ### Crossings (R306 to R350) -/

/-- A berth's slot as latched at an opening (R323). -/
structure Latched where
  berth : Nat
  base : Nat
  count : Nat
  replay : Bool
  capture : Bool
  budget : Nat
  holder : Nat
  snapBase : Nat
  snapPages : Nat
  holdBase : Nat
  replayNo : Nat
  sink : Nat
deriving DecidableEq, Repr

/-- A berth during a crossing and its boundary (R327 to R345). -/
structure BerthRun where
  slot : Latched
  /-- It takes part in the crossing: it is not suspended (R344). -/
  runs : Bool
  /-- R339 holds of it: it is damaged, or would be so but is a replay berth (R350). -/
  damaged : Bool
  faulted : Bool
  overrun : Bool
  stalled : Bool
  /-- A tile of the berth is lost (R341). -/
  tileLost : Bool
  holderLost : Bool
  /-- Suspended at the next slack water, its ending unchanged (R466; for a tile that leaves use, log 23). -/
  suspendAsked : Bool
  /-- Suspended at this boundary by damage or loss: its ending is SUSPENDED (R329). -/
  endSuspended : Bool
  recrossings : Nat
deriving DecidableEq, Repr

/-- A message in a post bay's collecting half (R332, R333). -/
structure Post where
  sender : Nat
  seq : Nat
  /-- Its length in bytes; 0 marks a post that was dropped as it arrived (R344, R350). -/
  total : Nat
  payload : List Byte
deriving DecidableEq, Repr

/-- A snapshot copy of one tile (R337): its source region, its place at the holder, the lines still to copy. -/
structure SnapCopy where
  tile : Nat
  holder : Nat
  src : Nat
  dst : Nat
  next : Nat
  lines : Nat
deriving DecidableEq, Repr

/-- The crossing sequencer apart from the CSEQ page. -/
structure XingSt where
  /-- A START or STEP waits for its opening (R307). -/
  openReq : Bool
  /-- A crossing has opened in this wake (R100, R175). -/
  everOpened : Bool
  /-- Length latched at the opening (R310). -/
  len : Nat
  closeAt : Nat
  /-- CUR_NO_HI as latched by the last read of CUR_NO_LO (R312). -/
  curNoHi : BitVec 16
  /-- WTIME of the running re-crossing's opening (R342). -/
  recrossAt : Nat
  berths : List BerthRun
  /-- Berths that take part in the running re-crossing. -/
  recrossSet : List Nat
  /-- Berths whose snapshots are being restored, and those among them to re-cross afterwards (R330, R342). -/
  restoring : List Nat
  toRecross : List Nat
  recrossings : Nat
  /-- A drain stage beyond the last reported is known reached: stage 4's first empty edge has passed (R318). -/
  released : Bool
  /-- Berths suspended (R344), and resumes that wait for an opening. -/
  suspended : List Nat
  resumeReq : List Nat
  suspendReq : List Nat
  /-- Berths that have lost their holder (R341). -/
  holderLost : List Nat
  /-- Keeper tiles damaged, and tiles stopped by a limit of stage 1, in this crossing; tile keys (R321, R339). -/
  keeperDamaged : List Nat
  limitStopped : List Nat
  /-- Keeper tiles that the previous crossing damaged, and tiles that it stopped (R316). -/
  priorDamaged : List Nat
  priorStalled : List Nat
  /-- Snapshot copies in progress (R337). -/
  copies : List SnapCopy
  /-- Collecting halves of the post bays, by tile key (R332). -/
  collect : List (Nat × List Post)
  /-- Reads of a collecting half that rigs have made: the model's own count, for the free value of each (log 40). -/
  hiddenReads : Nat
  /-- Next post sequence number of each tile in this run, by tile key (R331). -/
  postSeq : List (Nat × Nat)
  /-- Escalations raised and not yet at the roster (R35), oldest first. -/
  escs : List Escalation
deriving DecidableEq, Repr

/-! ### The whole state -/

/-- The Mast's main domain and everything beyond it: lost in mooring (R137). -/
structure MainSt where
  /-- WTIME (R133). -/
  wtime : Nat
  /-- WTIME of each field's self-test start, by field (R149, R165). -/
  bistStart : List (Nat × Nat)
  /-- Ports of ready landings whose 3 s window has passed (R163), by 4k + p. -/
  portWindow : List Nat
  /-- Landings whose self-test has ended since their rails came on (R159). -/
  landingTested : List Nat
  /-- FIELDS_DONE has risen in this wake (R218). -/
  fieldsDoneSeen : Bool
  /-- Field states held at TRIPPED with the rail still on (R128). -/
  tripHeld : List Nat
  /-- Fields whose droop hold is in force, with the WTIME of its end (R115). -/
  droopUntil : List (Nat × Nat)
  /-- Retirements that take effect at the next slack water (R49). -/
  retire : List Retire
  /-- Retirements that hold for the rest of the wake without a record, because the map is full (R197). -/
  unrecorded : List MapRec
  hoist : HoistSt
  x : XingSt
  /-- Rigs by tile key 512 f + t. -/
  rigs : List (Nat × Rig)
  /-- DMEM bytes at 262,144 × tile key + address (R448). -/
  dmem : List Host.Cell
  /-- IMEM bundles at 4,096 × tile key + bundle address (R446). -/
  imem : List (Nat × BitVec 128)
  /-- Errors in DMEM words, at the word's first byte: 1 correctable, 2 uncorrectable (R460). -/
  dmemErr : List (Nat × Nat)
  /-- Errors in IMEM bundles: 1 correctable, 2 uncorrectable (R468). -/
  imemErr : List (Nat × Nat)
  /-- An injection waiting in a tile: bank, and whether it is uncorrectable (R467). -/
  inject : List (Nat × (Nat × Bool))
  /-- Ferry engines by tile key. -/
  fry : List (Nat × Ferry)
  /-- The next line of each bank's patrol scrubber, by 8 × tile key + bank (R464). -/
  patrol : List (Nat × Nat)
  /-- Packets in the mesh or in a receive buffer, oldest first. -/
  net : List Pkt
  /-- Channel ends by 128 × host + end. -/
  haws : List (Nat × HawEnd)
  nets : List (Nat × NetSt)
  stores : List (Nat × StoreSt)
  /-- Credits of the running window, by (5 × tile key + master) × 16 + target (R581). -/
  credits : List (Nat × Nat)
  /-- 1 + the master last granted, by 16 × tile key + target; 0 before the first grant (R566). -/
  granted : List (Nat × Nat)
  /-- Grants that each master has had, by 5 × tile key + master: the model's own count, for WAIT_M (R589, log 9). -/
  waits : List (Nat × Nat)
  /-- Writes of IFS and IFL that wait for T8, oldest first, by tile key (R558, R563). -/
  ifWaits : List (Nat × List IfWait)
  /-- Reports in the FIFO of a field's FCTL page, oldest first (R537). -/
  reports : List (Nat × List (BitVec 96))
  /-- Tiles, by key, that ESC_RELEASE has named and that the next slack water releases (R535). -/
  releases : List Nat
deriving DecidableEq, Repr

/-- The state of the block. -/
structure State where
  /-- Live register words that differ from their reset values, by management address (R9, R222). -/
  live : List (Nat × Word)
  /-- Shadow words of RW-S fields that differ from their reset values (R9, R236). -/
  shadow : List (Nat × Word)
  power : PowerSt
  port : PortSt
  tap : TapSt
  pins : PinSt
  log : LogSt
  map : MapSt
  m : MainSt
  /-- Commands that wait, first in, first out. -/
  pending : List Instr
deriving DecidableEq, Repr

/-! ### Reset (R15, R143): the standby domain has just become ready after VSTBY was applied; the wafer is moored -/

/-- The rig after its tile's reset (R154, R540); every register and socket the spec gives no value holds 0. -/
def Rig.reset : Rig :=
  ⟨.fresh, false, 0, 0, 0, none, [], [], false, false, false, 0, 0, 0, none, [], false, false, none, [], [], false, none, [], [], [],
   [], [], ⟨false, false, 0, false, false, 0, 0, 0, 0, 0, 0, false, 0, 0, 0, false, []⟩, [], [], [], 0, 0, 0, 0, [],
   [], none⟩

def HVc.reset : HVc := ⟨[], [], none, none, 0, none, 0, none, false⟩

def HawEnd.reset : HawEnd := ⟨.reset, .reset, [], [], 1, 0, 0, none, 0, 0, 0, 0, 0, 0⟩

def Ferry.reset : Ferry := ⟨[], none, none, false⟩

def NetSt.reset : NetSt := ⟨[], [], none, [], [], [], [], [], [], none, false, []⟩

def Nvme.reset : Nvme := ⟨0, [], []⟩

def StoreSt.reset : StoreSt := ⟨[], [], []⟩

def HoistSt.reset : HoistSt := ⟨[], false, 0, false, 0, [], [], none⟩

def XingSt.reset : XingSt :=
  ⟨false, false, 0, 0, 0, 0, [], [], [], [], 0, false, [], [], [], [], [], [], [], [], [], [], 0, [], []⟩

/-- The main domain at the start of a wake: every register page outside the standby domain at its reset values. -/
def MainSt.reset : MainSt :=
  { wtime := 0, bistStart := [], portWindow := [], landingTested := [], fieldsDoneSeen := false, tripHeld := [], droopUntil := []
    retire := [], unrecorded := [], hoist := HoistSt.reset, x := XingSt.reset, rigs := [], dmem := [], imem := [], dmemErr := [], imemErr := []
    inject := [], fry := [], patrol := [], net := [], haws := [], nets := [], stores := [], credits := [], granted := []
    waits := [], ifWaits := []
    reports := [], releases := [] }

def PowerSt.reset : PowerSt :=
  { standby := true, phase := .none, operation := [], voutMode := [], vout := [], sent := [], railStep := none, railQueue := []
    badRails := [], silentRails := [], probeAt := none, probeAcked := false, pmbWaits := [], heldWakes := []
    moorPending := none, mooring := none, resetDue := none, leaving := [], rtc := 0, alarmDue := false
    rtcHiLatch := 0, rtcLoWritten := 0 }

def PortSt.reset : PortSt := ⟨none, 0, 0, 0, 0, 0, 0, []⟩

def TapSt.reset : TapSt := ⟨.idcode, false, 0, []⟩

def PinSt.reset : PinSt := ⟨true, true, false, false⟩

def LogSt.reset : LogSt := ⟨[], [], none, 0, 0⟩

/-- The area of a copy as shipped: a valid header with WAFER_ID 0, GRADE 56, BASE_GEN 0 and AREA_SEQ 1, and no record (R190, R191,
log 8); its HCHECK is the CRC-32C of its bytes 0x00 to 0x1B. -/
def MapArea.shipped : MapArea := ⟨0x50414D44, 1, 56, 0, 0, 1, 0, 0x396E5C3F, []⟩

/-- An erased area: every byte reads 0xFF (R192). -/
def MapArea.erased : MapArea :=
  ⟨0xFFFFFFFF, 0xFFFF, 0xFFFF, 0xFFFFFFFFFFFFFFFF, 0xFFFFFFFF, 0xFFFFFFFF, 0xFFFFFFFF, 0xFFFFFFFF, []⟩

def MapSt.reset : MapSt :=
  { a0 := .shipped, a1 := .erased, b0 := .shipped, b1 := .erased, bQueue := [], bWhole := none, flashOp := none
    flashStopped := false, following := false, syncDue := false, sent := [], waferId := 0 }

/-- The machine right after reset. -/
def State.reset : State :=
  ⟨[], [], .reset, .reset, .reset, .reset, .reset, .reset, .reset, []⟩

end Sys2Proof.Machine
end

