-- ==== Sys2Proof/Machine/Regs.lean ====
section
/-! DEFINITION. The register fields of every register page, written from the spec's register tables: offset in
the page, lowest bit, width, attribute (R9), reset value, and for a family of equal registers the distance between two
of them and how many there are.  A family's member i is reached with Fld.at. -/
namespace Sys2Proof.Machine


/-! the common page header, R227 -/

def HDR.PAGE_ID_REVISION : Fld := ⟨0x000, 0, 8, .ro, 1, 4, 1⟩
def HDR.PAGE_ID_INSTANCE : Fld := ⟨0x000, 8, 16, .ro, 0, 4, 1⟩
def HDR.PAGE_ID_BLOCK_TYPE : Fld := ⟨0x000, 24, 8, .ro, 0, 4, 1⟩
def HDR.PAGE_STATUS_READY : Fld := ⟨0x004, 0, 1, .ro, 0, 4, 1⟩
def HDR.PAGE_STATUS_HALTED : Fld := ⟨0x004, 1, 1, .ro, 0, 4, 1⟩
def HDR.PAGE_STATUS_FENCED : Fld := ⟨0x004, 2, 1, .ro, 0, 4, 1⟩
def HDR.PAGE_STATUS_STAGED_PENDING : Fld := ⟨0x004, 3, 1, .ro, 0, 4, 1⟩
def HDR.PAGE_STATUS_ERROR_PRESENT : Fld := ⟨0x004, 4, 1, .ro, 0, 4, 1⟩
def HDR.PAGE_STATUS_DEGRADED : Fld := ⟨0x004, 5, 1, .ro, 0, 4, 1⟩
def HDR.PAGE_CONTROL_HALT_REQ : Fld := ⟨0x008, 0, 1, .rwL, 0, 4, 1⟩
def HDR.PAGE_CONTROL_ALERT_EN : Fld := ⟨0x008, 1, 1, .rwL, 0, 4, 1⟩
def HDR.PAGE_ERROR_WHILE_RUNNING : Fld := ⟨0x00C, 0, 1, .w1c, 0, 4, 1⟩
def HDR.PAGE_ERROR_CHECK_FAIL : Fld := ⟨0x00C, 1, 1, .w1c, 0, 4, 1⟩
def HDR.PAGE_ERROR_STAGE_LOCKED : Fld := ⟨0x00C, 2, 1, .w1c, 0, 4, 1⟩
def HDR.PAGE_ERROR_BLOCK : Fld := ⟨0x00C, 16, 16, .w1c, 0, 4, 1⟩
def HDR.PAGE_ERROR_MASK_MASK : Fld := ⟨0x010, 0, 32, .rwL, 0, 4, 1⟩
def HDR.STAGE_CONTROL_DISCARD : Fld := ⟨0x014, 0, 1, .wo, 0, 4, 1⟩
def HDR.STAGE_CONTROL_READ_STAGED : Fld := ⟨0x014, 1, 1, .rwL, 0, 4, 1⟩
def HDR.STAGE_STATUS_DIRTY : Fld := ⟨0x018, 0, 1, .ro, 0, 4, 1⟩
def HDR.STAGE_STATUS_LOCKED : Fld := ⟨0x018, 1, 1, .ro, 0, 4, 1⟩
def HDR.STAGE_STATUS_VERDICT : Fld := ⟨0x018, 4, 2, .ro, 0, 4, 1⟩
def HDR.STAGE_STATUS_FIRST_RULE : Fld := ⟨0x018, 8, 8, .ro, 0, 4, 1⟩
def HDR.PAGE_GENERATION_GEN : Fld := ⟨0x01C, 0, 32, .ro, 0, 4, 1⟩

/-- Part 0 of the fields of the the common page header, R227. -/
def hdrFields0 : List Fld :=
  [HDR.PAGE_ID_REVISION, HDR.PAGE_ID_INSTANCE, HDR.PAGE_ID_BLOCK_TYPE, HDR.PAGE_STATUS_READY,
   HDR.PAGE_STATUS_HALTED, HDR.PAGE_STATUS_FENCED, HDR.PAGE_STATUS_STAGED_PENDING, HDR.PAGE_STATUS_ERROR_PRESENT,
   HDR.PAGE_STATUS_DEGRADED, HDR.PAGE_CONTROL_HALT_REQ, HDR.PAGE_CONTROL_ALERT_EN, HDR.PAGE_ERROR_WHILE_RUNNING,
   HDR.PAGE_ERROR_CHECK_FAIL, HDR.PAGE_ERROR_STAGE_LOCKED, HDR.PAGE_ERROR_BLOCK, HDR.PAGE_ERROR_MASK_MASK,
   HDR.STAGE_CONTROL_DISCARD, HDR.STAGE_CONTROL_READ_STAGED, HDR.STAGE_STATUS_DIRTY, HDR.STAGE_STATUS_LOCKED,
   HDR.STAGE_STATUS_VERDICT, HDR.STAGE_STATUS_FIRST_RULE, HDR.PAGE_GENERATION_GEN]
/-- Every field of the the common page header, R227. -/
def hdrFields : List Fld := hdrFields0

/-! MAST page, R297 -/

def MAST.PORT_ID_PROTOCOL : Fld := ⟨0x040, 0, 8, .ro, 1, 4, 1⟩
def MAST.PORT_ID_FW_MINOR : Fld := ⟨0x040, 8, 8, .ro, 0, 4, 1⟩
def MAST.PORT_ID_FW_MAJOR : Fld := ⟨0x040, 16, 8, .ro, 0, 4, 1⟩
def MAST.CNT_ABORT_COUNT : Fld := ⟨0x044, 0, 16, .ro, 0, 4, 1⟩
def MAST.CNT_LENGTH_COUNT : Fld := ⟨0x048, 0, 16, .ro, 0, 4, 1⟩
def MAST.CNT_CRC_COUNT : Fld := ⟨0x04C, 0, 16, .ro, 0, 4, 1⟩
def MAST.CNT_UNKNOWN_COUNT : Fld := ⟨0x050, 0, 16, .ro, 0, 4, 1⟩
def MAST.CNT_BUSY_COUNT : Fld := ⟨0x054, 0, 16, .ro, 0, 4, 1⟩
def MAST.CNT_ERRRESP_COUNT : Fld := ⟨0x058, 0, 16, .ro, 0, 4, 1⟩
def MAST.CNT_CLEAR_CLEAR : Fld := ⟨0x05C, 0, 1, .wo, 0, 4, 1⟩
def MAST.ALERT_CAUSE : Fld := ⟨0x060, 0, 7, .w1c, 0, 4, 1⟩
def MAST.ALERT_PAGE_LO_ADDRESS : Fld := ⟨0x064, 0, 32, .ro, 0, 4, 1⟩
def MAST.ALERT_PAGE_HI_ADDRESS : Fld := ⟨0x068, 0, 8, .ro, 0, 4, 1⟩
def MAST.ALERT_PAGE_HI_VALID : Fld := ⟨0x068, 31, 1, .ro, 0, 4, 1⟩
def MAST.ALERT_PIN_DRIVEN : Fld := ⟨0x06C, 0, 1, .ro, 0, 4, 1⟩
def MAST.ALERT_PIN_LEVEL : Fld := ⟨0x06C, 1, 1, .ro, 0, 4, 1⟩
def MAST.ALERT_PIN_HELD_LOW : Fld := ⟨0x06C, 2, 1, .w1c, 0, 4, 1⟩
def MAST.TAP_STATUS_IR : Fld := ⟨0x070, 0, 4, .ro, 2, 4, 1⟩
def MAST.TAP_STATUS_EXTEST_REFUSED : Fld := ⟨0x070, 8, 1, .w1c, 0, 4, 1⟩

/-- Part 0 of the fields of the MAST page, R297. -/
def mastFields0 : List Fld :=
  [MAST.PORT_ID_PROTOCOL, MAST.PORT_ID_FW_MINOR, MAST.PORT_ID_FW_MAJOR, MAST.CNT_ABORT_COUNT,
   MAST.CNT_LENGTH_COUNT, MAST.CNT_CRC_COUNT, MAST.CNT_UNKNOWN_COUNT, MAST.CNT_BUSY_COUNT,
   MAST.CNT_ERRRESP_COUNT, MAST.CNT_CLEAR_CLEAR, MAST.ALERT_CAUSE, MAST.ALERT_PAGE_LO_ADDRESS,
   MAST.ALERT_PAGE_HI_ADDRESS, MAST.ALERT_PAGE_HI_VALID, MAST.ALERT_PIN_DRIVEN, MAST.ALERT_PIN_LEVEL,
   MAST.ALERT_PIN_HELD_LOW, MAST.TAP_STATUS_IR, MAST.TAP_STATUS_EXTEST_REFUSED]
/-- Every field of the MAST page, R297. -/
def mastFields : List Fld := mastFields0

/-! MPWR page, R145 -/

def MPWR.PWR_STATE_STATE : Fld := ⟨0x040, 0, 3, .ro, 0, 4, 1⟩
def MPWR.FIELD_ON_LO_ON : Fld := ⟨0x044, 0, 32, .rwL, 0, 4, 1⟩
def MPWR.FIELD_ON_HI_ON : Fld := ⟨0x048, 0, 24, .rwL, 0, 4, 1⟩
def MPWR.LANDING_ON_ON : Fld := ⟨0x04C, 0, 12, .rwL, 4095, 4, 1⟩
def MPWR.FIELD_RAIL_LO_RAIL : Fld := ⟨0x050, 0, 32, .ro, 0, 4, 1⟩
def MPWR.FIELD_RAIL_HI_RAIL : Fld := ⟨0x054, 0, 24, .ro, 0, 4, 1⟩
def MPWR.FIELD_TRIP_LO_TRIP : Fld := ⟨0x058, 0, 32, .w1c, 0, 4, 1⟩
def MPWR.FIELD_TRIP_HI_TRIP : Fld := ⟨0x05C, 0, 24, .w1c, 0, 4, 1⟩
def MPWR.RAIL_FAULT_LO_FAULT : Fld := ⟨0x060, 0, 32, .w1c, 0, 4, 1⟩
def MPWR.RAIL_FAULT_HI_FAULT : Fld := ⟨0x064, 0, 24, .w1c, 0, 4, 1⟩
def MPWR.LANDING_STATUS_LANDING_RAIL : Fld := ⟨0x068, 0, 12, .ro, 0, 4, 1⟩
def MPWR.LANDING_STATUS_LANDING_FAULT : Fld := ⟨0x068, 12, 12, .w1c, 0, 4, 1⟩
def MPWR.SIDEBAND_SIDEBAND_ABSENT : Fld := ⟨0x06C, 0, 1, .ro, 0, 4, 1⟩
def MPWR.SIDEBAND_SDA_STUCK : Fld := ⟨0x06C, 1, 1, .ro, 0, 4, 1⟩
def MPWR.SIDEBAND_PLL_NO_LOCK : Fld := ⟨0x06C, 2, 1, .ro, 0, 4, 1⟩
def MPWR.SIDEBAND_MAIN_RAIL_FAULT : Fld := ⟨0x06C, 3, 1, .ro, 0, 4, 1⟩
def MPWR.SIDEBAND_SIDEBAND_RETRY : Fld := ⟨0x06C, 8, 1, .wo, 0, 4, 1⟩
def MPWR.RTC_SECONDS_LO_SECONDS : Fld := ⟨0x070, 0, 32, .rwL, 0, 4, 1⟩
def MPWR.RTC_SECONDS_HI_SECONDS : Fld := ⟨0x074, 0, 16, .rwL, 0, 4, 1⟩
def MPWR.RTC_ALARM_LO_ALARM : Fld := ⟨0x078, 0, 32, .rwL, 0, 4, 1⟩
def MPWR.RTC_ALARM_HI_ALARM : Fld := ⟨0x07C, 0, 16, .rwL, 0, 4, 1⟩
def MPWR.RTC_ALARM_HI_ALARM_EN : Fld := ⟨0x07C, 31, 1, .rwL, 0, 4, 1⟩
def MPWR.WAKE_CAUSE_WAKE_PIN : Fld := ⟨0x080, 0, 1, .w1c, 0, 4, 1⟩
def MPWR.WAKE_CAUSE_RTC : Fld := ⟨0x080, 1, 1, .w1c, 0, 4, 1⟩
def MPWR.WAKE_CAUSE_SPI : Fld := ⟨0x080, 2, 1, .w1c, 0, 4, 1⟩
def MPWR.MOOR_REQ_MOOR : Fld := ⟨0x084, 0, 1, .wo, 0, 4, 1⟩
def MPWR.WCLK_FREQ_KHZ_FREQ : Fld := ⟨0x088, 0, 32, .ro, 1200000, 4, 1⟩
def MPWR.PLL_STATUS_LOCKED : Fld := ⟨0x08C, 0, 1, .ro, 0, 4, 1⟩
def MPWR.PLL_STATUS_DISTRIBUTING : Fld := ⟨0x08C, 1, 1, .ro, 0, 4, 1⟩
def MPWR.VSET_CODE : Fld := ⟨0x100, 0, 6, .ro, 0, 4, 56⟩

/-- Part 0 of the fields of the MPWR page, R145. -/
def mpwrFields0 : List Fld :=
  [MPWR.PWR_STATE_STATE, MPWR.FIELD_ON_LO_ON, MPWR.FIELD_ON_HI_ON, MPWR.LANDING_ON_ON,
   MPWR.FIELD_RAIL_LO_RAIL, MPWR.FIELD_RAIL_HI_RAIL, MPWR.FIELD_TRIP_LO_TRIP, MPWR.FIELD_TRIP_HI_TRIP,
   MPWR.RAIL_FAULT_LO_FAULT, MPWR.RAIL_FAULT_HI_FAULT, MPWR.LANDING_STATUS_LANDING_RAIL, MPWR.LANDING_STATUS_LANDING_FAULT,
   MPWR.SIDEBAND_SIDEBAND_ABSENT, MPWR.SIDEBAND_SDA_STUCK, MPWR.SIDEBAND_PLL_NO_LOCK, MPWR.SIDEBAND_MAIN_RAIL_FAULT,
   MPWR.SIDEBAND_SIDEBAND_RETRY, MPWR.RTC_SECONDS_LO_SECONDS, MPWR.RTC_SECONDS_HI_SECONDS, MPWR.RTC_ALARM_LO_ALARM,
   MPWR.RTC_ALARM_HI_ALARM, MPWR.RTC_ALARM_HI_ALARM_EN, MPWR.WAKE_CAUSE_WAKE_PIN, MPWR.WAKE_CAUSE_RTC]
/-- Part 1 of the fields of the MPWR page, R145. -/
def mpwrFields1 : List Fld :=
  [MPWR.WAKE_CAUSE_SPI, MPWR.MOOR_REQ_MOOR, MPWR.WCLK_FREQ_KHZ_FREQ, MPWR.PLL_STATUS_LOCKED,
   MPWR.PLL_STATUS_DISTRIBUTING, MPWR.VSET_CODE]
/-- Every field of the MPWR page, R145. -/
def mpwrFields : List Fld := mpwrFields0 ++ mpwrFields1

/-! DMAP page, R220 -/

def DMAP.MAP_GEN_GEN : Fld := ⟨0x040, 0, 32, .ro, 0, 4, 1⟩
def DMAP.MAP_COUNT_RECORDS : Fld := ⟨0x044, 0, 13, .ro, 0, 4, 1⟩
def DMAP.MAP_COUNT_TORN : Fld := ⟨0x044, 16, 16, .ro, 0, 4, 1⟩
def DMAP.MAP_STATUS_FLASH_ABSENT : Fld := ⟨0x048, 0, 1, .ro, 0, 4, 1⟩
def DMAP.MAP_STATUS_FLASH_FOREIGN : Fld := ⟨0x048, 1, 1, .ro, 0, 4, 1⟩
def DMAP.MAP_STATUS_FLASH_FAULT : Fld := ⟨0x048, 2, 1, .ro, 0, 4, 1⟩
def DMAP.MAP_STATUS_MAP_LOST : Fld := ⟨0x048, 3, 1, .ro, 0, 4, 1⟩
def DMAP.MAP_STATUS_MAP_FULL : Fld := ⟨0x048, 4, 1, .ro, 0, 4, 1⟩
def DMAP.MAP_STATUS_B_BEHIND : Fld := ⟨0x048, 5, 1, .ro, 0, 4, 1⟩
def DMAP.MAP_STATUS_RECONCILE : Fld := ⟨0x048, 8, 2, .ro, 0, 4, 1⟩
def DMAP.GRADE_GRADE : Fld := ⟨0x04C, 0, 8, .ro, 0, 4, 1⟩
def DMAP.WAFER_ID_LO_ID : Fld := ⟨0x050, 0, 32, .ro, 0, 4, 1⟩
def DMAP.WAFER_ID_HI_ID : Fld := ⟨0x054, 0, 32, .ro, 0, 4, 1⟩
def DMAP.OPERATOR_FLOOR_FLOOR : Fld := ⟨0x058, 0, 16, .rwL, 0, 4, 1⟩
def DMAP.SERVICE_EOS_NOW : Fld := ⟨0x05C, 0, 1, .ro, 0, 4, 1⟩
def DMAP.SERVICE_EOS_SEEN : Fld := ⟨0x05C, 1, 1, .w1c, 0, 4, 1⟩
def DMAP.SERVICE_MAP_SYNC : Fld := ⟨0x05C, 8, 1, .wo, 0, 4, 1⟩
def DMAP.RETIRE_DESC_DESC : Fld := ⟨0x060, 0, 32, .rwL, 0, 4, 1⟩
def DMAP.RETIRE_REMARK_REMARK : Fld := ⟨0x064, 0, 8, .rwL, 0, 4, 1⟩
def DMAP.RETIRE_CMD_GO : Fld := ⟨0x068, 0, 1, .wo, 0, 4, 1⟩
def DMAP.RETIRE_STATUS_BUSY : Fld := ⟨0x06C, 0, 1, .ro, 0, 4, 1⟩
def DMAP.RETIRE_STATUS_RESULT : Fld := ⟨0x06C, 1, 2, .ro, 0, 4, 1⟩
def DMAP.READ_INDEX_INDEX : Fld := ⟨0x070, 0, 12, .rwL, 0, 4, 1⟩
def DMAP.READ_WORD0_WORD : Fld := ⟨0x074, 0, 32, .ro, 0, 4, 1⟩
def DMAP.READ_WORD1_WORD : Fld := ⟨0x078, 0, 32, .ro, 0, 4, 1⟩
def DMAP.READ_WORD2_WORD : Fld := ⟨0x07C, 0, 32, .ro, 0, 4, 1⟩
def DMAP.READ_WORD3_WORD : Fld := ⟨0x080, 0, 32, .ro, 0, 4, 1⟩

/-- Part 0 of the fields of the DMAP page, R220. -/
def dmapFields0 : List Fld :=
  [DMAP.MAP_GEN_GEN, DMAP.MAP_COUNT_RECORDS, DMAP.MAP_COUNT_TORN, DMAP.MAP_STATUS_FLASH_ABSENT,
   DMAP.MAP_STATUS_FLASH_FOREIGN, DMAP.MAP_STATUS_FLASH_FAULT, DMAP.MAP_STATUS_MAP_LOST, DMAP.MAP_STATUS_MAP_FULL,
   DMAP.MAP_STATUS_B_BEHIND, DMAP.MAP_STATUS_RECONCILE, DMAP.GRADE_GRADE, DMAP.WAFER_ID_LO_ID,
   DMAP.WAFER_ID_HI_ID, DMAP.OPERATOR_FLOOR_FLOOR, DMAP.SERVICE_EOS_NOW, DMAP.SERVICE_EOS_SEEN,
   DMAP.SERVICE_MAP_SYNC, DMAP.RETIRE_DESC_DESC, DMAP.RETIRE_REMARK_REMARK, DMAP.RETIRE_CMD_GO,
   DMAP.RETIRE_STATUS_BUSY, DMAP.RETIRE_STATUS_RESULT, DMAP.READ_INDEX_INDEX, DMAP.READ_WORD0_WORD]
/-- Part 1 of the fields of the DMAP page, R220. -/
def dmapFields1 : List Fld :=
  [DMAP.READ_WORD1_WORD, DMAP.READ_WORD2_WORD, DMAP.READ_WORD3_WORD]
/-- Every field of the DMAP page, R220. -/
def dmapFields : List Fld := dmapFields0 ++ dmapFields1

/-! LOGB page, R758 -/

def LOGB.NEXT_SEQ_SEQ : Fld := ⟨0x040, 0, 32, .ro, 0, 4, 1⟩
def LOGB.OLDEST_SEQ_SEQ : Fld := ⟨0x044, 0, 32, .ro, 0, 4, 1⟩
def LOGB.ACK_SEQ_SEQ : Fld := ⟨0x048, 0, 32, .rwL, 0, 4, 1⟩
def LOGB.UNSAVED_COUNT : Fld := ⟨0x04C, 0, 32, .ro, 0, 4, 1⟩
def LOGB.ALERT_LEVEL_LEVEL : Fld := ⟨0x050, 0, 14, .rwL, 7168, 4, 1⟩
def LOGB.COUNTS_OVERWRITTEN : Fld := ⟨0x054, 0, 16, .ro, 0, 4, 1⟩
def LOGB.COUNTS_QUEUE_DROP : Fld := ⟨0x054, 16, 16, .ro, 0, 4, 1⟩
def LOGB.REPEAT_COUNT : Fld := ⟨0x058, 0, 32, .ro, 0, 4, 1⟩
def LOGB.TORN_COUNT : Fld := ⟨0x05C, 0, 16, .ro, 0, 4, 1⟩
def LOGB.READ_SEQ_SEQ : Fld := ⟨0x060, 0, 32, .rwL, 0, 4, 1⟩
def LOGB.READ_STATUS_STATE : Fld := ⟨0x064, 0, 2, .ro, 0, 4, 1⟩
def LOGB.READ_WORD_WORD : Fld := ⟨0x068, 0, 32, .ro, 0, 4, 8⟩
def LOGB.SERVICE_MARK_REFERENCE : Fld := ⟨0x088, 0, 32, .rwL, 0, 4, 1⟩
def LOGB.SERVICE_REASON_REASON : Fld := ⟨0x08C, 0, 8, .rwL, 0, 4, 1⟩
def LOGB.SERVICE_REASON_MARKED : Fld := ⟨0x08C, 31, 1, .ro, 0, 4, 1⟩

/-- Part 0 of the fields of the LOGB page, R758. -/
def logbFields0 : List Fld :=
  [LOGB.NEXT_SEQ_SEQ, LOGB.OLDEST_SEQ_SEQ, LOGB.ACK_SEQ_SEQ, LOGB.UNSAVED_COUNT,
   LOGB.ALERT_LEVEL_LEVEL, LOGB.COUNTS_OVERWRITTEN, LOGB.COUNTS_QUEUE_DROP, LOGB.REPEAT_COUNT,
   LOGB.TORN_COUNT, LOGB.READ_SEQ_SEQ, LOGB.READ_STATUS_STATE, LOGB.READ_WORD_WORD,
   LOGB.SERVICE_MARK_REFERENCE, LOGB.SERVICE_REASON_REASON, LOGB.SERVICE_REASON_MARKED]
/-- Every field of the LOGB page, R758. -/
def logbFields : List Fld := logbFields0

/-! ROSTER page, R162 -/

def ROSTER.ROSTER_GEN_GEN : Fld := ⟨0x040, 0, 32, .ro, 0, 4, 1⟩
def ROSTER.BRINGUP_FIELDS_DONE : Fld := ⟨0x044, 0, 1, .ro, 0, 4, 1⟩
def ROSTER.BRINGUP_CHANNELS_DONE : Fld := ⟨0x044, 1, 1, .ro, 0, 4, 1⟩
def ROSTER.BRINGUP_LANDINGS_DONE : Fld := ⟨0x044, 2, 1, .ro, 0, 4, 1⟩
def ROSTER.BRINGUP_ALL_DONE : Fld := ⟨0x044, 3, 1, .ro, 0, 4, 1⟩
def ROSTER.FIELD_READY_LO_READY : Fld := ⟨0x048, 0, 32, .ro, 0, 4, 1⟩
def ROSTER.FIELD_READY_HI_READY : Fld := ⟨0x04C, 0, 24, .ro, 0, 4, 1⟩
def ROSTER.TILE_COUNT_READY : Fld := ⟨0x050, 0, 16, .ro, 0, 4, 1⟩
def ROSTER.TILE_COUNT_DEGRADED : Fld := ⟨0x050, 16, 16, .ro, 0, 4, 1⟩
def ROSTER.LANDING_READY_READY : Fld := ⟨0x054, 0, 12, .ro, 0, 4, 1⟩
def ROSTER.LANDING_READY_FAILED : Fld := ⟨0x054, 16, 12, .ro, 0, 4, 1⟩
def ROSTER.NET_PORT_UP_UP : Fld := ⟨0x058, 0, 16, .ro, 0, 4, 1⟩
def ROSTER.STORE_PORT_UP_UP : Fld := ⟨0x05C, 0, 16, .ro, 0, 4, 1⟩
def ROSTER.CHANNEL_COUNT_READY : Fld := ⟨0x060, 0, 16, .ro, 0, 4, 1⟩
def ROSTER.CHANNEL_COUNT_FENCED : Fld := ⟨0x060, 16, 16, .ro, 0, 4, 1⟩

/-- Part 0 of the fields of the ROSTER page, R162. -/
def rosterFields0 : List Fld :=
  [ROSTER.ROSTER_GEN_GEN, ROSTER.BRINGUP_FIELDS_DONE, ROSTER.BRINGUP_CHANNELS_DONE, ROSTER.BRINGUP_LANDINGS_DONE,
   ROSTER.BRINGUP_ALL_DONE, ROSTER.FIELD_READY_LO_READY, ROSTER.FIELD_READY_HI_READY, ROSTER.TILE_COUNT_READY,
   ROSTER.TILE_COUNT_DEGRADED, ROSTER.LANDING_READY_READY, ROSTER.LANDING_READY_FAILED, ROSTER.NET_PORT_UP_UP,
   ROSTER.STORE_PORT_UP_UP, ROSTER.CHANNEL_COUNT_READY, ROSTER.CHANNEL_COUNT_FENCED]
/-- Every field of the ROSTER page, R162. -/
def rosterFields : List Fld := rosterFields0

/-! ROSTF[f] page, R165 -/

def ROSTF.FIELD_STATE_STATE : Fld := ⟨0x040, 0, 4, .ro, 0, 4, 1⟩
def ROSTF.BIST_RESULT_PASSED : Fld := ⟨0x044, 0, 9, .ro, 0, 4, 1⟩
def ROSTF.BIST_RESULT_FAILED : Fld := ⟨0x044, 16, 9, .ro, 0, 4, 1⟩
def ROSTF.BIST_CYCLES_CYCLES : Fld := ⟨0x048, 0, 32, .ro, 0, 4, 1⟩
def ROSTF.LOGICAL_COUNT : Fld := ⟨0x04C, 0, 9, .ro, 0, 4, 1⟩
def ROSTF.SEAM_E_READY_READY : Fld := ⟨0x050, 0, 18, .ro, 0, 4, 1⟩
def ROSTF.SEAM_E_FENCED_FENCED : Fld := ⟨0x054, 0, 18, .ro, 0, 4, 1⟩
def ROSTF.SEAM_S_READY_READY : Fld := ⟨0x058, 0, 26, .ro, 0, 4, 1⟩
def ROSTF.SEAM_S_FENCED_FENCED : Fld := ⟨0x05C, 0, 26, .ro, 0, 4, 1⟩
def ROSTF.STAY_READY : Fld := ⟨0x060, 0, 4, .ro, 0, 4, 1⟩
def ROSTF.STAY_FENCED : Fld := ⟨0x060, 4, 4, .ro, 0, 4, 1⟩
def ROSTF.TILE_STATE : Fld := ⟨0x100, 0, 32, .ro, 0, 4, 59⟩

/-- Part 0 of the fields of the ROSTF[f] page, R165. -/
def rostfFields0 : List Fld :=
  [ROSTF.FIELD_STATE_STATE, ROSTF.BIST_RESULT_PASSED, ROSTF.BIST_RESULT_FAILED, ROSTF.BIST_CYCLES_CYCLES,
   ROSTF.LOGICAL_COUNT, ROSTF.SEAM_E_READY_READY, ROSTF.SEAM_E_FENCED_FENCED, ROSTF.SEAM_S_READY_READY,
   ROSTF.SEAM_S_FENCED_FENCED, ROSTF.STAY_READY, ROSTF.STAY_FENCED, ROSTF.TILE_STATE]
/-- Every field of the ROSTF[f] page, R165. -/
def rostfFields : List Fld := rostfFields0

/-! CSEQ page, R312 -/

def CSEQ.CSEQ_CMD_CMD : Fld := ⟨0x040, 0, 2, .wo, 0, 4, 1⟩
def CSEQ.CSEQ_STATUS_STATE : Fld := ⟨0x044, 0, 3, .ro, 0, 4, 1⟩
def CSEQ.CSEQ_STATUS_STAGE : Fld := ⟨0x044, 4, 3, .ro, 0, 4, 1⟩
def CSEQ.CSEQ_STATUS_STOP_PENDING : Fld := ⟨0x044, 8, 1, .ro, 0, 4, 1⟩
def CSEQ.CSEQ_STATUS_STARTED : Fld := ⟨0x044, 9, 1, .ro, 0, 4, 1⟩
def CSEQ.CROSS_LEN_LO_LEN : Fld := ⟨0x048, 0, 32, .rwS, 600000000, 4, 1⟩
def CSEQ.CROSS_LEN_HI_LEN : Fld := ⟨0x04C, 0, 5, .rwS, 0, 4, 1⟩
def CSEQ.DRAIN_LIMIT_CYCLES : Fld := ⟨0x050, 0, 32, .rwS, 12000000, 4, 1⟩
def CSEQ.RECROSS_LIMIT_LIMIT : Fld := ⟨0x054, 0, 4, .rwS, 3, 4, 1⟩
def CSEQ.FIRST_NO_LO_NO : Fld := ⟨0x058, 0, 32, .rwL, 0, 4, 1⟩
def CSEQ.FIRST_NO_HI_NO : Fld := ⟨0x05C, 0, 16, .rwL, 0, 4, 1⟩
def CSEQ.CUR_NO_LO_NO : Fld := ⟨0x060, 0, 32, .ro, 0, 4, 1⟩
def CSEQ.CUR_NO_HI_NO : Fld := ⟨0x064, 0, 16, .ro, 0, 4, 1⟩
def CSEQ.OPEN_WTIME_LO_WTIME : Fld := ⟨0x068, 0, 32, .ro, 0, 4, 1⟩
def CSEQ.OPEN_WTIME_HI_WTIME : Fld := ⟨0x06C, 0, 32, .ro, 0, 4, 1⟩
def CSEQ.SLACK_WTIME_LO_WTIME : Fld := ⟨0x070, 0, 32, .ro, 0, 4, 1⟩
def CSEQ.SLACK_WTIME_HI_WTIME : Fld := ⟨0x074, 0, 32, .ro, 0, 4, 1⟩
def CSEQ.LAST_DRAIN_CYCLES : Fld := ⟨0x078, 0, 32, .ro, 0, 4, 1⟩
def CSEQ.RECROSSINGS_COUNT : Fld := ⟨0x07C, 0, 4, .ro, 0, 4, 1⟩
def CSEQ.END_COUNT_A_COMPLETED : Fld := ⟨0x080, 0, 16, .ro, 0, 4, 1⟩
def CSEQ.END_COUNT_A_OVERRUN : Fld := ⟨0x080, 16, 16, .ro, 0, 4, 1⟩
def CSEQ.END_COUNT_B_STALLED : Fld := ⟨0x084, 0, 16, .ro, 0, 4, 1⟩
def CSEQ.END_COUNT_B_FAULTED : Fld := ⟨0x084, 16, 16, .ro, 0, 4, 1⟩
def CSEQ.END_COUNT_C_RECROSSED : Fld := ⟨0x088, 0, 16, .ro, 0, 4, 1⟩
def CSEQ.END_COUNT_C_SUSPENDED : Fld := ⟨0x088, 16, 16, .ro, 0, 4, 1⟩
def CSEQ.KEEPER_STATUS_DAMAGED : Fld := ⟨0x08C, 0, 16, .ro, 0, 4, 1⟩
def CSEQ.KEEPER_STATUS_STALLED : Fld := ⟨0x08C, 16, 16, .ro, 0, 4, 1⟩

/-- Part 0 of the fields of the CSEQ page, R312. -/
def cseqFields0 : List Fld :=
  [CSEQ.CSEQ_CMD_CMD, CSEQ.CSEQ_STATUS_STATE, CSEQ.CSEQ_STATUS_STAGE, CSEQ.CSEQ_STATUS_STOP_PENDING,
   CSEQ.CSEQ_STATUS_STARTED, CSEQ.CROSS_LEN_LO_LEN, CSEQ.CROSS_LEN_HI_LEN, CSEQ.DRAIN_LIMIT_CYCLES,
   CSEQ.RECROSS_LIMIT_LIMIT, CSEQ.FIRST_NO_LO_NO, CSEQ.FIRST_NO_HI_NO, CSEQ.CUR_NO_LO_NO,
   CSEQ.CUR_NO_HI_NO, CSEQ.OPEN_WTIME_LO_WTIME, CSEQ.OPEN_WTIME_HI_WTIME, CSEQ.SLACK_WTIME_LO_WTIME,
   CSEQ.SLACK_WTIME_HI_WTIME, CSEQ.LAST_DRAIN_CYCLES, CSEQ.RECROSSINGS_COUNT, CSEQ.END_COUNT_A_COMPLETED,
   CSEQ.END_COUNT_A_OVERRUN, CSEQ.END_COUNT_B_STALLED, CSEQ.END_COUNT_B_FAULTED, CSEQ.END_COUNT_C_RECROSSED]
/-- Part 1 of the fields of the CSEQ page, R312. -/
def cseqFields1 : List Fld :=
  [CSEQ.END_COUNT_C_SUSPENDED, CSEQ.KEEPER_STATUS_DAMAGED, CSEQ.KEEPER_STATUS_STALLED]
/-- Every field of the CSEQ page, R312. -/
def cseqFields : List Fld := cseqFields0 ++ cseqFields1

/-! HOIST page, R252 -/

def HOIST.HOIST_CMD_CMD : Fld := ⟨0x040, 0, 3, .wo, 0, 4, 1⟩
def HOIST.HOIST_WHEN_MODE : Fld := ⟨0x044, 0, 1, .rwL, 1, 4, 1⟩
def HOIST.HOIST_WTIME_LO_WTIME : Fld := ⟨0x048, 0, 32, .rwL, 0, 4, 1⟩
def HOIST.HOIST_WTIME_HI_WTIME : Fld := ⟨0x04C, 0, 32, .rwL, 0, 4, 1⟩
def HOIST.HOIST_STATUS_STATE : Fld := ⟨0x050, 0, 2, .ro, 0, 4, 1⟩
def HOIST.HOIST_STATUS_VERDICT : Fld := ⟨0x050, 4, 3, .ro, 0, 4, 1⟩
def HOIST.HOIST_STATUS_DEFERRED : Fld := ⟨0x050, 8, 1, .w1c, 0, 4, 1⟩
def HOIST.HOIST_STATUS_REFUSED : Fld := ⟨0x050, 9, 1, .w1c, 0, 4, 1⟩
def HOIST.HOIST_STATUS_PAUSED : Fld := ⟨0x050, 10, 1, .ro, 0, 4, 1⟩
def HOIST.SET_PAGES_COUNT : Fld := ⟨0x054, 0, 24, .ro, 0, 4, 1⟩
def HOIST.OFFENCES_COUNT : Fld := ⟨0x058, 0, 24, .ro, 0, 4, 1⟩
def HOIST.CHECK_CYCLES_CYCLES : Fld := ⟨0x05C, 0, 32, .ro, 0, 4, 1⟩
def HOIST.LAST_INSTANT_LO_WTIME : Fld := ⟨0x060, 0, 32, .ro, 0, 4, 1⟩
def HOIST.LAST_INSTANT_HI_WTIME : Fld := ⟨0x064, 0, 32, .ro, 0, 4, 1⟩
def HOIST.HOIST_COUNT_COUNT : Fld := ⟨0x068, 0, 32, .ro, 0, 4, 1⟩
def HOIST.MISSED_COUNT : Fld := ⟨0x06C, 0, 24, .ro, 0, 4, 1⟩
def HOIST.BCAST_COUNT_COUNT : Fld := ⟨0x070, 0, 24, .ro, 0, 4, 1⟩
def HOIST.FIFO_LEVEL_LEVEL : Fld := ⟨0x074, 0, 7, .ro, 0, 4, 1⟩
def HOIST.FIFO_LO_ENTRY : Fld := ⟨0x078, 0, 32, .ro, 0, 4, 1⟩
def HOIST.FIFO_HI_ENTRY : Fld := ⟨0x07C, 0, 32, .ro, 0, 4, 1⟩

/-- Part 0 of the fields of the HOIST page, R252. -/
def hoistFields0 : List Fld :=
  [HOIST.HOIST_CMD_CMD, HOIST.HOIST_WHEN_MODE, HOIST.HOIST_WTIME_LO_WTIME, HOIST.HOIST_WTIME_HI_WTIME,
   HOIST.HOIST_STATUS_STATE, HOIST.HOIST_STATUS_VERDICT, HOIST.HOIST_STATUS_DEFERRED, HOIST.HOIST_STATUS_REFUSED,
   HOIST.HOIST_STATUS_PAUSED, HOIST.SET_PAGES_COUNT, HOIST.OFFENCES_COUNT, HOIST.CHECK_CYCLES_CYCLES,
   HOIST.LAST_INSTANT_LO_WTIME, HOIST.LAST_INSTANT_HI_WTIME, HOIST.HOIST_COUNT_COUNT, HOIST.MISSED_COUNT,
   HOIST.BCAST_COUNT_COUNT, HOIST.FIFO_LEVEL_LEVEL, HOIST.FIFO_LO_ENTRY, HOIST.FIFO_HI_ENTRY]
/-- Every field of the HOIST page, R252. -/
def hoistFields : List Fld := hoistFields0

/-! BERTH page slots, R325 -/

def BERTH.DESC_BASE : Fld := ⟨0x040, 0, 16, .rwS, 0, 64, 48⟩
def BERTH.DESC_COUNT : Fld := ⟨0x040, 16, 5, .rwS, 0, 64, 48⟩
def BERTH.DESC_REPLAY : Fld := ⟨0x040, 24, 1, .rwS, 0, 64, 48⟩
def BERTH.DESC_CAPTURE : Fld := ⟨0x040, 25, 1, .rwS, 0, 64, 48⟩
def BERTH.BUDGET_LO_BUNDLES : Fld := ⟨0x044, 0, 32, .rwS, 0, 64, 48⟩
def BERTH.BUDGET_HI_BUNDLES : Fld := ⟨0x048, 0, 8, .rwS, 0, 64, 48⟩
def BERTH.HOLDER_TILE : Fld := ⟨0x04C, 0, 16, .rwS, 0, 64, 48⟩
def BERTH.SNAP_REGION_BASE : Fld := ⟨0x050, 0, 6, .rwS, 0, 64, 48⟩
def BERTH.SNAP_REGION_PAGES : Fld := ⟨0x050, 8, 6, .rwS, 0, 64, 48⟩
def BERTH.SNAP_REGION_HOLD_BASE : Fld := ⟨0x050, 16, 6, .rwS, 0, 64, 48⟩
def BERTH.REPLAY_NO_LO_NO : Fld := ⟨0x054, 0, 32, .rwS, 0, 64, 48⟩
def BERTH.REPLAY_NO_HI_NO : Fld := ⟨0x058, 0, 16, .rwS, 0, 64, 48⟩
def BERTH.SINK_TILE : Fld := ⟨0x05C, 0, 16, .rwS, 0, 64, 48⟩
def BERTH.OUTCOME_ENDING : Fld := ⟨0x060, 0, 3, .ro, 0, 64, 48⟩
def BERTH.OUTCOME_RECROSSINGS : Fld := ⟨0x060, 4, 4, .ro, 0, 64, 48⟩
def BERTH.OUTCOME_HOLDER_LOST : Fld := ⟨0x060, 8, 1, .ro, 0, 64, 48⟩
def BERTH.OUTCOME_SUSPENDED : Fld := ⟨0x060, 9, 1, .ro, 0, 64, 48⟩
def BERTH.OUTCOME_NO_NO : Fld := ⟨0x064, 0, 32, .ro, 0, 64, 48⟩
def BERTH.PEAK_LO_BUNDLES : Fld := ⟨0x068, 0, 32, .ro, 0, 64, 48⟩
def BERTH.PEAK_HI_BUNDLES : Fld := ⟨0x06C, 0, 8, .ro, 0, 64, 48⟩
def BERTH.CONTROL_RESUME : Fld := ⟨0x070, 0, 1, .wo, 0, 64, 48⟩
def BERTH.CONTROL_SUSPEND : Fld := ⟨0x070, 1, 1, .wo, 0, 64, 48⟩
def BERTH.POST_DROPPED_COUNT : Fld := ⟨0x074, 0, 16, .ro, 0, 64, 48⟩

/-- Part 0 of the fields of the BERTH page slots, R325. -/
def berthFields0 : List Fld :=
  [BERTH.DESC_BASE, BERTH.DESC_COUNT, BERTH.DESC_REPLAY, BERTH.DESC_CAPTURE,
   BERTH.BUDGET_LO_BUNDLES, BERTH.BUDGET_HI_BUNDLES, BERTH.HOLDER_TILE, BERTH.SNAP_REGION_BASE,
   BERTH.SNAP_REGION_PAGES, BERTH.SNAP_REGION_HOLD_BASE, BERTH.REPLAY_NO_LO_NO, BERTH.REPLAY_NO_HI_NO,
   BERTH.SINK_TILE, BERTH.OUTCOME_ENDING, BERTH.OUTCOME_RECROSSINGS, BERTH.OUTCOME_HOLDER_LOST,
   BERTH.OUTCOME_SUSPENDED, BERTH.OUTCOME_NO_NO, BERTH.PEAK_LO_BUNDLES, BERTH.PEAK_HI_BUNDLES,
   BERTH.CONTROL_RESUME, BERTH.CONTROL_SUSPEND, BERTH.POST_DROPPED_COUNT]
/-- Every field of the BERTH page slots, R325. -/
def berthFields : List Fld := berthFields0

/-! NETL page 0, R713 -/

def NETL.NCTL_PAUSE_RX_EN : Fld := ⟨0x040, 0, 1, .rwS, 1, 4, 1⟩
def NETL.NCTL_PAUSE_TX_EN : Fld := ⟨0x040, 1, 1, .rwS, 0, 4, 1⟩
def NETL.NCTL_AN_EN : Fld := ⟨0x040, 2, 1, .rwS, 1, 4, 1⟩
def NETL.NCTL_EGRESS_TIMEOUT : Fld := ⟨0x040, 8, 16, .rwS, 100, 4, 1⟩
def NETL.PMAC0_LO_MAC : Fld := ⟨0x044, 0, 32, .rwS, 0, 4, 1⟩
def NETL.PMAC0_HI_MAC : Fld := ⟨0x048, 0, 16, .rwS, 0, 4, 1⟩
def NETL.PMAC1_LO_MAC : Fld := ⟨0x04C, 0, 32, .rwS, 0, 4, 1⟩
def NETL.PMAC1_HI_MAC : Fld := ⟨0x050, 0, 16, .rwS, 0, 4, 1⟩
def NETL.PSTAT : Fld := ⟨0x054, 0, 16, .ro, 0, 4, 1⟩
def NETL.BUFFERS_HOLD_KIB : Fld := ⟨0x058, 0, 16, .ro, 0, 4, 1⟩
def NETL.BUFFERS_EGRESS_KIB : Fld := ⟨0x058, 16, 16, .ro, 0, 4, 1⟩
def NETL.PCNT0 : Fld := ⟨0x080, 0, 32, .ro, 0, 4, 9⟩
def NETL.PCNT1 : Fld := ⟨0x0C0, 0, 32, .ro, 0, 4, 9⟩
def NETL.LCNT_COUNT : Fld := ⟨0x100, 0, 32, .ro, 0, 4, 6⟩

/-- Part 0 of the fields of the NETL page 0, R713. -/
def netlFields0 : List Fld :=
  [NETL.NCTL_PAUSE_RX_EN, NETL.NCTL_PAUSE_TX_EN, NETL.NCTL_AN_EN, NETL.NCTL_EGRESS_TIMEOUT,
   NETL.PMAC0_LO_MAC, NETL.PMAC0_HI_MAC, NETL.PMAC1_LO_MAC, NETL.PMAC1_HI_MAC,
   NETL.PSTAT, NETL.BUFFERS_HOLD_KIB, NETL.BUFFERS_EGRESS_KIB, NETL.PCNT0,
   NETL.PCNT1, NETL.LCNT_COUNT]
/-- Every field of the NETL page 0, R713. -/
def netlFields : List Fld := netlFields0

/-! NETL bay pages, R688 -/

def NETLB.BAY_LID : Fld := ⟨0x040, 0, 16, .rwS, 0, 4, 1008⟩
def NETLB.BAY_BASE : Fld := ⟨0x040, 16, 6, .rwS, 0, 4, 1008⟩
def NETLB.BAY_PAGES : Fld := ⟨0x040, 24, 5, .rwS, 0, 4, 1008⟩
def NETLB.BAY_VALID : Fld := ⟨0x040, 31, 1, .rwS, 0, 4, 1008⟩

/-- Part 0 of the fields of the NETL bay pages, R688. -/
def netlbFields0 : List Fld :=
  [NETLB.BAY_LID, NETLB.BAY_BASE, NETLB.BAY_PAGES, NETLB.BAY_VALID]
/-- Every field of the NETL bay pages, R688. -/
def netlbFields : List Fld := netlbFields0

/-! NETL flow pages, R685 -/

def NETLF.FLOW_DMAC_LO : Fld := ⟨0x040, 0, 32, .rwS, 0, 32, 126⟩
def NETLF.FLOW_DMAC_HI : Fld := ⟨0x044, 0, 16, .rwS, 0, 32, 126⟩
def NETLF.FLOW_VID : Fld := ⟨0x044, 16, 12, .rwS, 0, 32, 126⟩
def NETLF.FLOW_PORT : Fld := ⟨0x044, 30, 1, .rwS, 0, 32, 126⟩
def NETLF.FLOW_VALID : Fld := ⟨0x044, 31, 1, .rwS, 0, 32, 126⟩
def NETLF.FLOW_DEST : Fld := ⟨0x048, 0, 16, .rwS, 0, 32, 126⟩
def NETLF.FLOW_BERTH : Fld := ⟨0x048, 16, 15, .rwS, 0, 32, 126⟩
def NETLF.FLOW_SPAN : Fld := ⟨0x04C, 0, 4, .rwS, 0, 32, 126⟩
def NETLF.FLOW_QOS : Fld := ⟨0x04C, 16, 3, .rwS, 0, 32, 126⟩
def NETLF.FLOW_RDMAC_LO : Fld := ⟨0x050, 0, 32, .rwS, 0, 32, 126⟩
def NETLF.FLOW_RDMAC_HI : Fld := ⟨0x054, 0, 16, .rwS, 0, 32, 126⟩
def NETLF.FLOW_RVID : Fld := ⟨0x054, 16, 12, .rwS, 0, 32, 126⟩
def NETLF.FLOW_RTAG : Fld := ⟨0x054, 31, 1, .rwS, 0, 32, 126⟩

/-- Part 0 of the fields of the NETL flow pages, R685. -/
def netlfFields0 : List Fld :=
  [NETLF.FLOW_DMAC_LO, NETLF.FLOW_DMAC_HI, NETLF.FLOW_VID, NETLF.FLOW_PORT,
   NETLF.FLOW_VALID, NETLF.FLOW_DEST, NETLF.FLOW_BERTH, NETLF.FLOW_SPAN,
   NETLF.FLOW_QOS, NETLF.FLOW_RDMAC_LO, NETLF.FLOW_RDMAC_HI, NETLF.FLOW_RVID,
   NETLF.FLOW_RTAG]
/-- Every field of the NETL flow pages, R685. -/
def netlfFields : List Fld := netlfFields0

/-! STRL page 0, R714 -/

def STRL.SCTL_MODE : Fld := ⟨0x040, 0, 1, .rwS, 0, 4, 1⟩
def STRL.SCTL_MAX_GEN : Fld := ⟨0x040, 4, 2, .rwS, 3, 4, 1⟩
def STRL.SCTL_XFER_TIMEOUT : Fld := ⟨0x040, 16, 16, .rwS, 1000, 4, 1⟩
def STRL.PORT_STAT_UP : Fld := ⟨0x044, 0, 1, .ro, 0, 4, 4⟩
def STRL.PORT_STAT_LINK : Fld := ⟨0x044, 1, 1, .ro, 0, 4, 4⟩
def STRL.PORT_STAT_GEN : Fld := ⟨0x044, 2, 2, .ro, 0, 4, 4⟩
def STRL.PORT_STAT_WIDTH : Fld := ⟨0x044, 4, 5, .ro, 0, 4, 4⟩
def STRL.PORT_STAT_LBADS : Fld := ⟨0x044, 16, 5, .ro, 0, 4, 4⟩
def STRL.SCNT0 : Fld := ⟨0x080, 0, 32, .ro, 0, 4, 8⟩
def STRL.SCNT1 : Fld := ⟨0x0A0, 0, 32, .ro, 0, 4, 8⟩
def STRL.SCNT2 : Fld := ⟨0x0C0, 0, 32, .ro, 0, 4, 8⟩
def STRL.SCNT3 : Fld := ⟨0x0E0, 0, 32, .ro, 0, 4, 8⟩

/-- Part 0 of the fields of the STRL page 0, R714. -/
def strlFields0 : List Fld :=
  [STRL.SCTL_MODE, STRL.SCTL_MAX_GEN, STRL.SCTL_XFER_TIMEOUT, STRL.PORT_STAT_UP,
   STRL.PORT_STAT_LINK, STRL.PORT_STAT_GEN, STRL.PORT_STAT_WIDTH, STRL.PORT_STAT_LBADS,
   STRL.SCNT0, STRL.SCNT1, STRL.SCNT2, STRL.SCNT3]
/-- Every field of the STRL page 0, R714. -/
def strlFields : List Fld := strlFields0

/-! STRL page 1, R715 -/

def STRLX.XCTL_GO : Fld := ⟨0x040, 0, 1, .wo, 0, 64, 16⟩
def STRLX.XCTL_DIR : Fld := ⟨0x040, 4, 1, .rwL, 0, 64, 16⟩
def STRLX.XCTL_DKIND : Fld := ⟨0x040, 5, 1, .rwL, 0, 64, 16⟩
def STRLX.XCTL_PORT : Fld := ⟨0x040, 8, 2, .rwL, 0, 64, 16⟩
def STRLX.LBA_LO_LBA : Fld := ⟨0x044, 0, 32, .rwL, 0, 64, 16⟩
def STRLX.LBA_HI_LBA : Fld := ⟨0x048, 0, 32, .rwL, 0, 64, 16⟩
def STRLX.BLOCKS_COUNT : Fld := ⟨0x04C, 0, 16, .rwL, 0, 64, 16⟩
def STRLX.TILES_BASE : Fld := ⟨0x050, 0, 16, .rwL, 0, 64, 16⟩
def STRLX.TILES_COUNT : Fld := ⟨0x050, 16, 13, .rwL, 0, 64, 16⟩
def STRLX.TADDR_ADDR : Fld := ⟨0x054, 0, 32, .rwL, 0, 64, 16⟩
def STRLX.XSTAT_STATE : Fld := ⟨0x058, 0, 2, .ro, 0, 64, 16⟩
def STRLX.XSTAT_RESULT : Fld := ⟨0x058, 4, 8, .ro, 0, 64, 16⟩
def STRLX.XSTAT_SKIPPED : Fld := ⟨0x058, 16, 16, .ro, 0, 64, 16⟩
def STRLX.XBYTES_BYTES : Fld := ⟨0x05C, 0, 24, .ro, 0, 64, 16⟩

/-- Part 0 of the fields of the STRL page 1, R715. -/
def strlxFields0 : List Fld :=
  [STRLX.XCTL_GO, STRLX.XCTL_DIR, STRLX.XCTL_DKIND, STRLX.XCTL_PORT,
   STRLX.LBA_LO_LBA, STRLX.LBA_HI_LBA, STRLX.BLOCKS_COUNT, STRLX.TILES_BASE,
   STRLX.TILES_COUNT, STRLX.TADDR_ADDR, STRLX.XSTAT_STATE, STRLX.XSTAT_RESULT,
   STRLX.XSTAT_SKIPPED, STRLX.XBYTES_BYTES]
/-- Every field of the STRL page 1, R715. -/
def strlxFields : List Fld := strlxFields0

/-! FCTL page, R536 -/

def FCTL.ESC_MODE_HOLD : Fld := ⟨0x040, 0, 1, .rwL, 0, 4, 1⟩
def FCTL.ESC_LEVEL_LEVEL : Fld := ⟨0x044, 0, 5, .ro, 0, 4, 1⟩
def FCTL.ESC_COUNTS_TOTAL : Fld := ⟨0x048, 0, 16, .ro, 0, 4, 1⟩
def FCTL.ESC_COUNTS_LOST : Fld := ⟨0x048, 16, 16, .ro, 0, 4, 1⟩
def FCTL.ESC_HEAD0_WORD : Fld := ⟨0x04C, 0, 32, .ro, 0, 4, 1⟩
def FCTL.ESC_HEAD1_WORD : Fld := ⟨0x050, 0, 32, .ro, 0, 4, 1⟩
def FCTL.ESC_HEAD2_WORD : Fld := ⟨0x054, 0, 32, .ro, 0, 4, 1⟩
def FCTL.ESC_RELEASE_TILE : Fld := ⟨0x058, 0, 9, .wo, 0, 4, 1⟩
def FCTL.ESC_RELEASE_GO : Fld := ⟨0x058, 31, 1, .wo, 0, 4, 1⟩

/-- Part 0 of the fields of the FCTL page, R536. -/
def fctlFields0 : List Fld :=
  [FCTL.ESC_MODE_HOLD, FCTL.ESC_LEVEL_LEVEL, FCTL.ESC_COUNTS_TOTAL, FCTL.ESC_COUNTS_LOST,
   FCTL.ESC_HEAD0_WORD, FCTL.ESC_HEAD1_WORD, FCTL.ESC_HEAD2_WORD, FCTL.ESC_RELEASE_TILE,
   FCTL.ESC_RELEASE_GO]
/-- Every field of the FCTL page, R536. -/
def fctlFields : List Fld := fctlFields0

/-! FPWR page, R145 -/

def FPWR.POWER_CAP_CAP_W : Fld := ⟨0x040, 0, 9, .rwL, 300, 4, 1⟩
def FPWR.VCEIL_CODE : Fld := ⟨0x044, 0, 6, .rwL, 36, 4, 1⟩
def FPWR.LOOP_STATUS_ALLOWANCE : Fld := ⟨0x048, 0, 4, .ro, 1, 4, 1⟩
def FPWR.LOOP_STATUS_VDEMAND : Fld := ⟨0x048, 8, 6, .ro, 20, 4, 1⟩
def FPWR.LOOP_STATUS_CAP_UNMET : Fld := ⟨0x048, 16, 1, .ro, 0, 4, 1⟩
def FPWR.LOOP_STATUS_DROOP_HOLD : Fld := ⟨0x048, 17, 1, .ro, 0, 4, 1⟩
def FPWR.POWER_EST_WATTS : Fld := ⟨0x04C, 0, 9, .ro, 0, 4, 1⟩
def FPWR.TJ_TJ_MAX : Fld := ⟨0x050, 0, 10, .ro, 0, 4, 1⟩
def FPWR.DROOP_COUNT_COUNT : Fld := ⟨0x054, 0, 32, .ro, 0, 4, 1⟩

/-- Part 0 of the fields of the FPWR page, R145. -/
def fpwrFields0 : List Fld :=
  [FPWR.POWER_CAP_CAP_W, FPWR.VCEIL_CODE, FPWR.LOOP_STATUS_ALLOWANCE, FPWR.LOOP_STATUS_VDEMAND,
   FPWR.LOOP_STATUS_CAP_UNMET, FPWR.LOOP_STATUS_DROOP_HOLD, FPWR.POWER_EST_WATTS, FPWR.TJ_TJ_MAX,
   FPWR.DROOP_COUNT_COUNT]
/-- Every field of the FPWR page, R145. -/
def fpwrFields : List Fld := fpwrFields0

/-! FTOPO page, R611 -/

def FTOPO.TOPO_GEN_GEN : Fld := ⟨0x040, 0, 32, .ro, 0, 4, 1⟩
def FTOPO.FIELD_POS_COL : Fld := ⟨0x044, 0, 3, .ro, 0, 4, 1⟩
def FTOPO.FIELD_POS_ROW : Fld := ⟨0x044, 4, 3, .ro, 0, 4, 1⟩
def FTOPO.RATES_MESH : Fld := ⟨0x048, 0, 8, .ro, 16, 4, 1⟩
def FTOPO.RATES_SEAM : Fld := ⟨0x048, 8, 8, .ro, 4, 4, 1⟩
def FTOPO.RATES_STAY : Fld := ⟨0x048, 16, 8, .ro, 8, 4, 1⟩
def FTOPO.RATES_LANDING : Fld := ⟨0x048, 24, 8, .ro, 4, 4, 1⟩
def FTOPO.LATENCY_HOP : Fld := ⟨0x04C, 0, 4, .ro, 1, 4, 1⟩
def FTOPO.LATENCY_PORT : Fld := ⟨0x04C, 4, 4, .ro, 2, 4, 1⟩
def FTOPO.LATENCY_SEAM : Fld := ⟨0x04C, 8, 8, .ro, 20, 4, 1⟩
def FTOPO.LATENCY_STAY : Fld := ⟨0x04C, 16, 8, .ro, 60, 4, 1⟩
def FTOPO.STAY_PARTNER : Fld := ⟨0x050, 0, 6, .ro, 0, 4, 4⟩
def FTOPO.STAY_LIVE : Fld := ⟨0x050, 16, 1, .ro, 0, 4, 4⟩
def FTOPO.SEAM_E_LIVE_LIVE : Fld := ⟨0x060, 0, 18, .ro, 0, 4, 1⟩
def FTOPO.SEAM_S_LIVE_LIVE : Fld := ⟨0x064, 0, 26, .ro, 0, 4, 1⟩
def FTOPO.LANDING_LIVE_LIVE : Fld := ⟨0x068, 0, 4, .ro, 0, 4, 1⟩
def FTOPO.LANDING_LIVE_LANDING : Fld := ⟨0x068, 8, 4, .ro, 0, 4, 1⟩
def FTOPO.LANDING_LIVE_VALID : Fld := ⟨0x068, 15, 1, .ro, 0, 4, 1⟩
def FTOPO.ROUTE_STATUS_COMPUTING : Fld := ⟨0x06C, 0, 1, .ro, 0, 4, 1⟩
def FTOPO.ROUTE_STATUS_PENDING : Fld := ⟨0x06C, 1, 1, .ro, 0, 4, 1⟩
def FTOPO.ROUTE_STATUS_UNREACH : Fld := ⟨0x06C, 8, 6, .ro, 0, 4, 1⟩
def FTOPO.REACH_LO_REACH : Fld := ⟨0x070, 0, 32, .ro, 0, 4, 1⟩
def FTOPO.REACH_HI_REACH : Fld := ⟨0x074, 0, 24, .ro, 0, 4, 1⟩
def FTOPO.LOOKUP_IN_LID : Fld := ⟨0x078, 0, 16, .rwL, 0, 4, 1⟩
def FTOPO.LOOKUP_OUT_TILE : Fld := ⟨0x07C, 0, 9, .ro, 0, 4, 1⟩
def FTOPO.LOOKUP_OUT_FIELD : Fld := ⟨0x07C, 16, 6, .ro, 0, 4, 1⟩
def FTOPO.LOOKUP_OUT_VALID : Fld := ⟨0x07C, 31, 1, .ro, 0, 4, 1⟩
def FTOPO.ROUTER_LIVE_LIVE : Fld := ⟨0x100, 0, 32, .ro, 0, 4, 15⟩

/-- Part 0 of the fields of the FTOPO page, R611. -/
def ftopoFields0 : List Fld :=
  [FTOPO.TOPO_GEN_GEN, FTOPO.FIELD_POS_COL, FTOPO.FIELD_POS_ROW, FTOPO.RATES_MESH,
   FTOPO.RATES_SEAM, FTOPO.RATES_STAY, FTOPO.RATES_LANDING, FTOPO.LATENCY_HOP,
   FTOPO.LATENCY_PORT, FTOPO.LATENCY_SEAM, FTOPO.LATENCY_STAY, FTOPO.STAY_PARTNER,
   FTOPO.STAY_LIVE, FTOPO.SEAM_E_LIVE_LIVE, FTOPO.SEAM_S_LIVE_LIVE, FTOPO.LANDING_LIVE_LIVE,
   FTOPO.LANDING_LIVE_LANDING, FTOPO.LANDING_LIVE_VALID, FTOPO.ROUTE_STATUS_COMPUTING, FTOPO.ROUTE_STATUS_PENDING,
   FTOPO.ROUTE_STATUS_UNREACH, FTOPO.REACH_LO_REACH, FTOPO.REACH_HI_REACH, FTOPO.LOOKUP_IN_LID]
/-- Part 1 of the fields of the FTOPO page, R611. -/
def ftopoFields1 : List Fld :=
  [FTOPO.LOOKUP_OUT_TILE, FTOPO.LOOKUP_OUT_FIELD, FTOPO.LOOKUP_OUT_VALID, FTOPO.ROUTER_LIVE_LIVE]
/-- Every field of the FTOPO page, R611. -/
def ftopoFields : List Fld := ftopoFields0 ++ ftopoFields1

/-! HAWS[e] page, R677 -/

def HAWS.LINK_STATE : Fld := ⟨0x040, 0, 3, .ro, 1, 4, 1⟩
def HAWS.LINK_KIND : Fld := ⟨0x040, 4, 2, .ro, 0, 4, 1⟩
def HAWS.LINK_ACTIVE : Fld := ⟨0x040, 8, 7, .ro, 0, 4, 1⟩
def HAWS.LINK_SPARES : Fld := ⟨0x040, 16, 3, .ro, 0, 4, 1⟩
def HAWS.LINK_GEN_TX : Fld := ⟨0x040, 24, 4, .ro, 0, 4, 1⟩
def HAWS.LINK_GEN_RX : Fld := ⟨0x040, 28, 4, .ro, 0, 4, 1⟩
def HAWS.LANE_STATE : Fld := ⟨0x044, 0, 32, .ro, 0, 4, 5⟩
def HAWS.ACK_TIMEOUT_CYCLES : Fld := ⟨0x058, 0, 21, .rwS, 0, 4, 1⟩
def HAWS.CREDIT_TIMEOUT_CYCLES : Fld := ⟨0x05C, 0, 27, .rwS, 1200000, 4, 1⟩
def HAWS.XOFF_THRESH_BYTES : Fld := ⟨0x060, 0, 14, .rwS, 0, 4, 1⟩
def HAWS.REPLAY_LIMIT_COUNT : Fld := ⟨0x064, 0, 8, .rwS, 16, 4, 1⟩
def HAWS.SEQ_TX_NEXT0 : Fld := ⟨0x068, 0, 12, .ro, 0, 4, 1⟩
def HAWS.SEQ_TX_NEXT1 : Fld := ⟨0x068, 16, 12, .ro, 0, 4, 1⟩
def HAWS.SEQ_RX_EXP0 : Fld := ⟨0x06C, 0, 12, .ro, 0, 4, 1⟩
def HAWS.SEQ_RX_EXP1 : Fld := ⟨0x06C, 16, 12, .ro, 0, 4, 1⟩
def HAWS.FLOW_HELD0 : Fld := ⟨0x070, 0, 6, .ro, 0, 4, 1⟩
def HAWS.FLOW_HELD1 : Fld := ⟨0x070, 8, 6, .ro, 0, 4, 1⟩
def HAWS.FLOW_PEER_XOFF : Fld := ⟨0x070, 16, 2, .ro, 0, 4, 1⟩
def HAWS.FLOW_OWN_XOFF : Fld := ⟨0x070, 18, 2, .ro, 0, 4, 1⟩
def HAWS.FLOW_NAK_SENT : Fld := ⟨0x070, 20, 2, .ro, 0, 4, 1⟩
def HAWS.CNT_ERR_PARITY : Fld := ⟨0x074, 0, 16, .ro, 0, 4, 1⟩
def HAWS.CNT_ERR_NAK_TX : Fld := ⟨0x074, 16, 16, .ro, 0, 4, 1⟩
def HAWS.CNT_RECOVER_NAK_RX : Fld := ⟨0x078, 0, 16, .ro, 0, 4, 1⟩
def HAWS.CNT_RECOVER_TIMEOUT : Fld := ⟨0x078, 16, 16, .ro, 0, 4, 1⟩
def HAWS.CNT_REPLAYED_COUNT : Fld := ⟨0x07C, 0, 32, .ro, 0, 4, 1⟩
def HAWS.CNT_PKT_TX_COUNT : Fld := ⟨0x080, 0, 32, .ro, 0, 4, 1⟩
def HAWS.CNT_PKT_RX_COUNT : Fld := ⟨0x084, 0, 32, .ro, 0, 4, 1⟩
def HAWS.CNT_LINK_ATTEMPTS : Fld := ⟨0x088, 0, 16, .ro, 0, 4, 1⟩
def HAWS.CNT_LINK_BROKEN : Fld := ⟨0x088, 16, 16, .ro, 0, 4, 1⟩
def HAWS.LAST_BREAK_REASON : Fld := ⟨0x08C, 0, 4, .ro, 0, 4, 1⟩
def HAWS.LAST_BREAK_LOST : Fld := ⟨0x08C, 16, 16, .ro, 0, 4, 1⟩
def HAWS.CONTROL_BREAK : Fld := ⟨0x090, 0, 1, .wo, 0, 4, 1⟩

/-- Part 0 of the fields of the HAWS[e] page, R677. -/
def hawsFields0 : List Fld :=
  [HAWS.LINK_STATE, HAWS.LINK_KIND, HAWS.LINK_ACTIVE, HAWS.LINK_SPARES,
   HAWS.LINK_GEN_TX, HAWS.LINK_GEN_RX, HAWS.LANE_STATE, HAWS.ACK_TIMEOUT_CYCLES,
   HAWS.CREDIT_TIMEOUT_CYCLES, HAWS.XOFF_THRESH_BYTES, HAWS.REPLAY_LIMIT_COUNT, HAWS.SEQ_TX_NEXT0,
   HAWS.SEQ_TX_NEXT1, HAWS.SEQ_RX_EXP0, HAWS.SEQ_RX_EXP1, HAWS.FLOW_HELD0,
   HAWS.FLOW_HELD1, HAWS.FLOW_PEER_XOFF, HAWS.FLOW_OWN_XOFF, HAWS.FLOW_NAK_SENT,
   HAWS.CNT_ERR_PARITY, HAWS.CNT_ERR_NAK_TX, HAWS.CNT_RECOVER_NAK_RX, HAWS.CNT_RECOVER_TIMEOUT]
/-- Part 1 of the fields of the HAWS[e] page, R677. -/
def hawsFields1 : List Fld :=
  [HAWS.CNT_REPLAYED_COUNT, HAWS.CNT_PKT_TX_COUNT, HAWS.CNT_PKT_RX_COUNT, HAWS.CNT_LINK_ATTEMPTS,
   HAWS.CNT_LINK_BROKEN, HAWS.LAST_BREAK_REASON, HAWS.LAST_BREAK_LOST, HAWS.CONTROL_BREAK]
/-- Every field of the HAWS[e] page, R677. -/
def hawsFields : List Fld := hawsFields0 ++ hawsFields1

/-! tile page 0, R316 R477 R502 R515 R516 R730 -/

def TP0.CXDONE_DONE : Fld := ⟨0x200, 0, 1, .wo, 0, 4, 1⟩
def TP0.CX_ENTRY_BUNDLE : Fld := ⟨0x204, 0, 12, .rwS, 0, 4, 1⟩
def TP0.CX_NO_LO_NO : Fld := ⟨0x208, 0, 32, .ro, 0, 4, 1⟩
def TP0.CX_NO_HI_NO : Fld := ⟨0x20C, 0, 16, .ro, 0, 4, 1⟩
def TP0.CX_FLAGS_RECROSS : Fld := ⟨0x210, 0, 1, .ro, 0, 4, 1⟩
def TP0.CX_FLAGS_REPLAY : Fld := ⟨0x210, 1, 1, .ro, 0, 4, 1⟩
def TP0.CX_FLAGS_PRIOR_DAMAGED : Fld := ⟨0x210, 2, 1, .ro, 0, 4, 1⟩
def TP0.CX_FLAGS_PRIOR_STALLED : Fld := ⟨0x210, 3, 1, .ro, 0, 4, 1⟩
def TP0.BUNDLES_LO_COUNT : Fld := ⟨0x214, 0, 32, .ro, 0, 4, 1⟩
def TP0.BUNDLES_HI_COUNT : Fld := ⟨0x218, 0, 8, .ro, 0, 4, 1⟩
def TP0.POST_BAY_BASE : Fld := ⟨0x21C, 0, 6, .rwS, 0, 4, 1⟩
def TP0.POST_BAY_PAGES : Fld := ⟨0x21C, 8, 6, .rwS, 0, 4, 1⟩
def TP0.POST_COUNT_COUNT : Fld := ⟨0x220, 0, 11, .ro, 0, 4, 1⟩
def TP0.POST_COUNT_DROPPED : Fld := ⟨0x220, 16, 11, .ro, 0, 4, 1⟩
def TP0.IF_ADDR_BUNDLE : Fld := ⟨0x040, 0, 12, .rwL, 0, 4, 1⟩
def TP0.IF_DATA0_DATA : Fld := ⟨0x044, 0, 32, .rwL, 0, 4, 1⟩
def TP0.IF_DATA1_DATA : Fld := ⟨0x048, 0, 32, .rwL, 0, 4, 1⟩
def TP0.IF_DATA2_DATA : Fld := ⟨0x04C, 0, 32, .rwL, 0, 4, 1⟩
def TP0.IF_DATA3_DATA : Fld := ⟨0x050, 0, 32, .rwL, 0, 4, 1⟩
def TP0.IFS_GO : Fld := ⟨0x054, 0, 1, .wo, 0, 4, 1⟩
def TP0.IFS_INC : Fld := ⟨0x054, 1, 1, .wo, 0, 4, 1⟩
def TP0.IFL_GO : Fld := ⟨0x058, 0, 1, .wo, 0, 4, 1⟩
def TP0.IFL_INC : Fld := ⟨0x058, 1, 1, .wo, 0, 4, 1⟩
def TP0.IF_STATUS_IFL_UE : Fld := ⟨0x05C, 0, 1, .ro, 0, 4, 1⟩
def TP0.IMEM_ECC_CE : Fld := ⟨0x060, 0, 16, .ro, 0, 4, 1⟩
def TP0.IMEM_ECC_UE : Fld := ⟨0x060, 16, 16, .ro, 0, 4, 1⟩
def TP0.IMEM_LAST_ERR_BUNDLE : Fld := ⟨0x064, 0, 12, .ro, 0, 4, 1⟩
def TP0.IMEM_LAST_ERR_UE : Fld := ⟨0x064, 30, 1, .ro, 0, 4, 1⟩
def TP0.IMEM_LAST_ERR_VALID : Fld := ⟨0x064, 31, 1, .ro, 0, 4, 1⟩
def TP0.CORE_VERSION_MINOR : Fld := ⟨0x080, 0, 8, .ro, 0, 4, 1⟩
def TP0.CORE_VERSION_MAJOR : Fld := ⟨0x080, 8, 8, .ro, 1, 4, 1⟩
def TP0.LOCATION_COL : Fld := ⟨0x084, 0, 5, .ro, 0, 4, 1⟩
def TP0.LOCATION_ROW : Fld := ⟨0x084, 8, 5, .ro, 0, 4, 1⟩
def TP0.LOCATION_FIELD : Fld := ⟨0x084, 16, 6, .ro, 0, 4, 1⟩
def TP0.BANK_STATUS_IN_SERVICE : Fld := ⟨0x088, 0, 8, .ro, 0, 4, 1⟩
def TP0.BANK_STATUS_RETIRE_PENDING : Fld := ⟨0x088, 8, 8, .ro, 0, 4, 1⟩
def TP0.ECC_CONTROL_SCRUB_EN : Fld := ⟨0x08C, 0, 1, .rwL, 1, 4, 1⟩
def TP0.ECC_CONTROL_PATROL_EN : Fld := ⟨0x08C, 1, 1, .rwL, 1, 4, 1⟩
def TP0.ECC_CONTROL_INJ_BANK : Fld := ⟨0x08C, 8, 3, .rwL, 0, 4, 1⟩
def TP0.ECC_CONTROL_INJ_CE : Fld := ⟨0x08C, 16, 1, .wo, 0, 4, 1⟩
def TP0.ECC_CONTROL_INJ_UE : Fld := ⟨0x08C, 17, 1, .wo, 0, 4, 1⟩
def TP0.DMEM_LAST_CE_ADDR : Fld := ⟨0x090, 0, 18, .ro, 0, 4, 1⟩
def TP0.DMEM_LAST_CE_VALID : Fld := ⟨0x090, 31, 1, .ro, 0, 4, 1⟩
def TP0.DMEM_LAST_UE_ADDR : Fld := ⟨0x094, 0, 18, .ro, 0, 4, 1⟩
def TP0.DMEM_LAST_UE_INJECTED : Fld := ⟨0x094, 30, 1, .ro, 0, 4, 1⟩
def TP0.DMEM_LAST_UE_VALID : Fld := ⟨0x094, 31, 1, .ro, 0, 4, 1⟩
def TP0.DMEM_UE_REAL : Fld := ⟨0x098, 0, 16, .ro, 0, 4, 1⟩
def TP0.DMEM_UE_INJECTED : Fld := ⟨0x098, 16, 16, .ro, 0, 4, 1⟩
def TP0.CE_COUNT_COUNT : Fld := ⟨0x0A0, 0, 16, .ro, 0, 4, 8⟩
def TP0.GW_ENTRY : Fld := ⟨0x180, 0, 12, .rwL, 0, 4, 8⟩
def TP0.GW_TARGET : Fld := ⟨0x180, 16, 2, .rwL, 0, 4, 8⟩
def TP0.GW_WORLD : Fld := ⟨0x180, 20, 1, .rwL, 0, 4, 8⟩
def TP0.GW_ALLOW : Fld := ⟨0x180, 24, 4, .rwL, 0, 4, 8⟩
def TP0.GW_EN : Fld := ⟨0x180, 31, 1, .rwL, 0, 4, 8⟩
def TP0.GW_STATE_ACTIVE : Fld := ⟨0x1A0, 0, 1, .rwL, 0, 4, 1⟩
def TP0.GW_STATE_INDEX : Fld := ⟨0x1A0, 4, 3, .rwL, 0, 4, 1⟩
def TP0.GW_STATE_CALLER : Fld := ⟨0x1A0, 8, 2, .rwL, 0, 4, 1⟩
def TP0.GW_STATE_CALLER_WORLD : Fld := ⟨0x1A0, 12, 1, .rwL, 0, 4, 1⟩
def TP0.GW_STATE_SG : Fld := ⟨0x1A0, 16, 3, .rwL, 0, 4, 1⟩
def TP0.GW_STATE_REASON : Fld := ⟨0x1A0, 24, 3, .ro, 0, 4, 1⟩
def TP0.GW_SA_VALUE : Fld := ⟨0x1A4, 0, 32, .rwL, 0, 4, 4⟩
def TP0.PMODE_MODE : Fld := ⟨0x100, 0, 1, .rwH, 0, 4, 1⟩
def TP0.TILE_CTL_PRECISE : Fld := ⟨0x104, 0, 1, .rwL, 0, 4, 1⟩
def TP0.TILE_CTL_IOPL : Fld := ⟨0x104, 4, 2, .rwL, 0, 4, 1⟩
def TP0.TILE_CTL_BERTH_MCAP : Fld := ⟨0x104, 8, 3, .rwL, 7, 4, 1⟩
def TP0.TILE_CTL_TIMER_ARM : Fld := ⟨0x104, 16, 1, .rwL, 0, 4, 1⟩
def TP0.ENTRY_BUNDLE : Fld := ⟨0x108, 0, 12, .rwL, 0, 4, 1⟩
def TP0.PRIV_LEVEL : Fld := ⟨0x10C, 0, 2, .ro, 0, 4, 1⟩
def TP0.PRIV_WORLD : Fld := ⟨0x10C, 4, 1, .ro, 0, 4, 1⟩
def TP0.EVENTS_ARITH : Fld := ⟨0x110, 0, 1, .w1c, 0, 4, 1⟩
def TP0.EVENTS_FERRY : Fld := ⟨0x110, 1, 1, .w1c, 0, 4, 1⟩
def TP0.EVENTS_TIMER : Fld := ⟨0x110, 2, 1, .w1c, 0, 4, 1⟩
def TP0.EVENTS_SOFT : Fld := ⟨0x110, 3, 1, .w1c, 0, 4, 1⟩
def TP0.EVENTS_LV_ARITH : Fld := ⟨0x110, 8, 3, .rwL, 0, 4, 1⟩
def TP0.EVENTS_LV_FERRY : Fld := ⟨0x110, 12, 3, .rwL, 0, 4, 1⟩
def TP0.EVENTS_LV_TIMER : Fld := ⟨0x110, 16, 3, .rwL, 0, 4, 1⟩
def TP0.EVENTS_LV_SOFT : Fld := ⟨0x110, 20, 3, .rwL, 0, 4, 1⟩
def TP0.EVENTS_RAISE : Fld := ⟨0x110, 24, 1, .wo, 0, 4, 1⟩
def TP0.TIMER_CMP_CMP : Fld := ⟨0x114, 0, 32, .rwL, 0, 4, 1⟩
def TP0.SLIP_ENTRY : Fld := ⟨0x118, 0, 12, .rwL, 0, 4, 1⟩
def TP0.SLIP_RET : Fld := ⟨0x118, 16, 12, .rwL, 0, 4, 1⟩
def TP0.SLIP_LEVEL : Fld := ⟨0x118, 28, 1, .rwL, 0, 4, 1⟩
def TP0.SLIP_VALID : Fld := ⟨0x118, 31, 1, .rwL, 0, 4, 1⟩
def TP0.GSTACK_A_E0 : Fld := ⟨0x11C, 0, 14, .rwL, 0, 4, 1⟩
def TP0.GSTACK_A_E1 : Fld := ⟨0x11C, 16, 14, .rwL, 0, 4, 1⟩
def TP0.GSTACK_B_E2 : Fld := ⟨0x120, 0, 14, .rwL, 0, 4, 1⟩
def TP0.GSTACK_B_DEPTH : Fld := ⟨0x120, 16, 2, .rwL, 0, 4, 1⟩
def TP0.XB : Fld := ⟨0x124, 0, 32, .ro, 0, 4, 4⟩
def TP0.X_CAUSE_CODE : Fld := ⟨0x140, 0, 8, .ro, 0, 32, 2⟩
def TP0.X_CAUSE_INFO : Fld := ⟨0x140, 8, 8, .ro, 0, 32, 2⟩
def TP0.X_CAUSE_IMPRECISE : Fld := ⟨0x140, 16, 1, .ro, 0, 32, 2⟩
def TP0.X_CAUSE_MULTI : Fld := ⟨0x140, 17, 1, .ro, 0, 32, 2⟩
def TP0.X_EBA_BUNDLE : Fld := ⟨0x144, 0, 12, .ro, 0, 32, 2⟩
def TP0.X_ESTAT_IN_REPEAT : Fld := ⟨0x148, 0, 1, .rwL, 0, 32, 2⟩
def TP0.X_ESTAT_RPT_NI : Fld := ⟨0x148, 1, 1, .rwL, 0, 32, 2⟩
def TP0.X_ESTAT_FOLD : Fld := ⟨0x148, 2, 1, .rwL, 0, 32, 2⟩
def TP0.X_ESTAT_ASYNC : Fld := ⟨0x148, 3, 1, .rwL, 0, 32, 2⟩
def TP0.X_ESTAT_XFER_LOST : Fld := ⟨0x148, 4, 1, .rwL, 0, 32, 2⟩
def TP0.X_ESTAT_PLEVEL : Fld := ⟨0x148, 8, 2, .rwL, 0, 32, 2⟩
def TP0.X_ESTAT_PMLEVEL : Fld := ⟨0x148, 12, 3, .rwL, 0, 32, 2⟩
def TP0.X_MLEVEL_LEVEL : Fld := ⟨0x14C, 0, 3, .rwL, 0, 32, 2⟩
def TP0.X_ERA_A_ERA0 : Fld := ⟨0x150, 0, 12, .rwL, 0, 32, 2⟩
def TP0.X_ERA_A_ERA1 : Fld := ⟨0x150, 16, 12, .rwL, 0, 32, 2⟩
def TP0.X_ERA_B_ERA2 : Fld := ⟨0x154, 0, 12, .rwL, 0, 32, 2⟩
def TP0.X_ETRIG_BUNDLE : Fld := ⟨0x158, 0, 12, .ro, 0, 32, 2⟩
def TP0.X_ETRIG_SLOTS : Fld := ⟨0x158, 16, 16, .ro, 0, 32, 2⟩
def TP0.X_EADDR_ADDR : Fld := ⟨0x15C, 0, 32, .ro, 0, 32, 2⟩
def TP0.REGION_A_START : Fld := ⟨0x240, 0, 12, .rwS, 0, 8, 8⟩
def TP0.REGION_A_END : Fld := ⟨0x240, 16, 12, .rwS, 0, 8, 8⟩
def TP0.REGION_B_H : Fld := ⟨0x244, 0, 5, .rwS, 0, 8, 8⟩
def TP0.REGION_B_EN : Fld := ⟨0x244, 31, 1, .rwS, 0, 8, 8⟩
def TP0.REEF_HIST_HIST : Fld := ⟨0x280, 0, 32, .ro, 0, 4, 1⟩
def TP0.REEF_SAVE_K_HIST : Fld := ⟨0x284, 0, 32, .rwL, 0, 4, 1⟩
def TP0.REEF_SAVE_B_HIST : Fld := ⟨0x288, 0, 32, .rwL, 0, 4, 1⟩
def TP0.REEF_NOW_ALLOW : Fld := ⟨0x28C, 0, 4, .ro, 1, 4, 1⟩
def TP0.REEF_NOW_REGION : Fld := ⟨0x28C, 8, 3, .ro, 0, 4, 1⟩
def TP0.REEF_NOW_IN_REGION : Fld := ⟨0x28C, 11, 1, .ro, 0, 4, 1⟩
def TP0.RS_HEAVY_COUNT : Fld := ⟨0x290, 0, 32, .ro, 0, 4, 1⟩
def TP0.RS_REEF_CYC_COUNT : Fld := ⟨0x294, 0, 32, .ro, 0, 4, 1⟩
def TP0.RS_REEF_HELD_COUNT : Fld := ⟨0x298, 0, 32, .ro, 0, 4, 1⟩
def TP0.RS_FAULTS_COUNT : Fld := ⟨0x29C, 0, 32, .ro, 0, 4, 1⟩
def TP0.LAST_HEAVY_COUNT : Fld := ⟨0x2A0, 0, 32, .ro, 0, 4, 1⟩
def TP0.LAST_REEF_CYC_COUNT : Fld := ⟨0x2A4, 0, 32, .ro, 0, 4, 1⟩
def TP0.LAST_REEF_HELD_COUNT : Fld := ⟨0x2A8, 0, 32, .ro, 0, 4, 1⟩
def TP0.LAST_FAULTS_COUNT : Fld := ⟨0x2AC, 0, 32, .ro, 0, 4, 1⟩
def TP0.LAST_NO_NO : Fld := ⟨0x2B0, 0, 32, .ro, 0, 4, 1⟩
def TP0.LAST_FLAGS_RECROSS : Fld := ⟨0x2B4, 0, 1, .ro, 0, 4, 1⟩
def TP0.LAST_FLAGS_VALID : Fld := ⟨0x2B4, 31, 1, .ro, 0, 4, 1⟩

/-- Part 0 of the fields of the tile page 0, R316 R477 R502 R515 R516 R730. -/
def tp0Fields0 : List Fld :=
  [TP0.CXDONE_DONE, TP0.CX_ENTRY_BUNDLE, TP0.CX_NO_LO_NO, TP0.CX_NO_HI_NO,
   TP0.CX_FLAGS_RECROSS, TP0.CX_FLAGS_REPLAY, TP0.CX_FLAGS_PRIOR_DAMAGED, TP0.CX_FLAGS_PRIOR_STALLED,
   TP0.BUNDLES_LO_COUNT, TP0.BUNDLES_HI_COUNT, TP0.POST_BAY_BASE, TP0.POST_BAY_PAGES,
   TP0.POST_COUNT_COUNT, TP0.POST_COUNT_DROPPED, TP0.IF_ADDR_BUNDLE, TP0.IF_DATA0_DATA,
   TP0.IF_DATA1_DATA, TP0.IF_DATA2_DATA, TP0.IF_DATA3_DATA, TP0.IFS_GO,
   TP0.IFS_INC, TP0.IFL_GO, TP0.IFL_INC, TP0.IF_STATUS_IFL_UE]
/-- Part 1 of the fields of the tile page 0, R316 R477 R502 R515 R516 R730. -/
def tp0Fields1 : List Fld :=
  [TP0.IMEM_ECC_CE, TP0.IMEM_ECC_UE, TP0.IMEM_LAST_ERR_BUNDLE, TP0.IMEM_LAST_ERR_UE,
   TP0.IMEM_LAST_ERR_VALID, TP0.CORE_VERSION_MINOR, TP0.CORE_VERSION_MAJOR, TP0.LOCATION_COL,
   TP0.LOCATION_ROW, TP0.LOCATION_FIELD, TP0.BANK_STATUS_IN_SERVICE, TP0.BANK_STATUS_RETIRE_PENDING,
   TP0.ECC_CONTROL_SCRUB_EN, TP0.ECC_CONTROL_PATROL_EN, TP0.ECC_CONTROL_INJ_BANK, TP0.ECC_CONTROL_INJ_CE,
   TP0.ECC_CONTROL_INJ_UE, TP0.DMEM_LAST_CE_ADDR, TP0.DMEM_LAST_CE_VALID, TP0.DMEM_LAST_UE_ADDR,
   TP0.DMEM_LAST_UE_INJECTED, TP0.DMEM_LAST_UE_VALID, TP0.DMEM_UE_REAL, TP0.DMEM_UE_INJECTED]
/-- Part 2 of the fields of the tile page 0, R316 R477 R502 R515 R516 R730. -/
def tp0Fields2 : List Fld :=
  [TP0.CE_COUNT_COUNT, TP0.GW_ENTRY, TP0.GW_TARGET, TP0.GW_WORLD,
   TP0.GW_ALLOW, TP0.GW_EN, TP0.GW_STATE_ACTIVE, TP0.GW_STATE_INDEX,
   TP0.GW_STATE_CALLER, TP0.GW_STATE_CALLER_WORLD, TP0.GW_STATE_SG, TP0.GW_STATE_REASON,
   TP0.GW_SA_VALUE, TP0.PMODE_MODE, TP0.TILE_CTL_PRECISE, TP0.TILE_CTL_IOPL,
   TP0.TILE_CTL_BERTH_MCAP, TP0.TILE_CTL_TIMER_ARM, TP0.ENTRY_BUNDLE, TP0.PRIV_LEVEL,
   TP0.PRIV_WORLD, TP0.EVENTS_FERRY, TP0.EVENTS_TIMER, TP0.EVENTS_SOFT]
/-- Part 3 of the fields of the tile page 0, R316 R477 R502 R515 R516 R730. -/
def tp0Fields3 : List Fld :=
  [TP0.EVENTS_ARITH, TP0.EVENTS_LV_ARITH, TP0.EVENTS_LV_FERRY, TP0.EVENTS_LV_TIMER,
   TP0.EVENTS_LV_SOFT, TP0.EVENTS_RAISE, TP0.TIMER_CMP_CMP, TP0.SLIP_ENTRY,
   TP0.SLIP_RET, TP0.SLIP_LEVEL, TP0.SLIP_VALID, TP0.GSTACK_A_E0,
   TP0.GSTACK_A_E1, TP0.GSTACK_B_E2, TP0.GSTACK_B_DEPTH, TP0.XB,
   TP0.X_CAUSE_CODE, TP0.X_CAUSE_INFO, TP0.X_CAUSE_IMPRECISE, TP0.X_CAUSE_MULTI,
   TP0.X_EBA_BUNDLE, TP0.X_ESTAT_IN_REPEAT, TP0.X_ESTAT_RPT_NI, TP0.X_ESTAT_FOLD]
/-- Part 4 of the fields of the tile page 0, R316 R477 R502 R515 R516 R730. -/
def tp0Fields4 : List Fld :=
  [TP0.X_ESTAT_ASYNC, TP0.X_ESTAT_XFER_LOST, TP0.X_ESTAT_PLEVEL, TP0.X_ESTAT_PMLEVEL,
   TP0.X_MLEVEL_LEVEL, TP0.X_ERA_A_ERA0, TP0.X_ERA_A_ERA1, TP0.X_ERA_B_ERA2,
   TP0.X_ETRIG_BUNDLE, TP0.X_ETRIG_SLOTS, TP0.X_EADDR_ADDR, TP0.REGION_A_START,
   TP0.REGION_A_END, TP0.REGION_B_H, TP0.REGION_B_EN, TP0.REEF_HIST_HIST,
   TP0.REEF_SAVE_K_HIST, TP0.REEF_SAVE_B_HIST, TP0.REEF_NOW_ALLOW, TP0.REEF_NOW_REGION,
   TP0.REEF_NOW_IN_REGION, TP0.RS_HEAVY_COUNT, TP0.RS_REEF_CYC_COUNT, TP0.RS_REEF_HELD_COUNT]
/-- Part 5 of the fields of the tile page 0, R316 R477 R502 R515 R516 R730. -/
def tp0Fields5 : List Fld :=
  [TP0.RS_FAULTS_COUNT, TP0.LAST_HEAVY_COUNT, TP0.LAST_REEF_CYC_COUNT, TP0.LAST_REEF_HELD_COUNT,
   TP0.LAST_FAULTS_COUNT, TP0.LAST_NO_NO, TP0.LAST_FLAGS_RECROSS, TP0.LAST_FLAGS_VALID]
/-- Every field of the tile page 0, R316 R477 R502 R515 R516 R730. -/
def tp0Fields : List Fld := tp0Fields0 ++ tp0Fields1 ++ tp0Fields2 ++ tp0Fields3 ++ tp0Fields4 ++ tp0Fields5

/-! tile page 1, R589 -/

def TP1.SLICE_M_PATH : Fld := ⟨0x040, 0, 12, .rwH, 0, 4, 5⟩
def TP1.MQOS_Q_M0 : Fld := ⟨0x060, 0, 3, .rwL, 4, 4, 1⟩
def TP1.MQOS_Q_M1 : Fld := ⟨0x060, 4, 3, .rwL, 5, 4, 1⟩
def TP1.MQOS_CAP_M2 : Fld := ⟨0x060, 8, 3, .rwL, 7, 4, 1⟩
def TP1.MQOS_CAP_M3 : Fld := ⟨0x060, 12, 3, .rwL, 7, 4, 1⟩
def TP1.MQOS_Q_M4 : Fld := ⟨0x060, 16, 3, .rwL, 1, 4, 1⟩
def TP1.PARK_LO : Fld := ⟨0x070, 0, 32, .rwS, 0, 4, 1⟩
def TP1.PARK_HI : Fld := ⟨0x074, 0, 12, .rwS, 513, 4, 1⟩
def TP1.BANK_WORLD_BERTH : Fld := ⟨0x080, 0, 8, .rwS, 0, 4, 1⟩
def TP1.BANK_WORLD_M3_BANKS : Fld := ⟨0x080, 16, 8, .rwS, 255, 4, 1⟩
def TP1.ERR_LAST_ADDR_ADDR : Fld := ⟨0x090, 0, 32, .ro, 0, 4, 1⟩
def TP1.ERR_LAST_MASTER : Fld := ⟨0x094, 0, 3, .ro, 0, 4, 1⟩
def TP1.ERR_LAST_KIND : Fld := ⟨0x094, 4, 3, .ro, 0, 4, 1⟩
def TP1.ERR_LAST_VALID : Fld := ⟨0x094, 31, 1, .ro, 0, 4, 1⟩
def TP1.ERR_COUNT_COUNT : Fld := ⟨0x098, 0, 16, .ro, 0, 4, 1⟩
def TP1.WAIT_M_CYCLES : Fld := ⟨0x0C0, 0, 32, .ro, 0, 4, 5⟩
def TP1.WIN_BASE_BASE : Fld := ⟨0x100, 12, 20, .rwS, 0, 16, 8⟩
def TP1.WIN_CTRL_EN : Fld := ⟨0x104, 0, 1, .rwS, 0, 16, 8⟩
def TP1.WIN_CTRL_KIND : Fld := ⟨0x104, 1, 2, .rwS, 0, 16, 8⟩
def TP1.WIN_CTRL_SIZE : Fld := ⟨0x104, 8, 5, .rwS, 0, 16, 8⟩
def TP1.WIN_CTRL_WORLDS : Fld := ⟨0x104, 16, 2, .rwS, 0, 16, 8⟩
def TP1.WIN_RBASE_RBASE : Fld := ⟨0x108, 0, 32, .rwS, 0, 16, 8⟩
def TP1.WIN_TILE_TILE : Fld := ⟨0x10C, 0, 16, .rwS, 0, 16, 8⟩
def TP1.GUAR_LO_M0 : Fld := ⟨0x300, 0, 7, .rwS, 0, 8, 11⟩
def TP1.GUAR_LO_M1 : Fld := ⟨0x300, 8, 7, .rwS, 0, 8, 11⟩
def TP1.GUAR_LO_M2 : Fld := ⟨0x300, 16, 7, .rwS, 0, 8, 11⟩
def TP1.GUAR_LO_M3 : Fld := ⟨0x300, 24, 7, .rwS, 0, 8, 11⟩
def TP1.GUAR_HI_M4 : Fld := ⟨0x304, 0, 7, .rwS, 0, 8, 11⟩

/-- Part 0 of the fields of the tile page 1, R589. -/
def tp1Fields0 : List Fld :=
  [TP1.SLICE_M_PATH, TP1.MQOS_Q_M0, TP1.MQOS_Q_M1, TP1.MQOS_CAP_M2,
   TP1.MQOS_CAP_M3, TP1.MQOS_Q_M4, TP1.PARK_LO, TP1.PARK_HI,
   TP1.BANK_WORLD_BERTH, TP1.BANK_WORLD_M3_BANKS, TP1.ERR_LAST_ADDR_ADDR, TP1.ERR_LAST_MASTER,
   TP1.ERR_LAST_KIND, TP1.ERR_LAST_VALID, TP1.ERR_COUNT_COUNT, TP1.WAIT_M_CYCLES,
   TP1.WIN_BASE_BASE, TP1.WIN_CTRL_EN, TP1.WIN_CTRL_KIND, TP1.WIN_CTRL_SIZE,
   TP1.WIN_CTRL_WORLDS, TP1.WIN_RBASE_RBASE, TP1.WIN_TILE_TILE, TP1.GUAR_LO_M0]
/-- Part 1 of the fields of the tile page 1, R589. -/
def tp1Fields1 : List Fld :=
  [TP1.GUAR_LO_M1, TP1.GUAR_LO_M2, TP1.GUAR_LO_M3, TP1.GUAR_HI_M4]
/-- Every field of the tile page 1, R589. -/
def tp1Fields : List Fld := tp1Fields0 ++ tp1Fields1

/-! tile page 2, R612 R623 -/

def TP2.LID_ID : Fld := ⟨0x800, 0, 16, .rwS, 0, 4, 1⟩
def TP2.LID_VALID : Fld := ⟨0x800, 31, 1, .rwS, 0, 4, 1⟩
def TP2.RT_STATUS_LIVE : Fld := ⟨0x804, 0, 1, .ro, 0, 4, 1⟩
def TP2.RT_STATUS_STAY : Fld := ⟨0x804, 4, 3, .ro, 0, 4, 1⟩
def TP2.RT_STATUS_LANDING : Fld := ⟨0x804, 7, 1, .ro, 0, 4, 1⟩
def TP2.RT_IN_COUNT : Fld := ⟨0x808, 0, 32, .ro, 0, 4, 1⟩
def TP2.RT_OUT_COUNT : Fld := ⟨0x80C, 0, 32, .ro, 0, 4, 1⟩
def TP2.RT_DISCARD_COUNT : Fld := ⟨0x810, 0, 16, .ro, 0, 4, 1⟩
def TP2.UNROUTED_COUNT : Fld := ⟨0x814, 0, 16, .ro, 0, 4, 1⟩
def TP2.FRY_STATUS_QUEUED : Fld := ⟨0x040, 0, 3, .ro, 0, 4, 1⟩
def TP2.FRY_STATUS_ACTIVE : Fld := ⟨0x040, 3, 1, .ro, 0, 4, 1⟩
def TP2.FRY_STATUS_CODE : Fld := ⟨0x040, 8, 8, .ro, 0, 4, 1⟩
def TP2.FRY_STATUS_SNAP : Fld := ⟨0x040, 16, 1, .ro, 0, 4, 1⟩
def TP2.FRY_DONE_COUNT : Fld := ⟨0x044, 0, 32, .ro, 0, 4, 1⟩
def TP2.FRY_CUR_ADDR : Fld := ⟨0x048, 0, 18, .ro, 0, 4, 1⟩
def TP2.FRY_ERR_ADDR : Fld := ⟨0x04C, 0, 18, .ro, 0, 4, 1⟩
def TP2.FRY_ERR_CODE : Fld := ⟨0x04C, 24, 8, .ro, 0, 4, 1⟩
def TP2.FRY_ERRCNT_COUNT : Fld := ⟨0x050, 0, 16, .ro, 0, 4, 1⟩
def TP2.FRY_CTL_BERTH_QCAP : Fld := ⟨0x054, 0, 3, .rwL, 3, 4, 1⟩

/-- Part 0 of the fields of the tile page 2, R612 R623. -/
def tp2Fields0 : List Fld :=
  [TP2.LID_ID, TP2.LID_VALID, TP2.RT_STATUS_LIVE, TP2.RT_STATUS_STAY,
   TP2.RT_STATUS_LANDING, TP2.RT_IN_COUNT, TP2.RT_OUT_COUNT, TP2.RT_DISCARD_COUNT,
   TP2.UNROUTED_COUNT, TP2.FRY_STATUS_QUEUED, TP2.FRY_STATUS_ACTIVE, TP2.FRY_STATUS_CODE,
   TP2.FRY_STATUS_SNAP, TP2.FRY_DONE_COUNT, TP2.FRY_CUR_ADDR, TP2.FRY_ERR_ADDR,
   TP2.FRY_ERR_CODE, TP2.FRY_ERRCNT_COUNT, TP2.FRY_CTL_BERTH_QCAP]
/-- Every field of the tile page 2, R612 R623. -/
def tp2Fields : List Fld := tp2Fields0

/-! tile page 3, R542 -/

def TP3.GATE_ENTRY : Fld := ⟨0x400, 0, 12, .rwS, 0, 16, 64⟩
def TP3.GATE_TARGET : Fld := ⟨0x400, 16, 2, .rwS, 0, 16, 64⟩
def TP3.GATE_ALLOW : Fld := ⟨0x400, 24, 4, .rwS, 0, 16, 64⟩
def TP3.GATE_EN : Fld := ⟨0x400, 31, 1, .rwS, 0, 16, 64⟩

/-- Part 0 of the fields of the tile page 3, R542. -/
def tp3Fields0 : List Fld :=
  [TP3.GATE_ENTRY, TP3.GATE_TARGET, TP3.GATE_ALLOW, TP3.GATE_EN]
/-- Every field of the tile page 3, R542. -/
def tp3Fields : List Fld := tp3Fields0

end Sys2Proof.Machine
end

