-- ==== Sys2Proof/Machine/Topo.lean ====
section
/-! DEFINITION. The fixed shape of the wafer: grid positions, seams, stays, landing channels and channel ends (R20, R591 to
R596, R626, R627, R676). -/
namespace Sys2Proof.Machine

/-- A small number as an element of a finite range. -/
def fin (n x : Nat) [NeZero n] : Fin n := Fin.ofNat n x

def gridCol (f : Nat) : Nat := f % 8
def gridRow (f : Nat) : Nat := f / 8
def tileCol (t : Nat) : Nat := t % 26
def tileRow (t : Nat) : Nat := t / 26
/-- The physical tile at a row and a column. -/
def tileAt (r c : Nat) : Nat := r * 26 + c

/-- Global coordinates (R592). -/
def globalX (f t : Nat) : Nat := 26 * gridCol f + tileCol t
def globalY (f t : Nat) : Nat := 18 * gridRow f + tileRow t

/-- Bitwise exclusive or of small numbers. -/
def xorNat (a b : Nat) : Nat := a ^^^ b

/-- The partner field of stay port s of field f (R596). -/
def stayPartner (f s : Nat) : Nat :=
  let r := gridRow f; let c := gridCol f
  match s with
  | 0 => r * 8 + xorNat c 4
  | 1 => (6 - r) * 8 + xorNat c 2
  | 2 => (6 - r) * 8 + (7 - c)
  | _ => if r = 3 then 24 + xorNat c 1 else xorNat r 4 * 8 + c

/-- The attach tile of stay port s (R595). -/
def stayTile (s : Nat) : Nat :=
  match s with
  | 0 => tileAt 4 6 | 1 => tileAt 4 19 | 2 => tileAt 13 6 | _ => tileAt 13 19

/-- The attach fields of a landing (R594). -/
def attachFields (k : Nat) : Nat × Nat :=
  match k with
  | 0 => (1, 2) | 1 => (3, 4) | 2 => (5, 6)
  | 4 => (49, 50) | 5 => (51, 52) | 6 => (53, 54)
  | 3 => (15, 23) | 8 => (31, 39) | 9 => (47, 55)
  | 7 => (8, 16) | 10 => (24, 32) | _ => (40, 48)

/-- The landing attached to a field, and whether the field is its second attach field (R594). -/
def landingOf (f : Nat) : Option (Nat × Nat) :=
  (List.range 12).findSome? fun k =>
    if (attachFields k).1 = f then some (k, 0) else if (attachFields k).2 = f then some (k, 1) else none

/-- The attach tile of landing channel q of an attach field of landing k (R594). -/
def landingTile (k q : Nat) : Nat :=
  if k = 0 ∨ k = 1 ∨ k = 2 then tileAt 0 (3 + 6 * q)
  else if k = 4 ∨ k = 5 ∨ k = 6 then tileAt 17 (3 + 6 * q)
  else if k = 3 ∨ k = 8 ∨ k = 9 then tileAt (2 + 4 * q) 25
  else tileAt (2 + 4 * q) 0

/-- The end exists (R676): hosts 0 to 55 are fields, 56 + k is landing Lk with its channels 0 to 7. -/
def endExists (h e : Nat) : Bool :=
  if 56 ≤ h then decide (h < 68) && decide (e < 8)
  else if e < 18 then decide (gridCol h < 7)
  else if e < 36 then decide (0 < gridCol h)
  else if e < 62 then decide (gridRow h < 6)
  else if e < 88 then decide (0 < gridRow h)
  else if e < 92 then true
  else if e < 96 then (landingOf h).isSome
  else false

/-- The partner end of an end (R592, R594, R596). -/
def partnerEnd (h e : Nat) : Nat × Nat :=
  if 56 ≤ h then
    let a := attachFields (h - 56)
    if e < 4 then (a.1, 92 + e) else (a.2, 92 + (e - 4))
  else if e < 18 then (h + 1, e + 18)
  else if e < 36 then (h - 1, e - 18)
  else if e < 62 then (h + 8, e + 26)
  else if e < 88 then (h - 8, e - 26)
  else if e < 92 then (stayPartner h (e - 88), e)
  else match landingOf h with
    | some (k, j) => (56 + k, 4 * j + (e - 92))
    | none => (h, e)

/-- The tile at which an end of a field attaches (R592, R594, R595). -/
def endTile (h e : Nat) : Nat :=
  if e < 18 then tileAt e 25
  else if e < 36 then tileAt (e - 18) 0
  else if e < 62 then tileAt 17 (e - 36)
  else if e < 88 then tileAt 0 (e - 62)
  else if e < 92 then stayTile (e - 88)
  else match landingOf h with
    | some (k, _) => landingTile k (e - 92)
    | none => 0

/-- Stay ends. -/
def isStay (h e : Nat) : Bool := decide (h < 56) && decide (88 ≤ e) && decide (e < 92)

/-- Full active count, and lanes that may carry Hawser (R627). -/
def fullLanes (h e : Nat) : Nat := if isStay h e then 72 else 36
def laneCount (h e : Nat) : Nat := if isStay h e then 76 else 40

/-- The end whose field names the channel in reports and records (R166, R189): for a landing, its attach field's. -/
def recordEnd (h e : Nat) : Nat × Nat :=
  if 56 ≤ h then partnerEnd h e
  else if 18 ≤ e ∧ e < 36 then partnerEnd h e
  else if 62 ≤ e ∧ e < 88 then partnerEnd h e
  else if 88 ≤ e ∧ e < 92 then
    let p := partnerEnd h e
    if p.1 < h then p else (h, e)
  else (h, e)

/-- CTYPE and CINDEX of the channel of a record end (R188). -/
def channelCode (e : Nat) : Nat × Nat :=
  if e < 18 then (0, e) else if 36 ≤ e ∧ e < 62 then (1, e - 36) else if 88 ≤ e ∧ e < 92 then (2, e - 88)
  else (3, e - 92)

/-- The record end's number from CTYPE and CINDEX. -/
def endOfCode (ctype cindex : Nat) : Nat :=
  match ctype with
  | 0 => cindex | 1 => 36 + cindex | 2 => 88 + cindex | _ => 92 + cindex

/-- The key of an end. -/
def endKey (h e : Nat) : Nat := h * 128 + e

end Sys2Proof.Machine
end

