-- ==== Sys2Proof/Machine/Ops.lean ====
section
/-! DEFINITION. The named operations over the register store, the sparse maps and the pages: reading and writing a
register field, page addresses and their reset values (R9 to R15, R222 to R228). -/
namespace Sys2Proof.Machine

/-- The outcome of a command. -/
abbrev Out := Host.Outcome State Fault Refusal

/-! ### Sparse maps in canonical form: keys strictly rising, no entry equal to its default -/

/-- The value at a key. -/
def lookup {α : Type} (d : α) : List (Nat × α) → Nat → α
  | [], _ => d
  | (k, v) :: r, i => if k = i then v else lookup d r i

/-- The list with the key's entry taken out. -/
def erase {α : Type} (i : Nat) (m : List (Nat × α)) : List (Nat × α) := m.filter fun e => e.1 != i

/-- The list with the key set to the value. -/
def insert {α : Type} (i : Nat) (x : α) : List (Nat × α) → List (Nat × α)
  | [] => [(i, x)]
  | (k, v) :: r => if k = i then (i, x) :: r else if i < k then (i, x) :: (k, v) :: r else (k, v) :: insert i x r

/-- The map with the key set to the value, in canonical form. -/
def put {α : Type} [DecidableEq α] (d : α) (m : List (Nat × α)) (i : Nat) (x : α) : List (Nat × α) :=
  if x = d then erase i m else insert i x m

/-- Keys strictly rise from above `b`. -/
def risingFrom {α : Type} : Nat → List (Nat × α) → Bool
  | _, [] => true
  | b, (k, _) :: r => decide (b ≤ k) && risingFrom (k + 1) r

/-- The canonical form, for a default that may depend on the key. -/
def canonical {α : Type} [DecidableEq α] (d : Nat → α) (m : List (Nat × α)) : Bool :=
  risingFrom 0 m && m.all fun e => decide (e.2 ≠ d e.1)

/-- A map with its keys outside `p` taken out. -/
def keep {α : Type} (p : Nat → Bool) (m : List (Nat × α)) : List (Nat × α) := m.filter fun e => p e.1

/-! ### Bits of a word -/

/-- The `w` bits from bit `lo` up of a register word. -/
def getBits (x : Word) (lo w : Nat) : Nat := x.toNat / 2 ^ lo % 2 ^ w

/-- A word whose `w` bits from bit `lo` up are ones. -/
def maskBits (lo w : Nat) : Word := BitVec.ofNat 32 ((2 ^ w - 1) * 2 ^ lo)

/-- The word with its `w` bits from bit `lo` up replaced by those of `v`. -/
def setBits (x : Word) (lo w v : Nat) : Word :=
  (x &&& ~~~(maskBits lo w)) ||| BitVec.ofNat 32 (v % 2 ^ w * 2 ^ lo)

/-! ### Page addresses (R222, R224) -/

/-- The address of a page of a class. -/
def pageAddr (cls field tile page : Nat) : Nat :=
  cls * 2 ^ 36 + field * 2 ^ 30 + tile * 2 ^ 21 + page * 2 ^ 12

def pgMast : Nat := pageAddr 0 0 0 0x000
def pgMpwr : Nat := pageAddr 0 0 0 0x004
def pgDmap : Nat := pageAddr 0 0 0 0x008
def pgLogb : Nat := pageAddr 0 0 0 0x00C
def pgRoster : Nat := pageAddr 0 0 0 0x010
def pgRostf (f : Nat) : Nat := pageAddr 0 0 0 (0x040 + f)
def pgCseq : Nat := pageAddr 1 0 0 0x000
def pgHoist : Nat := pageAddr 1 0 0 0x001
/-- The BERTH page of berth b (R322). -/
def pgBerth (b : Nat) : Nat := pageAddr 1 0 0 (0x008 + b / 48)
def pgLanding (k p : Nat) : Nat := pageAddr 2 k 0 p
def pgFctl (f : Nat) : Nat := pageAddr 4 f 0 0x000
def pgFpwr (f : Nat) : Nat := pageAddr 4 f 0 0x001
def pgFtopo (f : Nat) : Nat := pageAddr 4 f 0 0x002
def pgHaws (f e : Nat) : Nat := pageAddr 4 f 0 (0x080 + e)
def pgTile (f t p : Nat) : Nat := pageAddr 8 f t p

/-- The address of the HAWS page of an end; a landing's ends have no page in the address map, and their registers stand
under the reserved class 0xE. -/
def pgEnd (h e : Nat) : Nat := if h < 56 then pgHaws h e else pageAddr 0xE (h - 56) 0 (0x080 + e)

/-- The key of a tile: its field and its physical tile. -/
def tileKey (f t : Nat) : Nat := f * 512 + t

/-- The page p of the tile with a key. -/
def pgTk (tk p : Nat) : Nat := pgTile (tk / 512) (tk % 512) p

/-! The parts of an address. -/
def clsOf (a : Nat) : Nat := bits a 36 4
def fieldOf (a : Nat) : Nat := bits a 30 6
def tileOf (a : Nat) : Nat := bits a 21 9
def pageNoOf (a : Nat) : Nat := bits a 12 9
/-- The address of the page that an address lies in. -/
def pageOf (a : Nat) : Nat := a / 4096 * 4096
def offOf (a : Nat) : Nat := a % 4096

/-- The page kind of an allocated page (R224), none where R222 to R224 allow no such page; the Field and Tile parts
are taken as single, not broadcast. -/
def kindOf (a : Nat) : Option PageKind :=
  let p := pageNoOf a; let f := fieldOf a; let t := tileOf a
  match clsOf a with
  | 0 =>
    if f ≠ 0 ∨ t ≠ 0 then none
    else if p = 0 then some .mast else if p = 4 then some .mpwr else if p = 8 then some .dmap
    else if p = 12 then some .logb else if p = 16 then some .roster
    else if 64 ≤ p ∧ p < 120 then some .rostf else none
  | 1 =>
    if f ≠ 0 ∨ t ≠ 0 then none
    else if p = 0 then some .cseq else if p = 1 then some .hoist else if 8 ≤ p then some .berth else none
  | 2 =>
    if 12 ≤ f ∨ t ≠ 0 ∨ 64 ≤ p then none
    else if f < 8 then
      if p = 0 then some .netl else if p = 8 ∨ p = 9 then some .netlBay
      else if 16 ≤ p ∧ p < 32 then some .netlFlow else some .landingEmpty
    else if p = 0 then some .strl else if p = 1 then some .strlX else some .landingEmpty
  | 4 =>
    if 56 ≤ f ∨ t ≠ 0 then none
    else if p = 0 then some .fctl else if p = 1 then some .fpwr else if p = 2 then some .ftopo
    else if 128 ≤ p ∧ p < 256 then some .haws else none
  | 8 =>
    if 56 ≤ f ∨ 468 ≤ t then none
    else if p = 0 then some .tile0 else if p = 1 then some .tile1 else if p = 2 then some .tile2
    else if p = 3 then some .tile3 else none
  | _ => none

/-- BLOCK_TYPE (R224). -/
def blockType : PageKind → Nat
  | .mast => 0x01 | .mpwr => 0x02 | .dmap => 0x03 | .logb => 0x04 | .roster => 0x05 | .rostf => 0x06
  | .cseq => 0x10 | .hoist => 0x11 | .berth => 0x12
  | .netl | .netlBay | .netlFlow => 0x20 | .strl | .strlX => 0x21 | .landingEmpty => 0x20
  | .fctl => 0x30 | .fpwr => 0x31 | .ftopo => 0x32 | .haws => 0x33
  | .tile0 => 0x40 | .tile1 => 0x41 | .tile2 => 0x42 | .tile3 => 0x43

/-- INSTANCE (R224). -/
def instanceOf (a : Nat) : Nat :=
  let p := pageNoOf a; let f := fieldOf a
  match clsOf a with
  | 0 => if 64 ≤ p then p - 64 else 0
  | 1 => if 8 ≤ p then p - 8 else 0
  | 2 => f * 64 + p
  | 4 => if 128 ≤ p then f * 128 + (p - 128) else f
  | _ => f * 512 + tileOf a

/-- A page of the Mast standby domain (R224). -/
def standbyPage (a : Nat) : Bool :=
  match kindOf a with
  | some .mast | some .mpwr | some .dmap | some .logb => true
  | _ => false

/-- The block-specific fields of a page kind. -/
def ownFields : PageKind → List Fld
  | .mast => mastFields | .mpwr => mpwrFields | .dmap => dmapFields | .logb => logbFields
  | .roster => rosterFields | .rostf => rostfFields | .cseq => cseqFields | .hoist => hoistFields
  | .berth => berthFields | .netl => netlFields | .netlBay => netlbFields | .netlFlow => netlfFields
  | .strl => strlFields | .strlX => strlxFields | .landingEmpty => []
  | .fctl => fctlFields | .fpwr => fpwrFields | .ftopo => ftopoFields | .haws => hawsFields
  | .tile0 => tp0Fields | .tile1 => tp1Fields | .tile2 => tp2Fields | .tile3 => tp3Fields

/-- Member i of a family of equal registers. -/
def Fld.at (F : Fld) (i : Nat) : Fld := { F with off := F.off + F.stride * i, n := 1 }

/-- The field stands in the word at an offset, for some member of its family. -/
def Fld.covers (F : Fld) (off : Nat) : Bool :=
  decide (F.off ≤ off) && decide ((off - F.off) % F.stride = 0) && decide ((off - F.off) / F.stride < F.n)

/-- The fields of the word at an offset of a page. -/
def fieldsAt (k : PageKind) (off : Nat) : List Fld :=
  if off < 0x40 then hdrFields.filter (·.covers off) else (ownFields k).filter (·.covers off)

/-- The targets to which master m has a path, as bits (R556). -/
def pathBits (m : Nat) : Nat := [0xEFF, 0x100, 0xDFF, 0x9FF, 0xCFF].getD m 0

/-- The bits of a word whose fields have an attribute; in SLICE_M the bits of paths that do not exist are reserved (tile page 1,
the register table of chapter 14). -/
def attrMask (k : PageKind) (off : Nat) (a : Attr) : Word :=
  let m := (fieldsAt k off).foldl (fun m F => if F.attr = a then m ||| maskBits F.lo F.width else m) 0
  if k = .tile1 ∧ 0x40 ≤ off ∧ off < 0x54 then m &&& BitVec.ofNat 32 (pathBits ((off - 0x40) / 4)) else m

/-- The kind of an end: 0 seam, 1 stay, 2 landing (R677). -/
def endKind (h e : Nat) : Nat := if 56 ≤ h then 2 else if e < 88 then 0 else if e < 92 then 1 else 2

/-- Reset values of a HAWS page (R676, R677): by end. -/
def resetHaws (h e off : Nat) : Word :=
  if !endExists h e then 0
  else if off = 0x040 then BitVec.ofNat 32 (1 + 16 * endKind h e)
  else if off = 0x058 then (if isStay h e then 19200 else 4800)
  else if off = 0x060 then (if isStay h e then 4096 else 2048)
  else 0

/-- Reset values that the spec gives by page, by tile, by field or by end (R15, R220, R227, R297, R477, R611, R612). -/
def resetSpecial (k : PageKind) (a : Nat) : Word :=
  let off := offOf a
  let f := fieldOf a; let t := tileOf a
  match k with
  | .mast => if off = 0x040 then (Config.fwMajor.setWidth 32 <<< 16) ||| (Config.fwMinor.setWidth 32 <<< 8) else 0
  | .dmap =>
    if off = 0x04C then 56 else 0
  | .tile0 =>
    if off = 0x084 then BitVec.ofNat 32 (t % 26 + t / 26 * 256 + f * 65536) else if off = 0x088 then 0xFF
    else if off = 0x004 then 2 else 0
  | .tile1 => if off = 0x004 then 2 else 0
  | .tile2 =>
    if off = 0x804 then
      BitVec.ofNat 32 (((List.range 4).foldl (fun m s => if stayTile s = t then m + (1 + s) * 16 else m) 0) +
        match landingOf f with
        | some (l, _) => if (List.range 4).any fun q => landingTile l q == t then 128 else 0
        | none => 0)
    else 0
  | .ftopo =>
    if off = 0x044 then BitVec.ofNat 32 (f % 8 + f / 8 * 16)
    else if 0x050 ≤ off ∧ off < 0x060 then BitVec.ofNat 32 (stayPartner f ((off - 0x050) / 4))
    else if off = 0x068 then
      match landingOf f with
      | some (l, _) => BitVec.ofNat 32 (l * 256 + 32768)
      | none => 0
    else 0
  | _ => 0

/-- The page kind whose registers stand at an address: that of R224, and HAWS for a landing's ends. -/
def storeKind (a : Nat) : Option PageKind := if clsOf a = 0xE then some .haws else kindOf a

/-- The reset value of the word at an address (R15). -/
def resetWord (a : Nat) : Word :=
  match storeKind a with
  | none => 0
  | some k =>
    let off := offOf a
    if off = 0 then
      let ty := if k = .landingEmpty ∧ 8 ≤ fieldOf a then 0x21 else blockType k
      BitVec.ofNat 32 (ty * 2 ^ 24 + instanceOf a % 2 ^ 16 * 2 ^ 8 + 1)
    else
      let base := match k with
        | .haws => resetHaws (if clsOf a = 0xE then 56 + fieldOf a else fieldOf a) (pageNoOf a - 0x080) off
        | _ => resetSpecial k a
      (fieldsAt k off).foldl (fun m F =>
        if k = .haws ∧ off = 0x040 then m else m ||| BitVec.ofNat 32 (F.reset % 2 ^ F.width * 2 ^ F.lo)) base

/-! ### Reading and writing register words and fields -/

/-- The live word at an address. -/
def State.word (s : State) (a : Nat) : Word := lookup (resetWord a) s.live a

/-- The state with the live word at an address set. -/
def State.setWord (s : State) (a : Nat) (v : Word) : State := { s with live := put (resetWord a) s.live a v }

/-- The shadow word at an address. -/
def State.shadowWord (s : State) (a : Nat) : Word := lookup (resetWord a) s.shadow a

/-- The state with the shadow word at an address set. -/
def State.setShadow (s : State) (a : Nat) (v : Word) : State := { s with shadow := put (resetWord a) s.shadow a v }

/-- A field of the page at address `p`. -/
def State.get (s : State) (p : Nat) (F : Fld) : Nat := getBits (s.word (p + F.off)) F.lo F.width

/-- The state with a field of the page at address `p` set; the value is cut to the field's width. -/
def State.set (s : State) (p : Nat) (F : Fld) (v : Nat) : State :=
  s.setWord (p + F.off) (setBits (s.word (p + F.off)) F.lo F.width v)

/-- A one-bit field reads 1. -/
def State.on (s : State) (p : Nat) (F : Fld) : Bool := s.get p F == 1

/-- A 64-bit value held in two registers. -/
def State.get2 (s : State) (p : Nat) (L H : Fld) : Nat := s.get p L + s.get p H * 2 ^ L.width

/-- The state with a value held in two registers set. -/
def State.set2 (s : State) (p : Nat) (L H : Fld) (v : Nat) : State :=
  (s.set p L v).set p H (v / 2 ^ L.width)

/-- A counter field that wraps. -/
def State.bump (s : State) (p : Nat) (F : Fld) : State := s.set p F (s.get p F + 1)

/-- A counter field that saturates. -/
def State.bumpSat (s : State) (p : Nat) (F : Fld) (n : Nat := 1) : State :=
  s.set p F (min (s.get p F + n) (2 ^ F.width - 1))

/-- A bit of a bit-set held in a LO and a HI register of 32 and more bits. -/
def State.bit2 (s : State) (p : Nat) (L H : Fld) (i : Nat) : Bool :=
  if i < 32 then bitAt (s.get p L) i else bitAt (s.get p H) (i - 32)

/-- A number with one bit set to a value. -/
def putBit (n i : Nat) (b : Bool) : Nat := n - n / 2 ^ i % 2 * 2 ^ i + bit b * 2 ^ i

/-- The state with one bit of a bit-set held in two registers set to a value. -/
def State.setBit2 (s : State) (p : Nat) (L H : Fld) (i : Nat) (b : Bool) : State :=
  if i < 32 then s.set p L (putBit (s.get p L) i b) else s.set p H (putBit (s.get p H) (i - 32) b)

/-- The state with one bit of a bit-set field set to a value. -/
def State.setBit (s : State) (p : Nat) (F : Fld) (i : Nat) (b : Bool) : State := s.set p F (putBit (s.get p F) i b)

end Sys2Proof.Machine
end

