-- ==== Sys2Proof/Machine/Clock.lean ====
section
/-! DEFINITION. The clock: what a step does when no command waits (R133, R134). -/
namespace Sys2Proof.Machine

/-- WCLK is distributed (R129). -/
def clocked (s : State) : Bool := s.on pgMpwr MPWR.PLL_STATUS_DISTRIBUTING

/-- One WCLK cycle with no command: WTIME counts while the clock is distributed (R133).
DESIGN CHOICE (log 3): the tick stands in place of idling on an empty queue. -/
def tick (s : State) : State :=
  if clocked s then { s with m := { s.m with wtime := (s.m.wtime + 1) % 2 ^ 64 } } else s

end Sys2Proof.Machine
end

