-- ==== Sys2Proof/Machine/Flags.lean ====
section
/-! DEFINITION. The results of the function units as pure functions: ALU (R397), SHF (R399 to R401), CHK (R403 to
R407), MUL (R420), DIV (R421, R422) and HSH (R423 to R427). -/
namespace Sys2Proof.Machine

/-! ### ALU0 and ALU1 (R397, R398) -/

/-- The ALU triggers. -/
inductive AluOp
  | add | addc | addv | sub | subb | subv | and | or | xor | andn | slt | sltu | min | minu | max | maxu | abs | pass
deriving DecidableEq, Repr

/-- Socket r of an ALU operation, for operand o, trigger operand t and carry c (0 or 1). -/
def aluR (op : AluOp) (o t c : Word) : Word :=
  match op with
  | .add | .addv => o + t
  | .addc => o + t + c
  | .sub | .subv => o - t
  | .subb => o - t - c
  | .and => o &&& t
  | .or => o ||| t
  | .xor => o ^^^ t
  | .andn => o &&& ~~~t
  | .slt => if o.toInt < t.toInt then 1 else 0
  | .sltu => if o.toNat < t.toNat then 1 else 0
  | .min => if t.toInt < o.toInt then t else o
  | .minu => if t.toNat < o.toNat then t else o
  | .max => if o.toInt < t.toInt then t else o
  | .maxu => if o.toNat < t.toNat then t else o
  | .abs => if t.toInt < 0 then 0 - t else t
  | .pass => t

/-- Socket c of an ALU operation; none where the operation leaves it. -/
def aluC (op : AluOp) (o t c : Word) : Option Word :=
  match op with
  | .add | .addv => some (if 2 ^ 32 ≤ o.toNat + t.toNat then 1 else 0)
  | .addc => some (if 2 ^ 32 ≤ o.toNat + t.toNat + c.toNat then 1 else 0)
  | .sub | .subv => some (if o.toNat < t.toNat then 1 else 0)
  | .subb => some (if o.toNat < t.toNat + c.toNat then 1 else 0)
  | _ => none

/-- A signed result lies outside −2³¹ to 2³¹ − 1. -/
def outside32 (x : Int) : Bool := decide (x < -2147483648) || decide (2147483647 < x)

/-- The operation raises OVERFLOW. -/
def aluOv (op : AluOp) (o t : Word) : Bool :=
  match op with
  | .addv => outside32 (o.toInt + t.toInt)
  | .subv => outside32 (o.toInt - t.toInt)
  | _ => false

/-! ### SHF (R399 to R401) -/

/-- The SHF triggers. -/
inductive ShfOp
  | shl | shr | sar | rol | ror | ext | exts | ins | bswap | hswap | clz | ctz
deriving DecidableEq, Repr

/-- The lowest bit of the field of ext, exts and ins (R401). -/
def fieldPos (p : Word) : Nat := p.toNat % 32

/-- The bits taken of the field of ext, exts and ins: its width, clipped at bit 31 (R401). -/
def fieldWidth (p : Word) : Nat := min (p.toNat / 256 % 32 + 1) (32 - fieldPos p)

/-- The zero bits above the highest set bit among the low `n` bits of t. -/
def leadingZeros (t : Word) : Nat → Nat
  | 0 => 0
  | n + 1 => if t.getLsbD n then 0 else 1 + leadingZeros t n

/-- The zero bits below the lowest set bit of t, looking at `n` bits from bit `i` up. -/
def trailingZeros (t : Word) : Nat → Nat → Nat
  | 0, _ => 0
  | n + 1, i => if t.getLsbD i then 0 else 1 + trailingZeros t n (i + 1)

/-- Byte i of a word, zero-extended. -/
def byteOf (t : Word) (i : Nat) : Word := (t >>> (8 * i)) &&& 0xFF

/-- Socket r of an SHF operation, for operands o and p and trigger operand t. -/
def shfR (op : ShfOp) (o p t : Word) : Word :=
  let n := t.toNat % 32
  match op with
  | .shl => o <<< n
  | .shr => o >>> n
  | .sar => o.sshiftRight n
  | .rol => o.rotateLeft n
  | .ror => o.rotateRight n
  | .ext => BitVec.ofNat 32 (bits t.toNat (fieldPos p) (fieldWidth p))
  | .exts => BitVec.ofInt 32 (signed (bits t.toNat (fieldPos p) (fieldWidth p)) (fieldWidth p))
  | .ins =>
    let m := BitVec.ofNat 32 ((2 ^ fieldWidth p - 1) * 2 ^ fieldPos p)
    (o &&& ~~~m) ||| ((t <<< fieldPos p) &&& m)
  | .bswap => (byteOf t 0 <<< 24) ||| (byteOf t 1 <<< 16) ||| (byteOf t 2 <<< 8) ||| byteOf t 3
  | .hswap => (byteOf t 2 <<< 24) ||| (byteOf t 3 <<< 16) ||| (byteOf t 0 <<< 8) ||| byteOf t 1
  | .clz => BitVec.ofNat 32 (leadingZeros t 32)
  | .ctz => BitVec.ofNat 32 (trailingZeros t 32 0)

/-! ### CHK (R403 to R407) -/

/-- One bit of a reflected CRC register (R406). -/
def crcBitR (rpoly crc : Word) : Word := if crc.getLsbD 0 then (crc >>> 1) ^^^ rpoly else crc >>> 1

/-- One bit of a CRC register of 32 bits that is not reflected (R406). -/
def crcBitN (poly crc : Word) : Word := if crc.getLsbD 31 then (crc <<< 1) ^^^ poly else crc <<< 1

/-- One bit of a CRC register of 16 bits that is not reflected (R406). -/
def crcBit16 (poly crc : Word) : Word :=
  if crc.getLsbD 15 then ((crc <<< 1) ^^^ poly) &&& 0xFFFF else (crc <<< 1) &&& 0xFFFF

/-- A step done n times. -/
def times (n : Nat) (f : Word → Word) (x : Word) : Word :=
  match n with
  | 0 => x
  | n + 1 => times n f (f x)

/-- The 32 bits of a word in reverse order (rev_w). -/
def revW (t : Word) : Word := t.reverse

/-- The polynomial state of a CRC algorithm: 0 CRC-32C, 1 IEEE 802.3, 2 CRC-16/CCITT, 3 programmable (R405, R408). -/
def crcByte (alg : Nat) (poly pcfg acc b : Word) : Word :=
  match alg with
  | 0 => times 8 (crcBitR 0x82F63B78) (acc ^^^ b)
  | 1 => times 8 (crcBitR 0xEDB88320) (acc ^^^ b)
  | 2 => times 8 (crcBit16 0x1021) ((acc &&& 0xFFFF) ^^^ (b <<< 8))
  | _ =>
    if pcfg.getLsbD 0 then times 8 (crcBitR (revW poly)) (acc ^^^ b)
    else times 8 (crcBitN poly) (acc ^^^ (b <<< 24))

/-- A word step: four byte steps, lowest byte first (R406). -/
def crcWord (alg : Nat) (poly pcfg acc t : Word) : Word :=
  crcByte alg poly pcfg (crcByte alg poly pcfg (crcByte alg poly pcfg (crcByte alg poly pcfg acc (byteOf t 0))
    (byteOf t 1)) (byteOf t 2)) (byteOf t 3)

/-- CRC-32C over bytes, finished (R790). -/
def crc32c (bs : List Byte) : Word :=
  bs.foldl (fun c b => crcByte 0 0 0 c (b.setWidth 32)) 0xFFFFFFFF ^^^ 0xFFFFFFFF

/-- CRC-16/CCITT over bytes (R276). -/
def crc16 (bs : List Byte) : Word := bs.foldl (fun c b => crcByte 2 0 0 c (b.setWidth 32)) 0xFFFF

/-- Programmable finalisation (R407). -/
def finp (pcfg xout t : Word) : Word := (if pcfg.getLsbD 0 != pcfg.getLsbD 1 then revW t else t) ^^^ xout

/-- The number of set bits among the low n bits. -/
def popN (t : Word) : Nat → Nat
  | 0 => 0
  | n + 1 => popN t n + bit (t.getLsbD n)

/-- The exclusive or of the bits of byte i. -/
def parityByte (t : Word) (i : Nat) : Nat := popN (byteOf t i) 8 % 2

/-- The CHK triggers with a fixed latency, fclr apart. -/
inductive ChkOp
  | c32cB | c32cW | c32B | c32W | c16B | c16W | cpB | cpW | fin32 | fin16 | finp | parW | parB | revW | revB | pop
deriving DecidableEq, Repr

/-- The result of a CHK operation, for the operand ports and the trigger operand t (R403). -/
def chkR (op : ChkOp) (acc poly pcfg xout t : Word) : Word :=
  match op with
  | .c32cB => crcByte 0 poly pcfg acc (byteOf t 0)
  | .c32cW => crcWord 0 poly pcfg acc t
  | .c32B => crcByte 1 poly pcfg acc (byteOf t 0)
  | .c32W => crcWord 1 poly pcfg acc t
  | .c16B => crcByte 2 poly pcfg acc (byteOf t 0)
  | .c16W => crcWord 2 poly pcfg acc t
  | .cpB => crcByte 3 poly pcfg acc (byteOf t 0)
  | .cpW => crcWord 3 poly pcfg acc t
  | .fin32 => t ^^^ 0xFFFFFFFF
  | .fin16 => t &&& 0xFFFF
  | .finp => Machine.finp pcfg xout t
  | .parW => BitVec.ofNat 32 (popN t 32 % 2)
  | .parB => BitVec.ofNat 32 (parityByte t 0 + 2 * parityByte t 1 + 4 * parityByte t 2 + 8 * parityByte t 3)
  | .revW => Machine.revW t
  | .revB => Machine.revW ((byteOf t 0 <<< 24) ||| (byteOf t 1 <<< 16) ||| (byteOf t 2 <<< 8) ||| byteOf t 3)
  | .pop => BitVec.ofNat 32 (popN t 32)

/-- The latency of a CHK operation (R403). -/
def chkLat : ChkOp → Nat
  | .c32cW | .c32W | .c16W | .cpB => 2
  | .cpW => 3
  | _ => 1

/-- The socket a CHK operation writes: c at 0x070 or r at 0x071 (R402, R403). -/
def chkSock : ChkOp → Nat
  | .parW | .parB | .revW | .revB | .pop => 0x071
  | _ => 0x070

/-! ### MUL (R420) -/

/-- The MUL triggers. -/
inductive MulOp
  | mul | mulu | mulv | mulvu
deriving DecidableEq, Repr

/-- The product as an integer: signed for mul and mulv. -/
def mulProduct (op : MulOp) (o t : Word) : Int :=
  match op with
  | .mul | .mulv => o.toInt * t.toInt
  | .mulu | .mulvu => (o.toNat * t.toNat : Nat)

/-- Bits [31:0] of the product. -/
def mulLo (op : MulOp) (o t : Word) : Word := BitVec.ofInt 32 (mulProduct op o t)

/-- Bits [63:32] of the product. -/
def mulHi (op : MulOp) (o t : Word) : Word := BitVec.ofInt 32 (mulProduct op o t / 2 ^ 32)

/-- The operation raises OVERFLOW. -/
def mulOv (op : MulOp) (o t : Word) : Bool :=
  match op with
  | .mulv => outside32 (mulProduct .mulv o t)
  | .mulvu => decide (mulHi .mulvu o t ≠ 0)
  | _ => false

/-! ### DIV (R421, R422) -/

/-- The DIV triggers. -/
inductive DivOp
  | div | divu | divq | divqu
deriving DecidableEq, Repr

/-- A signed division. -/
def DivOp.signed : DivOp → Bool
  | .div | .divq => true
  | _ => false

/-- The quotient. -/
def divR (op : DivOp) (o t : Word) : Word :=
  if t = 0 then 0xFFFFFFFF
  else if op.signed then BitVec.ofInt 32 (o.toInt.tdiv t.toInt) else BitVec.ofNat 32 (o.toNat / t.toNat)

/-- The remainder. -/
def divM (op : DivOp) (o t : Word) : Word :=
  if t = 0 then o
  else if op.signed then BitVec.ofInt 32 (o.toInt.tmod t.toInt) else BitVec.ofNat 32 (o.toNat % t.toNat)

/-- The cause code that the operation raises, if any: 0x0B DIVIDE_BY_ZERO, 0x0A OVERFLOW (R422, R518). -/
def divRaise (op : DivOp) (o t : Word) : Option Nat :=
  match op with
  | .div => if t = 0 then some 0x0B else if o = 0x80000000 ∧ t = 0xFFFFFFFF then some 0x0A else none
  | .divu => if t = 0 then some 0x0B else none
  | _ => none

/-! ### HSH: SHA-256 in groups of eight rounds (R423 to R427, FIPS 180-4) -/

/-- The largest n-bit number whose k-th power does not exceed x, when `r` holds the bits already found above. -/
def rootBits (k x : Nat) : Nat → Nat → Nat
  | 0, r => r
  | n + 1, r => rootBits k x n (if (r + 2 ^ n) ^ k ≤ x then r + 2 ^ n else r)

/-- The first 32 bits of the fractional part of the k-th root of p, as FIPS 180-4 defines its constants. -/
def rootFraction (k p : Nat) : Word := BitVec.ofNat 32 (rootBits k (p * 2 ^ (32 * k)) 37 0)

/-- The first 64 prime numbers, 16 at a time. -/
def primes0 : List Nat := [2, 3, 5, 7, 11, 13, 17, 19, 23, 29, 31, 37, 41, 43, 47, 53]
def primes1 : List Nat := [59, 61, 67, 71, 73, 79, 83, 89, 97, 101, 103, 107, 109, 113, 127, 131]
def primes2 : List Nat := [137, 139, 149, 151, 157, 163, 167, 173, 179, 181, 191, 193, 197, 199, 211, 223]
def primes3 : List Nat := [227, 229, 233, 239, 241, 251, 257, 263, 269, 271, 277, 281, 283, 293, 307, 311]

/-- The initial hash value of SHA-256: from the square roots of the first eight primes (R425). -/
def shaInit : List Word := (primes0.take 8).map (rootFraction 2)

/-- The round constant of round i: from the cube root of prime i. -/
def shaK (i : Nat) : Word := rootFraction 3 ((primes0 ++ primes1 ++ primes2 ++ primes3).getD i 0)

/-- Element i of a list of words, 0 beyond its end. -/
def nth (l : List Word) (i : Nat) : Word := l.getD i 0

/-- The three rotations, or two rotations and a shift, that SHA-256 mixes a word with. -/
def shaMix (x : Word) (i j k : Nat) : Word := x.rotateRight i ^^^ x.rotateRight j ^^^ x.rotateRight k
def shaStir (x : Word) (i j k : Nat) : Word := x.rotateRight i ^^^ x.rotateRight j ^^^ (x >>> k)

/-- Word j of the schedule beyond the sixteen held, from the last sixteen words (FIPS 180-4). -/
def shaNext (w : List Word) : Word := nth w 0 + nth w 9 + shaStir (nth w 1) 7 18 3 + shaStir (nth w 14) 17 19 10

/-- One round on the working variables, with round constant k and message word w: the new a and e are sums with the value that
the round adds to both. -/
def shaRound (k w : Word) (v : List Word) : List Word :=
  let pick := (nth v 4 &&& nth v 5) ||| (~~~nth v 4 &&& nth v 6)
  let most := (nth v 0 &&& nth v 1) ||| (nth v 2 &&& (nth v 0 ||| nth v 1))
  let both := k + w + nth v 7 + pick + shaMix (nth v 4) 6 11 25
  (both + most + shaMix (nth v 0) 2 13 22) :: v.take 3 ++ (nth v 3 + both) :: (v.drop 4).take 3

/-- n rounds from round i, on a schedule window whose first word is the round's message word; answers the working
variables and the window moved on. -/
def shaRounds : Nat → Nat → List Word → List Word → List Word × List Word
  | 0, _, w, v => (v, w)
  | n + 1, i, w, v => shaRounds n (i + 1) (w.drop 1 ++ [shaNext w]) (shaRound (shaK i) (nth w 0) v)

/-- Word by word sum. -/
def addWords : List Word → List Word → List Word
  | a :: l, b :: r => (a + b) :: addWords l r
  | _, _ => []

/-! ### CU compares (R441) -/

/-- The relation of a compare; none for the reserved REL 12 to 15. -/
def relHolds (rel : Nat) (o t : Word) : Bool :=
  match rel with
  | 0 => decide (o = t)
  | 1 => decide (o ≠ t)
  | 2 => decide (o.toInt < t.toInt)
  | 3 => decide (o.toNat < t.toNat)
  | 4 => decide (o.toInt ≤ t.toInt)
  | 5 => decide (o.toNat ≤ t.toNat)
  | 6 => decide (t.toInt < o.toInt)
  | 7 => decide (t.toNat < o.toNat)
  | 8 => decide (t.toInt ≤ o.toInt)
  | 9 => decide (t.toNat ≤ o.toNat)
  | 10 => decide (o &&& t ≠ 0)
  | _ => decide (o &&& t = 0)

end Sys2Proof.Machine
end

