-- ==== Sys2Proof/Machine/Mast.lean ====
section
/-! DEFINITION. What the Mast does for every block: the power state, page errors and page alerts (R230, R292 to R294),
ALERT_N causes and logbook events (R749 to R761). -/
namespace Sys2Proof.Machine
open Sys2Proof

/-! ### The power state (R91) -/

/-- PWR_STATE.STATE: 0 MOORED, 1 WAKING, 2 AWAKE, 3 MOORING. -/
def pwrState (s : State) : Nat := s.get pgMpwr MPWR.PWR_STATE_STATE
/-- The wafer is awake. -/
def awake (s : State) : Bool := s.power.standby && pwrState s == 2
/-- The wafer is moored, with its standby domain powered. -/
def moored (s : State) : Bool := s.power.standby && pwrState s == 0

/-- A command of the standby domain: without VSTBY nothing happens (R143, R271). -/
def ifStandby (g : State → State) (s : State) : Out := .next (if s.power.standby then g s else s)
/-- A command of the main domain: while the wafer is not awake there is nothing for it to act on (R137, R138). -/
def ifAwake (g : State → State) (s : State) : Out := .next (if awake s then g s else s)

/-! ### ALERT_N (R291 to R296) -/

/-- The bits of ALERT_CAUSE (R292). -/
def acPage : Nat := 0
def acPower : Nat := 1
def acMap : Nat := 2
def acTest : Nat := 3
def acEos : Nat := 4
def acEscalation : Nat := 5
def acLogbook : Nat := 6

/-- An event that asserts ALERT_N: its bit of ALERT_CAUSE set (R292). -/
def alert (c : Nat) (s : State) : State := s.setBit pgMast MAST.ALERT_CAUSE c true

/-- The Mast pulls ALERT_N low: some bit of ALERT_CAUSE is set (R291). -/
def alertDriven (s : State) : Bool := s.get pgMast MAST.ALERT_CAUSE != 0

/-- A page alert: PAGE set, and ALERT_PAGE taken when PAGE was 0 (R294). -/
def pageAlert (p : Nat) (s : State) : State :=
  let s := if bitAt (s.get pgMast MAST.ALERT_CAUSE) acPage then s
    else ((s.set pgMast MAST.ALERT_PAGE_LO_ADDRESS p).set pgMast MAST.ALERT_PAGE_HI_ADDRESS (p / 2 ^ 32)).set pgMast
      MAST.ALERT_PAGE_HI_VALID 1
  alert acPage s

/-- An alert event of a page: ALERT_N is asserted when ALERT_EN is 1 (R230). -/
def pageEvent (p : Nat) (s : State) : State :=
  if s.on p HDR.PAGE_CONTROL_ALERT_EN then pageAlert p s else s

/-- ERROR_PRESENT of a page (R227). -/
def errorPresent (s : State) (p : Nat) : Bool :=
  (s.word (p + 0x00C) &&& ~~~(s.word (p + 0x010))) != 0

/-- A page after a change: when ERROR_PRESENT rose, the page alert of R230. -/
def afterError (before : Bool) (p : Nat) (s : State) : State :=
  if !before && errorPresent s p then pageEvent p s else s

/-- A bit of PAGE_ERROR set, by its number 0 to 31 in the word. -/
def setError (p n : Nat) (s : State) : State :=
  afterError (errorPresent s p) p
    (s.setWord (p + 0x00C) (BitVec.ofNat 32 (putBit (s.word (p + 0x00C)).toNat n true)))

/-- A bit of PAGE_ERROR set by an event that its chapter names as an alert event of the page; PAGE_ERROR_MASK masks it (R227,
R230). -/
def alertError (p n : Nat) (s : State) : State :=
  let s := setError p n s
  if bitAt (s.get p HDR.PAGE_ERROR_MASK_MASK) n then s else pageEvent p s

/-- ALERT_CAUSE after a write of ones to some of its bits: clearing PAGE clears VALID (R293, R294). -/
def clearCause (v : Nat) (s : State) : State :=
  let s' := s.set pgMast MAST.ALERT_CAUSE (s.get pgMast MAST.ALERT_CAUSE &&& (0x7F ^^^ (v % 0x80)))
  if bitAt v acPage then s'.set pgMast MAST.ALERT_PAGE_HI_VALID 0 else s'

/-! ### Logbook events (R749 to R757) -/

/-- An event before it has a number: FIELD 63 and TILE 511 where it names none (R755); `alert` is the bit of
ALERT_CAUSE that it sets, if any, and `map` that it adds a defect-map record. -/
structure Event where
  code : Nat
  field : Nat := 63
  tile : Nat := 511
  arg0 : Nat := 0
  arg1 : Nat := 0
  alert : Option Nat := none
  map : Bool := false
deriving DecidableEq, Repr

/-- What R753 compares. -/
def Event.key (e : Event) : LogKey :=
  ⟨e.code, e.field, e.tile, BitVec.ofNat 32 e.arg0, BitVec.ofNat 32 e.arg1⟩

/-- The low `n` bytes of a number, lowest first. -/
def bytesOf (x : Nat) : Nat → List Byte
  | 0 => []
  | n + 1 => BitVec.ofNat 8 x :: bytesOf (x / 256) n

/-- CHECK of an event: CRC-32C over bytes 0 to 27 (R755, R790). -/
def eventCheck (low : Nat) : Nat := (crc32c (bytesOf low 28)).toNat

/-- The 256 bits of an event with a number (R755). -/
def eventBits (s : State) (e : Event) (seq : Nat) : BitVec 256 :=
  let aw := awake s
  let wt := if aw then s.m.wtime % 2 ^ 32 else 0
  let low := seq % 2 ^ 32 + s.power.rtc.toNat * 2 ^ 32 + wt * 2 ^ 80 + e.code * 2 ^ 112 + bit aw * 2 ^ 128 +
    bit e.alert.isSome * 2 ^ 129 + bit e.map * 2 ^ 130 + e.field * 2 ^ 136 + e.tile * 2 ^ 142 +
    e.arg0 % 2 ^ 32 * 2 ^ 160 + e.arg1 % 2 ^ 32 * 2 ^ 192
  BitVec.ofNat 256 (low + eventCheck low * 2 ^ 224)

/-- UNSAVED.COUNT (R758). -/
def unsaved (s : State) : Nat :=
  (s.get pgLogb LOGB.NEXT_SEQ_SEQ + 2 ^ 32 - s.get pgLogb LOGB.ACK_SEQ_SEQ) % 2 ^ 32

/-- The alert level of UNSAVED (R758). -/
def alertLevel (s : State) : Nat :=
  let l := s.get pgLogb LOGB.ALERT_LEVEL_LEVEL
  if 1 ≤ l ∧ l ≤ 8192 then l else 8192

/-- An alert event of the logbook with its PAGE_ERROR bit (R761). -/
def logAlert (n : Nat) (s : State) : State := setError pgLogb n (alert acLogbook s)

/-- An event given its number and queued, or dropped from a full queue (R749, R751, R761). -/
def numberEvent (e : Event) (s : State) : State :=
  let seq := s.get pgLogb LOGB.NEXT_SEQ_SEQ
  let ev := eventBits s e seq
  let s := s.set pgLogb LOGB.NEXT_SEQ_SEQ (seq + 1)
  let s := if unsaved s = alertLevel s then logAlert 16 s else s
  if s.log.queue.length < 64 then
    { s with log := { s.log with queue := s.log.queue ++ [ev], newest := some e.key, newestSeq := BitVec.ofNat 32 seq } }
  else
    let s := s.bumpSat pgLogb LOGB.COUNTS_QUEUE_DROP
    if (s.word (pgLogb + 0x00C)).getLsbD 19 then s else logAlert 19 s

/-- The event is merged into REPEAT (R753). -/
def merges (s : State) (e : Event) : Bool := s.log.newest == some e.key && e.code != 0x5001

/-- The REPEATS event of R753, when REPEAT is above 0. -/
def flushRepeat (s : State) : State :=
  let n := s.get pgLogb LOGB.REPEAT_COUNT
  if n = 0 then s
  else numberEvent { code := 0x5001, arg0 := n, arg1 := s.log.newestSeq.toNat } (s.set pgLogb LOGB.REPEAT_COUNT 0)

/-- An event raised: its alert asserted, then merged, or numbered after a pending REPEATS event (R753). -/
def raiseEvent (e : Event) (s : State) : State :=
  let s := match e.alert with
    | some c => alert c s
    | none => s
  if merges s e then s.bump pgLogb LOGB.REPEAT_COUNT else numberEvent e (flushRepeat s)

/-- The number that an event takes when it is raised; that of the event it repeats where it is merged (R756). -/
def seqFor (s : State) (e : Event) : Nat :=
  if merges s e then s.log.newestSeq.toNat
  else (s.get pgLogb LOGB.NEXT_SEQ_SEQ + bit (s.get pgLogb LOGB.REPEAT_COUNT != 0)) % 2 ^ 32

/-- The order of events of one edge: those with no field first, then by field, tile and code (R750). -/
def Event.before (a b : Event) : Bool :=
  let k := fun (e : Event) => ((e.field + 1) % 64 * 512 + e.tile) * 65536 + e.code
  decide (k a ≤ k b)

/-- An event put in its place among those of its edge. -/
def insertEvent (e : Event) : List Event → List Event
  | [] => [e]
  | x :: r => if e.before x then e :: x :: r else x :: insertEvent e r

/-- The events of one edge, raised in the order of R750. -/
def raiseAll (es : List Event) (s : State) : State := (es.foldr insertEvent []).foldl (fun s e => raiseEvent e s) s

end Sys2Proof.Machine
end

