-- ==== Sys2Proof/Machine/DefectMap.lean ====
section
/-! DEFINITION. The defect map: records, areas, their effect, entries, compaction, reconciliation and the writing of copy B
(R186 to R207). -/
namespace Sys2Proof.Machine
open Sys2Proof

/-! ### Records (R187, R188) -/

/-- Bits [127:32] of a record. -/
def recHigh (r : MapRec) : Nat :=
  r.gen.toNat * 2 ^ 64 + r.kind * 2 ^ 60 + r.source * 2 ^ 56 + r.field * 2 ^ 50 + r.locator * 2 ^ 32 + r.remark * 2 ^ 24 +
    r.logseq

/-- The 128 bits of a record, CHECK included (R187, R790). -/
def recBits (r : MapRec) : Nat := recHigh r * 2 ^ 32 + (crc32c (bytesOf (recHigh r) 12)).toNat

/-- Bits [95:64] of a record. -/
def recDesc (r : MapRec) : Nat := r.kind * 2 ^ 28 + r.source * 2 ^ 24 + r.field * 2 ^ 18 + r.locator

/-- LOCATOR of a tile, of a bank and of a lane (R188). -/
def tileLoc (t : Nat) : Nat := t / 26 * 2 ^ 13 + t % 26 * 2 ^ 8
def bankLoc (t b : Nat) : Nat := tileLoc t + b
def laneLoc (ctype cindex lane : Nat) : Nat := ctype * 2 ^ 16 + cindex * 2 ^ 10 + lane

/-- The fields of a record fit their bits, and its KIND and SOURCE are not reserved (R187). -/
def MapRec.ok (r : MapRec) : Bool :=
  decide (1 ≤ r.kind) && decide (r.kind ≤ 4) && decide (r.source ≤ 3) && decide (r.field < 64) && decide (r.locator < 2 ^ 18) &&
    decide (r.remark < 256) && decide (r.logseq < 2 ^ 24)

/-- The record that 16 bytes hold when they are a valid slot: a correct CHECK, and neither KIND nor SOURCE reserved (R187, R192). -/
def slotRec (w : BitVec 128) : Option MapRec :=
  let n := w.toNat
  let r : MapRec := ⟨BitVec.ofNat 32 (bits n 96 32), bits n 92 4, bits n 88 4, bits n 82 6, bits n 64 18, bits n 56 8, bits n 32 24⟩
  if crc32c (bytesOf (n / 2 ^ 32) 12) = BitVec.ofNat 32 n ∧ r.ok = true then some r else none

/-- A slot that holds a record. -/
def recSlot (r : MapRec) : MapSlot := .word (BitVec.ofNat 128 (recBits r))

/-- All 16 bytes read 0xFF (R192). -/
def MapSlot.isErased : MapSlot → Bool
  | .word w => w == BitVec.allOnes 128
  | .torn => false

/-- The record of a valid slot; none for a torn one (R192). -/
def MapSlot.record : MapSlot → Option MapRec
  | .word w => slotRec w
  | .torn => none

/-- KIND, FIELD and LOCATOR agree (R196). -/
def MapRec.same (a b : MapRec) : Bool := a.kind == b.kind && a.field == b.field && a.locator == b.locator

/-! ### Areas and copies (R190 to R193) -/

/-- Bytes 0x00 to 0x1B of an area's header, in the order of the table of R190. -/
def MapArea.headerBytes (x : MapArea) : List Byte :=
  bytesOf x.magic.toNat 4 ++ bytesOf x.format.toNat 2 ++ bytesOf x.grade.toNat 2 ++ bytesOf x.waferId.toNat 8 ++
    bytesOf x.baseGen.toNat 4 ++ bytesOf x.areaSeq.toNat 4 ++ bytesOf x.reserved.toNat 4

/-- MAGIC, FORMAT and HCHECK are correct (R190, R191, R790). -/
def MapArea.headerOk (x : MapArea) : Bool :=
  x.magic == 0x50414D44 && x.format == 1 && x.hcheck == crc32c x.headerBytes

/-- An area of the wafer `id` is valid (R191). -/
def MapArea.valid (id : BitVec 64) (x : MapArea) : Bool := x.headerOk && x.waferId == id

/-- The slots that the Mast reads: those below the first erased one (R192). -/
def MapArea.read (x : MapArea) : List MapSlot := x.slots.takeWhile fun y => !y.isErased

/-- The valid records of an area, in slot order; a record that stands in two slots shows twice. -/
def MapArea.recs (x : MapArea) : List MapRec := x.read.filterMap MapSlot.record

/-- The torn slots of an area (R192). -/
def MapArea.torn (x : MapArea) : Nat := (x.read.filter fun y => y.record.isNone).length

/-- The map generation (R193). -/
def MapArea.gen (x : MapArea) : Nat := x.recs.foldl (fun g r => max g r.gen.toNat) x.baseGen.toNat

/-- The number of the current area of a copy (R191); area 0 where two valid areas have one AREA_SEQ (DESIGN CHOICE, log 67). -/
def currentIx (id : BitVec 64) (x0 x1 : MapArea) : Option Nat :=
  if x0.valid id && x1.valid id then some (if x0.areaSeq.toNat < x1.areaSeq.toNat then 1 else 0)
  else if x0.valid id then some 0 else if x1.valid id then some 1 else none

/-- The current area of a copy. -/
def currentOf (id : BitVec 64) (x0 x1 : MapArea) : Option MapArea :=
  (currentIx id x0 x1).map fun i => if i = 0 then x0 else x1

def ixA (s : State) : Option Nat := currentIx s.map.waferId s.map.a0 s.map.a1
def ixB (s : State) : Option Nat := currentIx s.map.waferId s.map.b0 s.map.b1
def mapA (s : State) : Option MapArea := currentOf s.map.waferId s.map.a0 s.map.a1
/-- The current area of copy B, where there is a flash to read (R202). -/
def mapB (s : State) : Option MapArea := if s.on pgDmap DMAP.MAP_STATUS_FLASH_ABSENT then none else currentOf s.map.waferId s.map.b0 s.map.b1
/-- The valid records of copy A, in slot order. -/
def recsA (s : State) : List MapRec := ((mapA s).map MapArea.recs).getD []
def recsB (s : State) : List MapRec := ((mapB s).map MapArea.recs).getD []

/-- A header for its fields, with its HCHECK (R190). -/
def withHcheck (x : MapArea) : MapArea := { x with hcheck := crc32c x.headerBytes }

/-- A freshly written area (R190, R217). -/
def freshArea (id : BitVec 64) (grade : Nat) (gen seq : Word) (rs : List MapRec) : MapArea :=
  withHcheck ⟨0x50414D44, 1, BitVec.ofNat 16 grade, id, gen, seq, 0, 0, rs.map recSlot⟩

/-- AREA_SEQ for the next fresh area of a copy; 1 where the copy has no current area (DESIGN CHOICE, log 67). -/
def nextSeq (id : BitVec 64) (x0 x1 : MapArea) : Word :=
  match currentOf id x0 x1 with
  | some x => x.areaSeq + 1
  | none => 1

/-- Copy A written whole into its other area (R190, R204). -/
def writeA (grade : Nat) (gen : Word) (rs : List MapRec) (s : State) : State :=
  let m := s.map
  let x := freshArea m.waferId grade gen (nextSeq m.waferId m.a0 m.a1) rs
  match ixA s with
  | some 0 => { s with map := { m with a1 := x } }
  | _ => { s with map := { m with a0 := x } }

/-! ### The effect of a copy (R203) -/

/-- The fields with a FIELD record. -/
def retiredFields (rs : List MapRec) : List Nat := (rs.filter fun r => r.kind == 4).map MapRec.field

/-- The two fields of the channel of a LANE record; a landing channel's one field twice (R189, R203). -/
def laneFields (r : MapRec) : Nat × Nat :=
  let e := endOfCode (r.locator / 2 ^ 16) (r.locator / 2 ^ 10 % 64)
  if r.locator / 2 ^ 16 = 3 then (r.field, r.field) else (r.field, (partnerEnd r.field e).1)

/-- A record affects the usable set (R203). -/
def affects (rs : List MapRec) (r : MapRec) : Bool :=
  let fs := retiredFields rs
  match r.kind with
  | 4 => true
  | 1 => !fs.contains r.field
  | 2 => !fs.contains r.field &&
      !rs.any fun q => q.kind == 1 && q.field == r.field && q.locator == r.locator / 8 * 8
  | 3 => !fs.contains (laneFields r).1 && !fs.contains (laneFields r).2
  | _ => false

/-- The records that affect the usable set. -/
def effect (rs : List MapRec) : List MapRec := rs.filter (affects rs)

/-- Two copies have the same effect. -/
def sameEffect (a b : List MapRec) : Bool :=
  let ea := effect a; let eb := effect b
  ea.all (fun r => eb.any r.same) && eb.all (fun r => ea.any r.same)

/-- Two copies hold the same records (R204). -/
def sameRecords (a b : List MapRec) : Bool := a.all b.contains && b.all a.contains

/-- Records with one KIND, FIELD and LOCATOR once, the earlier kept. -/
def dedupe : List MapRec → List MapRec
  | [] => []
  | r :: rs => r :: (dedupe rs).filter fun q => !q.same r

/-- The union of R205: the first copy's records stand. One of more than 4,094 records is written all the same (DESIGN CHOICE,
log 67). -/
def unionRecs (a b : List MapRec) : List MapRec := dedupe (a ++ b)

/-! ### What copy A records -/

def hasRec (s : State) (kind field loc : Nat) : Bool :=
  (recsA s).any fun r => r.kind == kind && r.field == field && r.locator == loc

/-- What is retired: by a record of copy A, or for the rest of the wake without one (R197). -/
def retiredRecs (s : State) : List MapRec := recsA s ++ s.m.unrecorded

/-- The field is retired whole (R98). -/
def fieldRetired (s : State) (f : Nat) : Bool := (retiredFields (retiredRecs s)).contains f

/-- The tile is recorded as retired. -/
def tileRecorded (s : State) (f t : Nat) : Bool := hasRec s 1 f (tileLoc t)

/-- The lanes of a channel end that are retired, as a set of bits (R189). -/
def lanesRecorded (s : State) (h e : Nat) : Nat :=
  let p := recordEnd h e; let c := channelCode p.2
  (retiredRecs s).foldl (fun m r =>
    if r.kind = 3 ∧ r.field = p.1 ∧ r.locator / 2 ^ 10 = c.1 * 64 + c.2 then m ||| 2 ^ (r.locator % 128) else m) 0

/-! ### The DMAP page -/

/-- Copy B lacks an entry of copy A (R194). -/
def bBehind (s : State) : Bool := (recsA s).any fun r => !(recsB s).contains r

/-- READ_WORD0 to READ_WORD3 show the record that READ_INDEX selects (R221). -/
def showRecord (s : State) : State :=
  let w := match (recsA s)[s.get pgDmap DMAP.READ_INDEX_INDEX]? with
    | some r => recBits r
    | none => 0
  (((s.set pgDmap DMAP.READ_WORD0_WORD w).set pgDmap DMAP.READ_WORD1_WORD (w / 2 ^ 32)).set pgDmap
    DMAP.READ_WORD2_WORD (w / 2 ^ 64)).set pgDmap DMAP.READ_WORD3_WORD (w / 2 ^ 96)

/-- The registers of DMAP that show copy A and copy B's lag (R194, R220, R221). -/
def mapRegs (s : State) : State :=
  let g := match mapA s with
    | some x => x.gen
    | none => 0
  let s := s.set pgDmap DMAP.MAP_GEN_GEN g
  let s := s.set pgDmap DMAP.MAP_COUNT_RECORDS (recsA s).length
  showRecord (s.set pgDmap DMAP.MAP_STATUS_B_BEHIND (bit (bBehind s)))

/-! ### Writing copy B (R194, R197, R200, R201, R204) -/

/-- The code of a flash command (R200). -/
def FlashCmd.code : FlashCmd → Nat
  | .resetEnable => 0x66 | .reset => 0x99 | .readSfdp => 0x5A | .readId => 0x9F | .fastRead => 0x0B | .writeEnable => 0x06
  | .pageProgram => 0x02 | .sectorErase => 0x20 | .readStatus => 0x05

/-- What the Mast does with FLS_IO0 to FLS_IO3 during a transaction (R200). -/
inductive FlsUse
  | dataToFlash | dataFromFlash | heldHigh
deriving DecidableEq, Repr

def flsUse (io : Nat) : FlsUse := if io = 0 then .dataToFlash else if io = 1 then .dataFromFlash else .heldHigh

/-- The commands that begin an operation (R200). -/
def FlashOp.begins : FlashOp → List FlashCmd
  | .erase _ _ _ => [.writeEnable, .sectorErase]
  | _ => [.writeEnable, .pageProgram]

/-- A flash operation starts. -/
def beginFlash (op : FlashOp) (s : State) : State := { s with map := { s.map with flashOp := some op, sent := op.begins } }

/-- Record pages of a whole copy, 16 slots each with the header's two; the header is written after them. -/
def WholeCopy.pages (w : WholeCopy) : Nat := (w.recs.length + 2 + 15) / 16

/-- The flash may be used: present, and no fault stopped it. -/
def flashUsable (s : State) : Bool := !s.on pgDmap DMAP.MAP_STATUS_FLASH_ABSENT && !s.map.flashStopped

/-- Copy B's other area, for a whole-copy write; area 0 where it has no current one (R202). -/
def otherB (s : State) : Nat :=
  match ixB s with
  | some 0 => 1
  | _ => 0

/-- Area i of copy B set. -/
def setB (i : Nat) (x : MapArea) (s : State) : State :=
  if i = 0 then { s with map := { s.map with b0 := x } } else { s with map := { s.map with b1 := x } }

/-- A whole-copy write starts with the erase of its area, whose content is gone from then on. -/
def startWhole (w : WholeCopy) (s : State) : State := beginFlash (.erase w 0 false) (setB w.area .erased s)

/-- The flash starts the next operation for copy B, when it has none: a whole copy, then entries in the order of addition. A full
area is compacted first: copy B's own records that affect the usable set, with its own generation; where that frees no slot its
entries wait on (R194, R197). -/
def pumpFlash (s : State) : State :=
  if s.map.flashOp.isSome || !flashUsable s then s
  else match s.map.bWhole, s.map.bQueue, mapB s with
  | some w, _, _ => startWhole w { s with map := { s.map with bWhole := none } }
  | none, r :: rest, some x =>
    let e := effect (dedupe x.recs)
    if x.slots.length < 4094 then beginFlash (.slot r false) { s with map := { s.map with bQueue := rest } }
    else if e.length < 4094 then startWhole ⟨otherB s, e, BitVec.ofNat 32 x.gen, false⟩ s
    else s
  | _, _, _ => s

/-- The next erased slot of copy B's current area as a program leaves it. -/
def addSlotB (y : MapSlot) (s : State) : State :=
  match ixB s with
  | some 0 => setB 0 { s.map.b0 with slots := s.map.b0.slots ++ [y] } s
  | some _ => setB 1 { s.map.b1 with slots := s.map.b1.slots ++ [y] } s
  | none => s

/-- The address of a flash operation: ARG0 of a FLASH_FAULT event (R757). -/
def flashAddr (s : State) : FlashOp → Nat
  | .slot _ _ => ((ixB s).getD 0) * 0x10000 + (((mapB s).map fun x => x.slots.length).getD 0 + 2) * 16
  | .erase w i _ => w.area * 0x10000 + i * 4096
  | .page w i => w.area * 0x10000 + (if i = w.pages then 0 else i * 256)

/-- What repeats an operation that has failed, none where it was the repeat (R201): a record goes to the next erased slot, a sector is
erased again, and a whole copy begins again with its area erased. -/
def FlashOp.repeats : FlashOp → Option FlashOp
  | .slot r false => some (.slot r true)
  | .erase w i false => some (.erase w i true)
  | .page w _ => if w.redo then none else some (.erase { w with redo := true } 0 false)
  | _ => none

/-- A flash fault of the operation in progress; `how` is 0 program, 1 erase, 2 read-back. The slot that it leaves is torn, or valid
where the program has completed late (R201). -/
def flashFault (how : Nat) (late : Bool) (s : State) : State :=
  match s.map.flashOp with
  | none => s
  | some op =>
    let addr := flashAddr s op
    let s := match op with
      | .slot r _ => addSlotB (if late then recSlot r else .torn) s
      | _ => s
    match op.repeats with
    | some op => beginFlash op s
    | none =>
      let s := { s with map := { s.map with flashOp := none, flashStopped := true } }
      raiseEvent { code := 0x3004, arg0 := addr, arg1 := how, alert := some acMap }
        (s.set pgDmap DMAP.MAP_STATUS_FLASH_FAULT 1)

/-- The header of a whole copy that is written: its area is the current one from now on (R190). -/
def wholeWritten (w : WholeCopy) (s : State) : State :=
  let seq := nextSeq s.map.waferId (if w.area = 0 then .erased else s.map.b0) (if w.area = 1 then .erased else s.map.b1)
  let s := setB w.area (freshArea s.map.waferId (s.get pgDmap DMAP.GRADE_GRADE) w.baseGen seq w.recs) s
  { s with map := { s.map with flashOp := none, bQueue := s.map.bQueue.filter fun r => !w.recs.contains r } }

/-- A flash operation done: what follows it (R190, R200). -/
def flashDone (s : State) : State :=
  match s.map.flashOp with
  | none => s
  | some (.slot r _) =>
    let s := addSlotB (recSlot r) s
    mapRegs (pumpFlash { s with map := { s.map with flashOp := none } })
  | some (.erase w i _) => beginFlash (if i + 1 < 16 then .erase w (i + 1) false else .page w 0) s
  | some (.page w i) => if i < w.pages then beginFlash (.page w (i + 1)) s else mapRegs (pumpFlash (wholeWritten w s))

/-- Copy B is to be written whole with copy A as it stands and its map generation (R202, R204). -/
def startWholeB (area : Nat) (s : State) : State :=
  match mapA s with
  | some x =>
    pumpFlash { s with map := { s.map with bWhole := some ⟨area, x.recs, BitVec.ofNat 32 x.gen, false⟩, bQueue := [] } }
  | none => s

/-! ### Adding an entry (R193 to R198) -/

/-- An entry of the map as its cause names it. -/
structure MapEntry where
  kind : Nat
  source : Nat
  field : Nat
  locator : Nat
  remark : Nat := 0
deriving DecidableEq, Repr

/-- What became of an entry. -/
inductive Added
  | yes | duplicate | full
deriving DecidableEq, Repr

/-- A record appended to copy A; the area has room. Copy B follows once a wake has reconciled the copies; what is added before stays
for the reconciliation (R194). -/
def appendA (r : MapRec) (s : State) : State :=
  let s := match ixA s with
    | some 0 => { s with map := { s.map with a0 := { s.map.a0 with slots := s.map.a0.slots ++ [recSlot r] } } }
    | some _ => { s with map := { s.map with a1 := { s.map.a1 with slots := s.map.a1.slots ++ [recSlot r] } } }
    | none => s
  let s := if s.map.following then pumpFlash { s with map := { s.map with bQueue := s.map.bQueue ++ [r] } } else s
  mapRegs s

/-- A retirement that holds without a record: for the rest of the wake, none while the wafer is moored (R197). -/
def holdUnrecorded (r : MapRec) (s : State) : State :=
  if pwrState s = 0 ∨ s.m.unrecorded.any r.same then s
  else { s with m := { s.m with unrecorded := s.m.unrecorded ++ [r] } }

/-- One record committed, with compaction where the area is full (R193, R197). -/
def commitRec (e : MapEntry) (logseq : Nat) (s : State) : State × Added :=
  match mapA s with
  | none => (s, .full)
  | some x =>
    let s := if x.slots.length < 4094 then s else writeA x.grade.toNat (BitVec.ofNat 32 x.gen) (effect x.recs) s
    match mapA s with
    | none => (s, .full)
    | some y =>
      let r : MapRec := ⟨BitVec.ofNat 32 (y.gen + 1), e.kind, e.source, e.field, e.locator, e.remark, logseq % 2 ^ 24⟩
      if y.slots.length < 4094 then (appendA r s, .yes)
      else (holdUnrecorded { r with gen := 0 }
        (raiseEvent { code := 0x3006, alert := some acMap } (s.set pgDmap DMAP.MAP_STATUS_MAP_FULL 1)), .full)

/-- Every tile of the field has a TILE record (R198). -/
def allTilesRecorded (s : State) (f : Nat) : Bool :=
  decide (468 ≤ (recsA s).length) && (List.range 468).all fun t => tileRecorded s f t

/-- The FIELD record of a field whose tiles all have TILE records, with the SOURCE and the event of the last of them (R198, R208). -/
def fieldRecord (s : State) (f : Nat) : State :=
  if fieldRetired s f || !allTilesRecorded s f then s
  else match ((recsA s).filter fun r => r.kind == 1 && r.field == f).getLast? with
    | some r => (commitRec { kind := 4, source := r.source, field := f, locator := 0 } r.logseq s).1
    | none => s

/-- The FIELD records that the entries of an edge or a union call for, after those entries (R195, R198). -/
def fieldRecords (s : State) : State := ((List.range 56).filter (allTilesRecorded s)).foldl fieldRecord s

/-- An entry added under R194 and R196. -/
def addEntry (e : MapEntry) (logseq : Nat) (s : State) : State × Added :=
  if hasRec s e.kind e.field e.locator then (s, .duplicate) else commitRec e logseq s

/-- An event with the entry that it adds; where the entry stands already, a DUPLICATE_ENTRY event too (R196, R750,
R756). -/
def raiseEntry (ev : Event) (e : MapEntry) (s : State) : State × Added :=
  let r := addEntry e (seqFor s ev) s
  match r.2 with
  | .duplicate =>
    let d : Event := { code := 0x3008, field := e.field, tile := ev.tile,
                       arg0 := recDesc ⟨0, e.kind, e.source, e.field, e.locator, 0, 0⟩ }
    (raiseAll [ev, d] r.1, r.2)
  | .yes => (raiseEvent { ev with map := true } r.1, r.2)
  | .full => (raiseEvent ev r.1, r.2)

/-! ### Reconciliation (R203 to R207) -/

/-- The RECONCILED event (R204, R757); ALERT_N for the material and the single case. -/
def reconcileEvent (n : Nat) (s : State) : State :=
  let s := s.set pgDmap DMAP.MAP_STATUS_RECONCILE n
  let s := mapRegs s
  raiseEvent { code := 0x3001, arg0 := n, arg1 := s.get pgDmap DMAP.MAP_GEN_GEN,
               alert := if 2 ≤ n then some acMap else none } s

/-- The torn slots found at this reading; copy B is read where it can be used (R192, R202, R220). -/
def countTorn (s : State) : State :=
  let n := ((mapA s).map MapArea.torn).getD 0 + ((mapB s).map MapArea.torn).getD 0
  s.set pgDmap DMAP.MAP_COUNT_TORN (min n 65535)

/-- The two copies compared and resolved; none when neither has a current area (R204 to R206). -/
def resolve (s : State) : Option State :=
  match mapA s, mapB s with
  | none, none => none
  | some a, none =>
    let s := s.set pgDmap DMAP.GRADE_GRADE a.grade.toNat
    some (reconcileEvent 3 (startWholeB (otherB s) s))
  | none, some b =>
    let s := s.set pgDmap DMAP.GRADE_GRADE b.grade.toNat
    some (reconcileEvent 3 (writeA b.grade.toNat (BitVec.ofNat 32 b.gen) (dedupe b.recs) s))
  | some a, some b =>
    let s := s.set pgDmap DMAP.GRADE_GRADE a.grade.toNat
    if sameRecords a.recs b.recs then
      some (mapRegs (s.set pgDmap DMAP.MAP_STATUS_RECONCILE 0))
    else if sameEffect a.recs b.recs then
      if b.gen ≤ a.gen then some (reconcileEvent 1 (startWholeB (otherB s) s))
      else some (reconcileEvent 1 (writeA b.grade.toNat (BitVec.ofNat 32 b.gen) (dedupe b.recs) s))
    else
      let u := if b.gen ≤ a.gen then unionRecs a.recs b.recs else unionRecs b.recs a.recs
      let g := BitVec.ofNat 32 (max a.gen b.gen + 1)
      let s := writeA a.grade.toNat g u s
      some (reconcileEvent 2 (pumpFlash { s with map := { s.map with bWhole := some ⟨otherB s, u, g, false⟩ } }))

/-- Reconciliation: what waited for copy B is dropped, the copies are resolved, and copy B follows copy A from then on; a union that
completes a field's tiles adds its FIELD record (R198, R203 to R207). -/
def reconcile (s : State) : Option State :=
  let s := countTorn { s with map := { s.map with bQueue := [], bWhole := none, flashOp := none, flashStopped := false } }
  (resolve s).map fun s => fieldRecords { s with map := { s.map with following := true } }

/-- FLASH_FAULT cleared, at the start of a wake and by MAP_SYNC (R201). -/
def clearFlashFault (s : State) : State := s.set pgDmap DMAP.MAP_STATUS_FLASH_FAULT 0

/-- The commands of a probe: reset at a wake alone, then the SFDP table and the JEDEC ID; where the flash meets R199 its areas are read
(R200). -/
def probeCmds (wake meets : Bool) : List FlashCmd :=
  (if wake then [.resetEnable, .reset] else []) ++ [.readSfdp, .readId] ++ (if meets then [.fastRead] else [])

/-- The flash probe of a wake or MAP_SYNC (R201, R202). -/
def probeFlash (wake meets : Bool) (jedec : Word) (s : State) : State :=
  let s := { s with map := { s.map with flashStopped := false, flashOp := none, sent := probeCmds wake meets } }
  let s := s.set pgDmap DMAP.MAP_STATUS_FLASH_ABSENT (bit !meets)
  let m := s.map
  let fid := ([m.b0, m.b1].find? fun x => x.headerOk && x.waferId != m.waferId).map MapArea.waferId
  let isForeign := meets && (ixB s).isNone && fid.isSome
  let s := s.set pgDmap DMAP.MAP_STATUS_FLASH_FOREIGN (bit isForeign)
  if !meets then raiseEvent { code := 0x3002, arg0 := jedec.toNat, alert := some acMap } s
  else if isForeign then
    raiseEvent { code := 0x3003, arg0 := jedec.toNat, arg1 := (fid.getD 0).toNat % 2 ^ 32, alert := some acMap } s
  else s

end Sys2Proof.Machine
end

