-- ==== Sys2Proof/Machine/Berths.lean ====
section
/-! DEFINITION. Tiles by logical identifier (R601), berth slots (R322, R325), the marks of damage and loss (R339 to R341) and
suspension (R344, R345). -/
namespace Sys2Proof.Machine
open Sys2Proof

/-! ### The crossing sequencer's state (R306) -/

def cseqState (s : State) : Nat := s.get pgCseq CSEQ.CSEQ_STATUS_STATE
/-- CSEQ is STOPPED: the wafer is at slack water (R306). -/
def cseqStopped (s : State) : Bool := cseqState s == 0
/-- The number of the crossing that is running or was last opened (R312). -/
def curNo (s : State) : Nat := s.get2 pgCseq CSEQ.CUR_NO_LO_NO CSEQ.CUR_NO_HI_NO
/-- The state with the crossing sequencer's own part changed. -/
def State.modX (s : State) (g : XingSt → XingSt) : State := { s with m := { s.m with x := g s.m.x } }

/-! ### Tile states (R165, R168) and identifiers -/

/-- The state of a tile in the roster. -/
def tileState (s : State) (f t : Nat) : Nat :=
  bits (s.get (pgRostf f) (ROSTF.TILE_STATE.at (t / 8))) (4 * (t % 8)) 4

/-- The state with a tile's roster entry set. -/
def setTileState (f t v : Nat) (s : State) : State :=
  let F := ROSTF.TILE_STATE.at (t / 8)
  let w := s.get (pgRostf f) F
  s.set (pgRostf f) F (w - bits w (4 * (t % 8)) 4 * 2 ^ (4 * (t % 8)) + v * 2 ^ (4 * (t % 8)))

def fieldState (s : State) (f : Nat) : Nat := s.get (pgRostf f) ROSTF.FIELD_STATE_STATE
def setFieldState (f v : Nat) (s : State) : State := s.set (pgRostf f) ROSTF.FIELD_STATE_STATE v
def fieldReady (s : State) (f : Nat) : Bool := fieldState s f == 3

/-- READY, READY_DEGRADED or STOPPED (R173). -/
def tileReady (s : State) (f t : Nat) : Bool :=
  let v := tileState s f t
  v == 2 || v == 3 || v == 8

/-- The tile is in logical use (R209): a LOST tile is so until it is retired. -/
def tileInUse (s : State) (f t : Nat) : Bool := tileReady s f t || tileState s f t == 7

/-- The tile's logical identifier, if it holds one (R612). -/
def lidOf (s : State) (f t : Nat) : Option Nat :=
  if s.on (pgTile f t 2) TP2.LID_VALID then some (s.get (pgTile f t 2) TP2.LID_ID) else none

/-- The logical map (R601): the tiles in use with a valid identifier, as (identifier, tile key). -/
def lidMap (s : State) : List (Nat × Nat) :=
  s.live.filterMap fun e =>
    if clsOf e.1 = 8 ∧ pageNoOf e.1 = 2 ∧ offOf e.1 = 0x800 ∧ e.2.getLsbD 31 ∧ tileInUse s (fieldOf e.1) (tileOf e.1)
    then some (e.2.toNat % 2 ^ 16, tileKey (fieldOf e.1) (tileOf e.1)) else none

/-- The tile in use that holds an identifier, by tile key. -/
def tileOfLid (s : State) (lid : Nat) : Option Nat := ((lidMap s).find? fun p => p.1 == lid).map Prod.snd

/-! ### Berth slots (R322, R325) -/

/-- A field of the slot of berth b. -/
def berthGet (s : State) (b : Nat) (F : Fld) : Nat := s.get (pgBerth b) (F.at (b % 48))
def berthSet (b : Nat) (F : Fld) (v : Nat) (s : State) : State := s.set (pgBerth b) (F.at (b % 48)) v

/-- The slot of berth b as it stands live. -/
def slotOf (s : State) (b : Nat) : Latched :=
  { berth := b
    base := berthGet s b BERTH.DESC_BASE, count := berthGet s b BERTH.DESC_COUNT
    replay := berthGet s b BERTH.DESC_REPLAY == 1, capture := berthGet s b BERTH.DESC_CAPTURE == 1
    budget := berthGet s b BERTH.BUDGET_LO_BUNDLES + berthGet s b BERTH.BUDGET_HI_BUNDLES * 2 ^ 32
    holder := berthGet s b BERTH.HOLDER_TILE
    snapBase := berthGet s b BERTH.SNAP_REGION_BASE, snapPages := berthGet s b BERTH.SNAP_REGION_PAGES
    holdBase := berthGet s b BERTH.SNAP_REGION_HOLD_BASE
    replayNo := berthGet s b BERTH.REPLAY_NO_LO_NO + berthGet s b BERTH.REPLAY_NO_HI_NO * 2 ^ 32
    sink := berthGet s b BERTH.SINK_TILE }

/-- The berths whose live slot is used, ascending. -/
def liveSlots (s : State) : List Latched :=
  (s.live.filterMap fun e =>
    if clsOf e.1 = 1 ∧ 8 ≤ pageNoOf e.1 ∧ 0x40 ≤ offOf e.1 ∧ offOf e.1 % 64 = 0 then
      some ((pageNoOf e.1 - 8) * 48 + (offOf e.1 - 0x40) / 64)
    else none).filterMap fun b =>
      let l := slotOf s b
      if 1 ≤ l.count then some l else none

def Latched.holds (l : Latched) (lid : Nat) : Bool := decide (l.base ≤ lid) && decide (lid < l.base + l.count)

/-- The berth of a tile in the crossing: the latched slot that holds its identifier. -/
def berthOfLid (s : State) (lid : Nat) : Option BerthRun := s.m.x.berths.find? fun b => b.slot.holds lid

/-- The berths changed where a test holds. -/
def modBerths (p : BerthRun → Bool) (g : BerthRun → BerthRun) (s : State) : State :=
  s.modX fun x => { x with berths := x.berths.map fun b => if p b then g b else b }

/-! ### Suspension (R344, R345) -/

/-- A berth suspended: its event and alert (R345), its OUTCOME.SUSPENDED bit, and its place outside crossings. -/
def suspendBerth (b : Nat) (s : State) : State :=
  if s.m.x.suspended.contains b then s
  else
    let s := berthSet b BERTH.OUTCOME_SUSPENDED 1 s
    let s := s.modX fun x => { x with suspended := x.suspended ++ [b] }
    let s := modBerths (fun r => r.slot.berth == b) (fun r => { r with endSuspended := true, runs := false }) s
    raiseEvent { code := 0x4006, arg0 := b, arg1 := curNo s, alert := some acEscalation } s

/-! ### Damage and loss (R339, R341, R350) -/

/-- A tile is a party to a lost packet (R339): its berth is damaged, of a replay berth the same mark ends it STALLED (R350), a keeper
tile is marked. -/
def markParty (lid : Nat) (s : State) : State :=
  match berthOfLid s lid with
  | some b =>
    modBerths (fun r => r.slot.berth == b.slot.berth) (fun r => { r with damaged := true }) s
  | none =>
    match tileOfLid s lid with
    | some k => s.modX fun x =>
        if x.keeperDamaged.contains k then x else { x with keeperDamaged := x.keeperDamaged ++ [k] }
    | none => s

/-- Berths whose holder has been lost (R341): their HOLDER_LOST bits, the crossing sequencer's list and the crossing's marks. -/
def loseHolder (lid : Nat) (s : State) : State :=
  let holds := fun (l : Latched) => l.holder == lid && !l.replay
  let held := ((s.m.x.berths.map BerthRun.slot ++ liveSlots s).filter holds).map Latched.berth
  let s := held.foldl (fun s b => berthSet b BERTH.OUTCOME_HOLDER_LOST 1 s) s
  let s := s.modX fun x => { x with holderLost := held.foldl (fun l b => if l.contains b then l else l ++ [b]) x.holderLost }
  modBerths (fun r => holds r.slot) (fun r => { r with holderLost := true }) s

/-- The berths whose live slot has a tile with an identifier, replay berths apart. -/
def liveOf (lid : Nat) (s : State) : List Nat := ((liveSlots s).filter fun l => l.holds lid && !l.replay).map Latched.berth

/-- The berths with a tile that is gone: suspended at once while CSEQ is stopped, at slack water, else at the next one; those latched
for the crossing are marked by the caller. -/
def suspendGone (lid : Nat) (s : State) : State :=
  let mine := (s.m.x.berths.filter fun r => r.slot.holds lid && !r.slot.replay).map fun r => r.slot.berth
  if cseqStopped s then (mine ++ liveOf lid s).foldl (fun s b => suspendBerth b s) s
  else
    let late := (liveOf lid s).filter fun b => !mine.contains b
    s.modX fun x => { x with suspendReq := late.foldl (fun l b => if l.contains b then l else l ++ [b]) x.suspendReq }

/-- A tile that holds an identifier is lost (R339, R341): its berth is damaged and is suspended, as is a berth that is to hold it from
the next opening. -/
def markLost (lid : Nat) (s : State) : State :=
  let s := markParty lid s
  let s := modBerths (fun r => r.slot.holds lid && !r.slot.replay) (fun r => { r with tileLost := true }) s
  suspendGone lid (loseHolder lid s)

end Sys2Proof.Machine
end

