-- ==== Sys2Proof/Machine/Roster.lean ====
section
/-! DEFINITION. The readiness roster: channel entries, spare-column repair, the counts and bring-up bits that follow from
its entries, ROSTER_GEN and end of service (R146 to R170, R209 to R212, R218, R219). -/
namespace Sys2Proof.Machine
open Sys2Proof

/-! ### Channel entries (R157, R166) -/

/-- A channel entry bit of a field's page: READY and FENCED fields, bit number. -/
def chanFields (e : Nat) : Fld × Fld × Nat :=
  if e < 36 then (ROSTF.SEAM_E_READY_READY, ROSTF.SEAM_E_FENCED_FENCED, e)
  else if e < 88 then (ROSTF.SEAM_S_READY_READY, ROSTF.SEAM_S_FENCED_FENCED, e - 36)
  else (ROSTF.STAY_READY, ROSTF.STAY_FENCED, e - 88)

/-- One page's entry of a seam or stay channel set. -/
def setChan1 (p : Nat × Nat) (ready fenced : Bool) (s : State) : State :=
  let c := chanFields p.2
  (s.setBit (pgRostf p.1) c.1 c.2.2 ready).setBit (pgRostf p.1) c.2.1 c.2.2 fenced

/-- The entry of the channel of an end set: the west or north field's page for a seam, both pages for a stay; landing
channels have none (R166). -/
def setChan (h e : Nat) (ready fenced : Bool) (s : State) : State :=
  if 56 ≤ h ∨ 92 ≤ e then s
  else if isStay h e then setChan1 (partnerEnd h e) ready fenced (setChan1 (h, e) ready fenced s)
  else setChan1 (recordEnd h e) ready fenced s

/-- The channel of an end is reported ready; reported fenced. -/
def chanReady (s : State) (h e : Nat) : Bool :=
  let p := recordEnd h e; let c := chanFields p.2
  bitAt (s.get (pgRostf p.1) c.1) c.2.2
def chanFenced (s : State) (h e : Nat) : Bool :=
  let p := recordEnd h e; let c := chanFields p.2
  bitAt (s.get (pgRostf p.1) c.2.1) c.2.2

/-! ### Tile entries and spare-column repair (R209 to R212) -/

/-- A good tile: neither FAILED nor RETIRED (R209). -/
def goodState (v : Nat) : Bool := v != 5 && v != 6

/-- The good tiles of columns 0 to 23 of a row. -/
def rowGood (s : State) (f r : Nat) : Nat :=
  ((List.range 24).filter fun c => goodState (tileState s f (tileAt r c))).length

/-- The tile of a spare column is in logical use (R209). -/
def spareUsed (s : State) (f r c : Nat) : Bool :=
  let n := rowGood s f r
  if c = 24 then goodState (tileState s f (tileAt r 24)) && decide (n < 24)
  else goodState (tileState s f (tileAt r 25)) &&
    decide (n + bit (goodState (tileState s f (tileAt r 24))) < 24)

/-- The entry of a tile that has passed and is in use: READY, or READY_DEGRADED with a bank retired (R168). -/
def usedState (s : State) (f t : Nat) : Nat :=
  if s.get (pgTile f t 0) TP0.BANK_STATUS_IN_SERVICE = 0xFF then 2 else 3

/-- The entry of a tile that has passed (R168, R209, R210). -/
def passedState (s : State) (f t : Nat) : Nat :=
  if tileCol t < 24 ∨ spareUsed s f (tileRow t) (tileCol t) then usedState s f t else 4

/-- The tile has become READY or READY_DEGRADED for the first time: its matrix releases itself (R564). -/
def releaseMatrix (f t : Nat) (s : State) : State :=
  if s.on (pgTile f t 1) HDR.PAGE_CONTROL_HALT_REQ then s else s.set (pgTile f t 1) HDR.PAGE_STATUS_HALTED 0

/-- A tile that has passed takes its entry; in use, its matrix is released. -/
def enterPassed (f t : Nat) (s : State) : State :=
  let v := passedState s f t
  let s := setTileState f t v s
  if v = 4 then s else releaseMatrix f t s

/-- A SPARE tile that its row has come to use is promoted (R210, R211). -/
def promote1 (f t : Nat) (s : State) : State := if tileState s f t = 4 then enterPassed f t s else s

/-- Spare-column repair of a row after one of its tiles has become FAILED or RETIRED. -/
def promoteRow (f r : Nat) (s : State) : State := promote1 f (tileAt r 25) (promote1 f (tileAt r 24) s)

/-- Every tile entry of a field set to one value. -/
def setAllTiles (f v : Nat) (s : State) : State :=
  (List.range 59).foldl (fun s w =>
    s.set (pgRostf f) (ROSTF.TILE_STATE.at w) (if w = 58 then v * 0x1111 else v * 0x11111111)) s

/-! ### What follows from the entries (R162, R163, R165) -/

/-- The words of TILE_STATE that are not 0, with their fields. -/
def tileWords (s : State) : List (Nat × Nat) :=
  (s.live.filter fun e => decide (clsOf e.1 = 0) && decide (64 ≤ pageNoOf e.1) && decide (pageNoOf e.1 < 120) &&
    decide (0x100 ≤ offOf e.1)).map fun e => (pageNoOf e.1 - 64, e.2.toNat)

/-- The entries of a TILE_STATE word that meet a test. -/
def entries (p : Nat → Bool) (w : Nat) : Nat := ((List.range 8).filter fun i => p (bits w (4 * i) 4)).length

/-- The sum of a list of numbers. -/
def total (l : List Nat) : Nat := l.foldl (· + ·) 0

/-- READY, READY_DEGRADED or STOPPED. -/
def countedState (v : Nat) : Bool := v == 2 || v == 3 || v == 8

/-- The set bits among the low n bits of a number. -/
def setBitsOf (x n : Nat) : Nat := ((List.range n).filter fun i => bitAt x i).length

/-- FIELD_ON bit of a field. -/
def fieldOn (s : State) (f : Nat) : Bool := s.bit2 pgMpwr MPWR.FIELD_ON_LO_ON MPWR.FIELD_ON_HI_ON f
def landingOn (s : State) (k : Nat) : Bool := bitAt (s.get pgMpwr MPWR.LANDING_ON_ON) k
def landingReady (s : State) (k : Nat) : Bool := bitAt (s.get pgRoster ROSTER.LANDING_READY_READY) k

/-- The set of ready fields, bit f for field f. -/
def readyFields (s : State) : Nat :=
  (List.range 56).foldl (fun m f => if fieldReady s f then m + 2 ^ f else m) 0

/-- FIELD_READY, LOGICAL, TILE_COUNT and CHANNEL_COUNT as the entries give them. -/
def counts (s : State) : State :=
  let rf := readyFields s
  let s := s.set2 pgRoster ROSTER.FIELD_READY_LO_READY ROSTER.FIELD_READY_HI_READY rf
  let ws := tileWords s
  let s := (List.range 56).foldl (fun s f =>
    s.set (pgRostf f) ROSTF.LOGICAL_COUNT
      (total ((ws.filter fun p => p.1 == f).map fun p => entries countedState p.2))) s
  let s := s.set pgRoster ROSTER.TILE_COUNT_READY (total (ws.map fun p => entries countedState p.2))
  let s := s.set pgRoster ROSTER.TILE_COUNT_DEGRADED (total (ws.map fun p => entries (· == 3) p.2))
  let chans := fun (E S Y : Fld) => total ((List.range 56).map fun f =>
    setBitsOf (s.get (pgRostf f) E) 18 + setBitsOf (s.get (pgRostf f) S) 26 +
      ((List.range 4).filter fun j => decide (f < stayPartner f j) && bitAt (s.get (pgRostf f) Y) j).length)
  let r := chans ROSTF.SEAM_E_READY_READY ROSTF.SEAM_S_READY_READY ROSTF.STAY_READY
  let n := chans ROSTF.SEAM_E_FENCED_FENCED ROSTF.SEAM_S_FENCED_FENCED ROSTF.STAY_FENCED
  (s.set pgRoster ROSTER.CHANNEL_COUNT_READY r).set pgRoster ROSTER.CHANNEL_COUNT_FENCED n

/-- The fields condition of R163. -/
def fieldsDone (s : State) : Bool :=
  (List.range 56).all fun f => !fieldOn s f || fieldRetired s f || fieldState s f == 7 ||
    (decide (3 ≤ fieldState s f) && decide (fieldState s f ≤ 6))

/-- The channels condition of R163, from the set of ready fields. -/
def channelsDone (s : State) (rf : Nat) : Bool :=
  (List.range 56).all fun f =>
    let p := pgRostf f
    (!(decide (gridCol f < 7) && (bitAt rf f || bitAt rf (f + 1))) ||
      (s.get p ROSTF.SEAM_E_READY_READY ||| s.get p ROSTF.SEAM_E_FENCED_FENCED) == 2 ^ 18 - 1) &&
    (!(decide (gridRow f < 6) && (bitAt rf f || bitAt rf (f + 8))) ||
      (s.get p ROSTF.SEAM_S_READY_READY ||| s.get p ROSTF.SEAM_S_FENCED_FENCED) == 2 ^ 26 - 1) &&
    (!bitAt rf f || (s.get p ROSTF.STAY_READY ||| s.get p ROSTF.STAY_FENCED) == 15)

/-- The ports of a landing: two of a net landing; one of a store landing whose MODE is 0, four where it is 1 (R160, R702, R714). -/
def landingPorts (s : State) (k : Nat) : Nat :=
  if k < 8 then 2 else if s.on (pgLanding k 0) STRL.SCTL_MODE then 4 else 1

/-- Port p of landing k is up (R162). -/
def portUp (s : State) (k p : Nat) : Bool :=
  if k < 8 then bitAt (s.get pgRoster ROSTER.NET_PORT_UP_UP) (2 * k + p)
  else bitAt (s.get pgRoster ROSTER.STORE_PORT_UP_UP) (4 * (k - 8) + p)

/-- The roster's entry of a port set (R160). -/
def setPort (k p : Nat) (up : Bool) (s : State) : State :=
  if k < 8 then s.setBit pgRoster ROSTER.NET_PORT_UP_UP (2 * k + p) up
  else s.setBit pgRoster ROSTER.STORE_PORT_UP_UP (4 * (k - 8) + p) up

/-- The landings condition of R163. -/
def landingsDone (s : State) : Bool :=
  (List.range 12).all fun k =>
    (!landingOn s k || landingReady s k || bitAt (s.get pgRoster ROSTER.LANDING_READY_FAILED) k ||
      bitAt (s.get pgMpwr MPWR.LANDING_STATUS_LANDING_FAULT) k) &&
    (!landingReady s k || (List.range (landingPorts s k)).all fun p =>
      portUp s k p || s.m.portWindow.contains (4 * k + p))

/-- BRINGUP as its conditions stand (R163). -/
def bringup (s : State) : State :=
  let a := fieldsDone s
  let b := channelsDone s (readyFields s)
  let c := landingsDone s
  (((s.set pgRoster ROSTER.BRINGUP_FIELDS_DONE (bit a)).set pgRoster ROSTER.BRINGUP_CHANNELS_DONE (bit b)).set pgRoster
    ROSTER.BRINGUP_LANDINGS_DONE (bit c)).set pgRoster ROSTER.BRINGUP_ALL_DONE (bit (a && b && c))

/-! ### End of service (R218, R219) -/

/-- EOS_NOW by its conditions (R218). -/
def eosHolds (s : State) : Bool :=
  (clocked s && s.m.fieldsDoneSeen &&
    decide (s.get pgRoster ROSTER.TILE_COUNT_READY < s.get pgDmap DMAP.OPERATOR_FLOOR_FLOOR)) ||
  s.on pgDmap DMAP.MAP_STATUS_MAP_FULL

/-- EOS_NOW brought up to date, with what each of its rises does (R219). -/
def settleEos (s : State) : State :=
  let now := eosHolds s
  let was := s.on pgDmap DMAP.SERVICE_EOS_NOW
  let s := s.set pgDmap DMAP.SERVICE_EOS_NOW (bit now)
  if now && !was then
    raiseEvent { code := 0x3009, arg0 := s.get pgRoster ROSTER.TILE_COUNT_READY,
                 arg1 := s.get pgDmap DMAP.OPERATOR_FLOOR_FLOOR, alert := some acEos }
      (s.set pgDmap DMAP.SERVICE_EOS_SEEN 1)
  else s

/-! ### One edge of the roster (R163, R164, R169) -/

/-- The roster's registers that count for ROSTER_GEN: those of R162 and R165 without ROSTER_GEN and BIST_CYCLES. -/
def rosterWords (s : State) : List (Nat × Word) :=
  s.live.filter fun e => decide (clsOf e.1 = 0) && decide (0x40 ≤ offOf e.1) &&
    ((pageNoOf e.1 == 0x010 && offOf e.1 != 0x040) ||
      (decide (64 ≤ pageNoOf e.1) && decide (pageNoOf e.1 < 120) && offOf e.1 != 0x048))

/-! ### The order of the events of one edge (R750) -/

/-- The place of an event among those of its edge, from its bits: those with no field first, then by field, tile and code (R750). -/
def eventPlace (b : BitVec 256) : Nat :=
  ((bits b.toNat 136 6 + 1) % 64 * 512 + bits b.toNat 142 9) * 65536 + bits b.toNat 112 16

/-- An event put in its place among those that follow it. -/
def placeEvent (b : BitVec 256) : List (BitVec 256) → List (BitVec 256)
  | [] => [b]
  | x :: r => if eventPlace b ≤ eventPlace x then b :: x :: r else x :: placeEvent b r

/-- An event under another number, with its CHECK (R749, R755). -/
def withSeq (b : BitVec 256) (seq : Nat) : BitVec 256 :=
  let low := bits b.toNat 32 192 * 2 ^ 32 + seq % 2 ^ 32
  BitVec.ofNat 256 (low + eventCheck low * 2 ^ 224)

/-- What R753 compares, from an event's bits. -/
def logKeyOf (b : BitVec 256) : LogKey :=
  ⟨bits b.toNat 112 16, bits b.toNat 136 6, bits b.toNat 142 9, BitVec.ofNat 32 (bits b.toNat 160 32),
    BitVec.ofNat 32 (bits b.toNat 192 32)⟩

/-- A record of a generation above `g` whose LOGSEQ is an old number takes the new one (R187, R756). -/
def relinkRec (g : Nat) (nums : List (Nat × Nat)) (r : MapRec) : MapRec :=
  if g < r.gen.toNat then
    match nums.find? fun p => p.1 % 2 ^ 24 == r.logseq with
    | some p => { r with logseq := p.2 % 2 ^ 24 }
    | none => r
  else r

def relinkSlot (g : Nat) (nums : List (Nat × Nat)) (y : MapSlot) : MapSlot :=
  match y.record with
  | some r => if relinkRec g nums r = r then y else recSlot (relinkRec g nums r)
  | none => y

/-- The records of the edge linked to the new numbers of their events, in both copies and in what waits for copy B (R194, R756). -/
def relinkMap (g : Nat) (nums : List (Nat × Nat)) (x : MapSt) : MapSt :=
  { x with
    a0 := { x.a0 with slots := x.a0.slots.map (relinkSlot g nums) }
    a1 := { x.a1 with slots := x.a1.slots.map (relinkSlot g nums) }
    bQueue := x.bQueue.map (relinkRec g nums)
    bWhole := x.bWhole.map fun w => { w with recs := w.recs.map (relinkRec g nums) }
    flashOp := match x.flashOp with
      | some (.slot r a) => some (.slot (relinkRec g nums r) a)
      | o => o }

/-- The events that an edge queued, in their order; a REPEATS event for repeats of earlier edges stays in front (R753). -/
def edgeOrder (new : List (BitVec 256)) : List (BitVec 256) :=
  match new with
  | [] => []
  | b :: r => if (logKeyOf b).code = 0x5001 then b :: r.foldr placeEvent [] else new.foldr placeEvent []

/-- The events that an edge queued since `s0` take their numbers in the order of R750, whatever the order in which the model worked
them out. -/
def orderEdge (s0 s : State) : State :=
  let n := s0.log.queue.length
  let new := s.log.queue.drop n
  let es := edgeOrder new
  if es = new ∨ s.get pgLogb LOGB.REPEAT_COUNT ≠ 0 ∨ s.log.queue.take n ≠ s0.log.queue then s
  else
    let olds := es.map fun b => bits b.toNat 0 32
    let base := bits (new.headD 0).toNat 0 32
    let news := (List.range es.length).map fun i => base + i
    let done := es.zipWith withSeq news
    { s with
      log := { s.log with queue := s0.log.queue ++ done, newest := done.getLast?.map logKeyOf }
      map := relinkMap (((mapA s0).map MapArea.gen).getD 0) (olds.zip news) s.map }

/-- The end of an edge on which the roster may have changed, against the state before it: the counts and BRINGUP,
one increment of ROSTER_GEN for all changes of the edge, those of edges within it included, the alert of ALL_DONE's rise, end
of service, and the events of the edge in their order (R163, R164, R169, R750). -/
def settle (s0 s : State) : State :=
  let s := bringup (counts s)
  let s := s.set pgRoster ROSTER.ROSTER_GEN_GEN
    (s0.get pgRoster ROSTER.ROSTER_GEN_GEN + bit (rosterWords s != rosterWords s0))
  let s := if s.on pgRoster ROSTER.BRINGUP_ALL_DONE && !s0.on pgRoster ROSTER.BRINGUP_ALL_DONE then pageEvent pgRoster s
    else s
  let s := if s.on pgRoster ROSTER.BRINGUP_FIELDS_DONE then { s with m := { s.m with fieldsDoneSeen := true } } else s
  orderEdge s0 (settleEos s)

/-- The Mast's main domain can be reached (R226, R286): the wafer is awake, or it wakes and its main rail is good. -/
def mainUp (s : State) : Bool :=
  awake s || (s.power.standby && pwrState s == 1 && (s.power.phase == .pll || s.power.phase == .reconciling ||
    s.power.phase == .rails))

/-- An access to the page at an address can have an effect (R173, R226): the page is allocated, its domain is awake, and
its tile, field or landing can be reached. -/
def reachable (s : State) (p : Nat) : Bool :=
  match kindOf p with
  | none => false
  | some _ =>
    if standbyPage p then true
    else mainUp s && (match clsOf p with
      | 2 => bitAt (s.get pgMpwr MPWR.LANDING_STATUS_LANDING_RAIL) (fieldOf p)
      | 4 => let v := fieldState s (fieldOf p)
        v == 1 || v == 2 || v == 3 || v == 8
      | 8 => tileReady s (fieldOf p) (tileOf p)
      | _ => true)

/-- A command to a page, when the page can be reached. -/
def ifReach (p : Nat) (g : State → State) (s : State) : Out := ifAwake (fun s => if reachable s p then g s else s) s

/-- A change of the roster with all that follows from it on its edge. -/
def onRoster (g : State → State) (s : State) : State := settle s (g s)

end Sys2Proof.Machine
end

