-- ==== Sys2Proof/Machine/Links.lean ====
section
/-! DEFINITION. Channel ends: lost packets, sending, replay, lanes, training and broken links (R339, R340, R457, R603,
R626 to R678). -/
namespace Sys2Proof.Machine
open Sys2Proof

/-! ### Packets -/

/-- Payload of a mesh packet in Hawser units: the header flit and its data flits (R632, R638). -/
def Pkt.units (p : Pkt) : Nat := 1 + (p.flits.length + 15) / 16

/-- The unit's tile or landing that waits for the answer to a packet. -/
def Pkt.owner (p : Pkt) : Nat × Nat := if p.vc = 0 then (p.srcField, p.srcTile) else (p.dstField, p.dstTile)

/-- The mesh's packets changed. -/
def State.modNet (s : State) (g : List Pkt → List Pkt) : State := { s with m := { s.m with net := g s.m.net } }

/-- The logical identifier of a tile in use, or 0xFFFF (R673). -/
def lidOrNone (s : State) (f t : Nat) : Nat :=
  if f < 56 ∧ tileInUse s f t then (lidOf s f t).getD 0xFFFF else 0xFFFF

/-- The identifiers of a packet's source and destination (R340, R673). -/
def Pkt.parties (s : State) (p : Pkt) : List Nat :=
  [lidOrNone s p.srcField p.srcTile, lidOrNone s p.dstField p.dstTile]

/-- The error response that completes a packet's access at the unit that issued it (R457, R598). -/
def errorFor (p : Pkt) : Pkt :=
  let o := p.owner
  let q := if p.vc = 0 then (p.dstField, p.dstTile) else (p.srcField, p.srcTile)
  { p with kind := 0xB, vc := 1, srcField := q.1, srcTile := q.2, dstField := o.1, dstTile := o.2, data := Config.errorReason 0, flits := []
           path := [], via := [], buf := none }

/-- A packet lost: its unit gets an error response, unless it has had one, while its tile is in use or it is a landing's (R457). -/
def lose (p : Pkt) (s : State) : State :=
  let o := p.owner
  if p.dead then s
  else if 56 ≤ o.1 ∨ tileInUse s o.1 o.2 then s.modNet fun n => n ++ [errorFor p] else s

/-- A packet discarded by the router of a tile (R612). -/
def discardAt (f t : Nat) (s : State) : State :=
  setError (pgTile f t 2) 17 (s.bumpSat (pgTile f t 2) TP2.RT_DISCARD_COUNT)

/-- A packet refused by the router of a tile (R598, R607, R612). -/
def unrouted (k : Nat) (s : State) : State := setError (pgTk k 2) 17 (s.bumpSat (pgTk k 2) TP2.UNROUTED_COUNT)

/-- KIND or OP is reserved (R597, R598). -/
def Pkt.reserved (p : Pkt) : Bool := decide (11 < p.kind) || decide (5 < p.op)

/-! ### Routes in computation (R608) -/

/-- A computation of routes begins in every field that is READY or LEAVING. -/
def startRoutes (s : State) : State :=
  (List.range 56).foldl (fun s f =>
    if fieldReady s f ∨ fieldState s f = 8 then s.set (pgFtopo f) FTOPO.ROUTE_STATUS_COMPUTING 1 else s) s

/-- The tile has a retirement that waits for slack water. -/
def retirePending (s : State) (f t : Nat) : Bool :=
  s.m.retire.any fun r => match r with
    | .tile f' t' => f' == f && t' == t
    | .field f' => f' == f
    | _ => false

/-- A tile router is in routes (R603). -/
def routerIn (s : State) (f t : Nat) : Bool :=
  let v := tileState s f t
  fieldReady s f && (v == 2 || v == 3 || v == 4 || v == 8) && !retirePending s f t

/-! ### Ends -/

def State.haw (s : State) (h e : Nat) : HawEnd := lookup HawEnd.reset s.m.haws (endKey h e)
def State.setHaw (s : State) (h e : Nat) (x : HawEnd) : State :=
  { s with m := { s.m with haws := put HawEnd.reset s.m.haws (endKey h e) x } }
def State.modHaw (s : State) (h e : Nat) (g : HawEnd → HawEnd) : State := s.setHaw h e (g (s.haw h e))
def HawEnd.vc (x : HawEnd) (v : Nat) : HVc := if v = 0 then x.v0 else x.v1
def HawEnd.setVc (x : HawEnd) (v : Nat) (c : HVc) : HawEnd := if v = 0 then { x with v0 := c } else { x with v1 := c }
def State.modVc (s : State) (h e v : Nat) (g : HVc → HVc) : State :=
  s.modHaw h e fun x => x.setVc v (g (x.vc v))

/-- LINK.STATE: 0 NONE 1 DOWN 2 PROBE 3 EXCHANGE 4 READY_SENT 5 UP_WAIT 6 UP 7 QUIET (R677). -/
def linkState (s : State) (h e : Nat) : Nat := s.get (pgEnd h e) HAWS.LINK_STATE
def setLink (h e v : Nat) (s : State) : State := s.set (pgEnd h e) HAWS.LINK_STATE v

/-- A bit of the end's PAGE_ERROR set (R678), an alert event but for TRAIN_FAIL; a landing's ends have no page. -/
def endError (h e n : Nat) (s : State) : State :=
  if h < 56 then (if n = 18 then setError (pgEnd h e) n s else alertError (pgEnd h e) n s) else s

/-- The end whose field names it in reports: a landing's end is named by its attach field's (R340, R594). -/
def reportEnd (h e : Nat) : Nat × Nat := if 56 ≤ h then partnerEnd h e else (h, e)

/-- The place of a command in the order of R663: NAK, LANE by the lane that it sheds, FLOW, ACK. -/
def HCmd.rank (c : HCmd) : Nat :=
  match c.code with
  | 2 => 0 | 3 => 128 + bits c.w.toNat 0 7 | 4 => 256 | _ => 257

/-- A command that a newer one takes the place of: FLOW gives the state of both virtual channels, and ACK the last packet of one. -/
def HCmd.replaces (c d : HCmd) : Bool :=
  c.code == d.code && (c.code == 4 || (c.code == 1 && bits c.w.toNat 24 1 == bits d.w.toNat 24 1))

/-- A command put among those that are pending, behind those that are sent before it (R663). -/
def placeCmd (c : HCmd) (l : List HCmd) : List HCmd :=
  let l := l.filter fun d => !c.replaces d
  l.takeWhile (fun d => decide (d.rank ≤ c.rank)) ++ c :: l.dropWhile fun d => decide (d.rank ≤ c.rank)

/-- A command becomes pending (R639, R663). -/
def send (h e code w : Nat) (s : State) : State :=
  s.modHaw h e fun x => { x with due := placeCmd ⟨code, BitVec.ofNat 32 w⟩ x.due }

/-- A training command transmitted (R665). -/
def sendTrain (h e w : Nat) (s : State) : State :=
  s.modHaw h e fun x => { x with out := x.out ++ [⟨5, BitVec.ofNat 32 w⟩] }

/-- The pending commands of an end that is UP transmitted (R663). -/
def transmit (h e : Nat) (s : State) : State :=
  if linkState s h e = 6 then s.modHaw h e fun x => { x with due := [], out := x.out ++ x.due } else s

/-- The partner's command that has been decoded taken from its commands in flight. -/
def takeOut (c : HCmd) : List HCmd → List HCmd
  | [] => []
  | d :: r => if d = c then r else d :: takeOut c r
def received (h e code : Nat) (w : Word) (s : State) : State :=
  let p := partnerEnd h e
  s.modHaw p.1 p.2 fun x => { x with out := takeOut ⟨code, w⟩ x.out }

/-! ### Sending and replay (R642 to R651, R660, R663) -/

def nextField (v : Nat) : Fld := if v = 0 then HAWS.SEQ_TX_NEXT0 else HAWS.SEQ_TX_NEXT1
def expField (v : Nat) : Fld := if v = 0 then HAWS.SEQ_RX_EXP0 else HAWS.SEQ_RX_EXP1
def heldField (v : Nat) : Fld := if v = 0 then HAWS.FLOW_HELD0 else HAWS.FLOW_HELD1

/-- FLOW.HELD of both virtual channels as the replay buffer stands. -/
def showHeld (h e : Nat) (s : State) : State :=
  (s.set (pgEnd h e) HAWS.FLOW_HELD0 (s.haw h e).v0.held.length).set (pgEnd h e) HAWS.FLOW_HELD1
    (s.haw h e).v1.held.length

/-- The partner holds a virtual channel in XOFF. -/
def peerXoff (s : State) (h e v : Nat) : Bool := bitAt (s.get (pgEnd h e) HAWS.FLOW_PEER_XOFF) v

/-- A new packet of a virtual channel may be sent (R643, R660, R663). -/
def maySend (s : State) (h e v : Nat) : Bool :=
  let x := s.haw h e
  linkState s h e == 6 && !peerXoff s h e v && (x.vc v).replay.isNone && decide ((x.vc v).held.length < 48) &&
    decide (x.v0.held.length + x.v1.held.length < 64)

/-- The next new packet of a virtual channel sent. -/
def sendNew (h e v : Nat) (s : State) : State :=
  match ((s.haw h e).vc v).wait with
  | [] => s
  | p :: rest =>
    let q := s.get (pgEnd h e) (nextField v)
    let s := s.modVc h e v fun c =>
      { c with wait := rest, held := c.held ++ [(q, p)],
               timer := if c.held.isEmpty then some s.m.wtime else c.timer }
    let s := (s.bump (pgEnd h e) (nextField v)).bumpSat (pgEnd h e) HAWS.CNT_PKT_TX_COUNT
    showHeld h e (s.modHaw h e fun x => { x with turn := 1 - v })

/-- The virtual channel of the next new packet: the two take turns where both may send (R663). -/
def nextVc (s : State) (h e : Nat) : Option Nat :=
  let may := fun v => maySend s h e v && !((s.haw h e).vc v).wait.isEmpty
  let t := (s.haw h e).turn
  if may t then some t else if may (1 - t) then some (1 - t) else none

/-- New packets sent, at most `n` of them. -/
def pump (h e : Nat) : Nat → State → State
  | 0, s => s
  | n + 1, s => match nextVc s h e with
    | none => s
    | some v => pump h e n (sendNew h e v s)

/-- An end sends the new packets that it may. -/
def pumpEnd (h e : Nat) (s : State) : State := pump h e ((s.haw h e).v0.wait.length + (s.haw h e).v1.wait.length) s

/-- The packets that a replay has still to send (R647). -/
def HVc.left (c : HVc) : Nat :=
  match c.replay with
  | none => 0
  | some q => (c.held.filter fun x => decide ((x.1 + 4096 - q) % 4096 < 64)).length

/-- The next packets of a replay sent (R647): counted, and the replay over with the last of them. -/
def replayed (h e v n : Nat) (s : State) : State :=
  let c := (s.haw h e).vc v
  let n := if peerXoff s h e v then 0 else min n c.left
  let s := if n = 0 then s else s.bumpSat (pgEnd h e) HAWS.CNT_REPLAYED_COUNT n
  s.modVc h e v fun c => { c with replay := if c.left ≤ n then none else c.replay.map fun q => (q + n) % 4096 }

/-- What CNT_REPLAYED reads: the packets of a replay that runs count as sent (R677; log 70). -/
def replayedCount (s : State) (h e : Nat) : Nat :=
  let n := fun v => if peerXoff s h e v then 0 else ((s.haw h e).vc v).left
  min (s.get (pgEnd h e) HAWS.CNT_REPLAYED_COUNT + n 0 + n 1) (2 ^ 32 - 1)

/-- What an end has sent by the next row: its replays that are not in XOFF are over, and new packets follow (R647, R663; log 70). -/
def settleEnd (h e : Nat) (s : State) : State :=
  if linkState s h e = 6 then
    pumpEnd h e (replayed h e 1 (((s.haw h e).vc 1).left) (replayed h e 0 (((s.haw h e).vc 0).left) s))
  else s

/-- The last escalation of a broken link of an end, if it has not reached the roster, takes one more lost packet. -/
def addLoss (f e : Nat) (ps : List Nat) : List Escalation → Option (List Escalation)
  | [] => none
  | .linkBroken f' e' r n qs :: rest =>
    if f'.val = f ∧ e'.val = e then some (.linkBroken f' e' r (n + 1) (qs ++ ps) :: rest)
    else (addLoss f e ps rest).map (.linkBroken f' e' r n qs :: ·)
  | x :: rest => (addLoss f e ps rest).map (x :: ·)

/-- A packet routed to a channel whose link is broken: discarded and reported (R340, R672). The report joins that of the
break while it is on its way, and marks its parties at once afterwards (DEDUCED, log 34). -/
def discardRouted (h e : Nat) (p : Pkt) (s : State) : State :=
  let r := reportEnd h e
  let s := s.bumpSat (pgEnd h e) HAWS.LAST_BREAK_LOST
  let s := if h < 56 then discardAt h (endTile h e) s else s
  let s := match addLoss r.1 r.2 (p.parties s) s.m.x.escs with
    | some l => s.modX fun x => { x with escs := l }
    | none => (p.parties s).foldl (fun s l => markParty l s) s
  lose p s

/-- The routers that a packet passes up to its next channel, and those after it. -/
def Pkt.legs (p : Pkt) : List Nat × List Nat :=
  match p.path with
  | [] => (p.via, [])
  | (h, e) :: _ =>
    if 56 ≤ h then ([], p.via)
    else
      let here := p.via.takeWhile (· != tileKey h (endTile h e))
      (p.via.take (here.length + 1), p.via.drop (here.length + 1))

/-- A packet that comes to a router that carries none is discarded at the router before it, with an error response, and its parties
are marked (R603, R609; log 25). -/
def strand (p : Pkt) (k : Nat) (s : State) : State :=
  lose p ((p.parties s).foldl (fun s l => markParty l s) (discardAt (k / 512) (k % 512) s))

/-- A packet on its way through the routers of a mesh: to its destination, or to the next channel of its route. -/
def forward (p : Pkt) (s : State) : State :=
  let l := p.legs
  let ok := l.1.takeWhile fun k => routerIn s (k / 512) (k % 512)
  if ok.length < l.1.length then strand p (ok.getLast?.getD (l.1.headD 0)) s
  else
    let q := { p with via := l.2, buf := none }
    match p.path with
    | [] => s.modNet fun n => n ++ [q]
    | (h, e) :: _ =>
      if linkState s h e = 6 then settleEnd h e (s.modVc h e p.vc fun c => { c with wait := c.wait ++ [q] })
      else discardRouted h e q s

/-- A replay from a SEQ begins at the next item boundary, or once the virtual channel is XON (R647, R648, R660). -/
def replay (h e v : Nat) (s : State) : State :=
  s.modVc h e v fun c => { c with replay := c.held.head?.map Prod.fst }

/-- The oldest held SEQ, or the next new one. -/
def oldest (s : State) (h e v : Nat) : Nat :=
  match ((s.haw h e).vc v).held with
  | (q, _) :: _ => q
  | [] => s.get (pgEnd h e) (nextField v)

/-- The first n held packets of a virtual channel released (R645, R646, R648). -/
def release (h e v n : Nat) (s : State) : State :=
  if n = 0 then s
  else
    let s := s.modVc h e v fun c =>
      let l := c.held.drop n
      { c with held := l, timer := if l.isEmpty then none else some s.m.wtime, expiries := 0 }
    showHeld h e s

/-! ### Broken links (R671 to R673) -/

/-- The link declared broken for a reason (R672): QUIET, the packets it holds lost, the escalation raised. What it has transmitted is
still decoded. -/
def breakLink (h e reason : Nat) (s : State) : State :=
  let x := s.haw h e
  let lost := x.v0.held.map Prod.snd ++ x.v1.held.map Prod.snd ++ x.v0.wait ++ x.v1.wait
  let ps := lost.flatMap fun p => p.parties s
  let s := s.setHaw h e { x with v0 := .reset, v1 := .reset, due := [], since := s.m.wtime, good := 0, firstGood := none,
                                 mask := 0, segs := 0, usable := 0 }
  let p := pgEnd h e
  let s := (showHeld h e (setLink h e 7 s)).bumpSat p HAWS.CNT_LINK_BROKEN
  let s := (s.set p HAWS.LAST_BREAK_REASON reason).set p HAWS.LAST_BREAK_LOST (min lost.length 65535)
  let r := reportEnd h e
  let s := s.modX fun y => { y with escs := y.escs ++ [.linkBroken (fin 56 r.1) (fin 96 r.2) reason lost.length ps] }
  endError h e 16 (lost.foldl (fun s p => lose p s) s)

/-! ### Lanes (R627, R652 to R657, R668, R669) -/

/-- LANE_STATE of a lane in the receive direction: 0 out, 1 active, 2 spare, 3 RETIRING. A number that is no lane of the channel
is out (R627). -/
def laneState (s : State) (h e n : Nat) : Nat :=
  if n < laneCount h e then bits (s.get (pgEnd h e) (HAWS.LANE_STATE.at (n / 16))) (2 * (n % 16)) 2 else 0
def setLane (h e n v : Nat) (s : State) : State :=
  let F := HAWS.LANE_STATE.at (n / 16)
  let w := s.get (pgEnd h e) F
  if n < laneCount h e then s.set (pgEnd h e) F (w - bits w (2 * (n % 16)) 2 * 4 ^ (n % 16) + v * 4 ^ (n % 16)) else s

/-- The active lanes of the receive direction, ascending: its positions (R631). -/
def positions (s : State) (h e : Nat) : List Nat :=
  (List.range (laneCount h e)).filter fun n => laneState s h e n == 1 || laneState s h e n == 3

/-- Byte k of a packet travels on a RETIRING lane (R632, R653). -/
def retiringByte (s : State) (h e k : Nat) : Bool :=
  let l := positions s h e
  laneState s h e (l.getD (k % l.length) 80) == 3

/-- Lanes of an end in a state of a set. -/
def lanesIn (s : State) (h e : Nat) (p : Nat → Bool) : Nat :=
  ((List.range (laneCount h e)).filter fun n => p (laneState s h e n)).length

/-- LINK.ACTIVE and LINK.SPARES as LANE_STATE stands; a RETIRING lane is still active. -/
def showLanes (h e : Nat) (s : State) : State :=
  (s.set (pgEnd h e) HAWS.LINK_ACTIVE (lanesIn s h e fun v => v == 1 || v == 3)).set (pgEnd h e) HAWS.LINK_SPARES
    (lanesIn s h e (· == 2))

/-- The lowest set bit of the lanes. -/
def lowestLane (m n : Nat) : Option Nat := (List.range n).find? (bitAt m)

/-- A lane shed from the transmit direction by a LANE command that adds the lowest spare (R654 to R656); before UP, which sheds it
then (log 70). -/
def shedTx (h e n : Nat) (s : State) : State :=
  let x := s.haw h e
  if !bitAt x.txActive n ∨ linkState s h e ≠ 6 then s
  else
    let g := (s.get (pgEnd h e) HAWS.LINK_GEN_TX + 1) % 16
    let add := lowestLane x.txSpare 80
    let x' := { x with txActive := putBit x.txActive n false }
    let x' := match add with
      | some a => { x' with txActive := putBit x'.txActive a true, txSpare := putBit x'.txSpare a false }
      | none => x'
    let s := (s.setHaw h e x').set (pgEnd h e) HAWS.LINK_GEN_TX g
    let s := send h e 3 (n + 128 + (match add with | some a => a * 256 + 32768 | none => 0) + g * 65536) s
    if setBitsOf x'.txActive 80 < 8 then breakLink h e 7 s else s

/-- A lane that this end retires: its escalation and the page's LANE_RETIRED (R652, R654, R669, R678). -/
def reportLane (h e n : Nat) (s : State) : State :=
  let r := reportEnd h e
  let s := s.modHaw h e fun x => { x with gone := putBit x.gone n true }
  let s := s.modX fun y => { y with escs := y.escs ++ [.laneRetired (fin 56 r.1) (fin 96 r.2) n] }
  endError h e 17 s

/-- A NAK sent (R640, R641, R644): W of its reason, NSEQ and lane. -/
def sendNak (h e v reason : Nat) (ln : Option Nat) (s : State) : State :=
  let w := s.get (pgEnd h e) (expField v) + reason * 4096 + v * 2 ^ 24 +
    (match ln with | some n => n * 65536 + 2 ^ 23 | none => 0)
  (((send h e 2 w s).bumpSat (pgEnd h e) HAWS.CNT_ERR_NAK_TX)).modVc h e v fun c => { c with fresh := 0, freshFrom := none }

/-- An ACK sent (R645). -/
def sendAck (h e v : Nat) (s : State) : State :=
  let a := (s.get (pgEnd h e) (expField v) + 4095) % 4096
  (send h e 1 (a + v * 2 ^ 24) s).modVc h e v fun c => { c with fresh := 0, freshFrom := none }

def setNakSent (h e v : Nat) (b : Bool) (s : State) : State := s.setBit (pgEnd h e) HAWS.FLOW_NAK_SENT v b

/-! ### The receive buffer and flow control (R658 to R660) -/

/-- Bytes of a virtual channel's buffer that are held. -/
def bufUsed (s : State) (h e v : Nat) : Nat :=
  total ((s.m.net.filter fun p => p.buf == some (endKey h e, v)).map fun p => 16 * (p.units + 1))

/-- FLOW sent with the state of both virtual channels (R660). -/
def sendFlow (h e : Nat) (s : State) : State := send h e 4 (s.get (pgEnd h e) HAWS.FLOW_OWN_XOFF) s

/-- The receiver's state of a virtual channel after its free space changed (R659), and the FLOW that follows. -/
def flowCheck (h e v : Nat) (s : State) : State :=
  let free := 16384 - bufUsed s h e v
  let th := s.get (pgEnd h e) HAWS.XOFF_THRESH_BYTES
  let off := bitAt (s.get (pgEnd h e) HAWS.FLOW_OWN_XOFF) v
  if !off && decide (free ≤ th) then sendFlow h e (s.setBit (pgEnd h e) HAWS.FLOW_OWN_XOFF v true)
  else if off && decide (th + 1024 ≤ free) then sendFlow h e (s.setBit (pgEnd h e) HAWS.FLOW_OWN_XOFF v false)
  else s

/-- A packet that an end hands to the tile router or the landing: a router discards a reserved KIND or OP (R598). -/
def toRouter (h e : Nat) (p : Pkt) (s : State) : State :=
  if h < 56 ∧ p.reserved then unrouted (tileKey h (endTile h e)) s else forward p s

/-- The packets of an end's buffers taken by the tile router, or by the landing (R658). -/
def takeBuffered (h e : Nat) (s : State) : State :=
  let held := s.m.net.filter fun p => match p.buf with | some b => b.1 == endKey h e | none => false
  let s := s.modNet fun n => n.filter fun p => match p.buf with | some b => b.1 != endKey h e | none => true
  flowCheck h e 1 (flowCheck h e 0 (held.foldl (fun s p => toRouter h e p s) s))

/-! ### Training (R664 to R670) -/

/-- The end may train (R156, R664): its field ready with the router of its tile in routes, or its landing ready. -/
def trainable (s : State) (h e : Nat) : Bool :=
  endExists h e && (if h < 56 then routerIn s h (endTile h e) else landingReady s (h - 56))

/-- An attempt begins in PROBE (R667). -/
def enterProbe (h e : Nat) (s : State) : State :=
  let s := s.modHaw h e fun x => { x with good := 0, firstGood := none, mask := 0, segs := 0, usable := 0, due := [],
                                          since := s.m.wtime, gone := x.gone ||| lanesRecorded s h e }
  setLink h e 2 s

/-- An end in DOWN that may start does so. -/
def startEnd (h e : Nat) (s : State) : State :=
  if linkState s h e = 1 ∧ trainable s h e then enterProbe h e s else s

/-- Every end of a host that may start does so. -/
def startEnds (h : Nat) (s : State) : State := (List.range 96).foldl (fun s e => startEnd h e s) s

/-- An end returned to DOWN (R664): what it holds is lost, and its channel is no longer ready (R157). -/
def dropEnd (h e : Nat) (s : State) : State :=
  if linkState s h e ≤ 1 then s
  else
    let x := s.haw h e
    let lost := x.v0.held.map Prod.snd ++ x.v1.held.map Prod.snd ++ x.v0.wait ++ x.v1.wait
    let s := setLink h e 1 (s.setHaw h e { HawEnd.reset with gone := x.gone })
    let s := lost.foldl (fun s p => lose p ((p.parties s).foldl (fun s l => markParty l s) s)) (showHeld h e s)
    if h < 56 ∧ e < 92 ∧ chanReady s h e then setChan h e false true s else s

/-- A failed attempt (R667, R678): counted, and a new attempt begins. -/
def failAttempt (h e : Nat) (s : State) : State :=
  enterProbe h e (endError h e 18 (s.bumpSat (pgEnd h e) HAWS.CNT_LINK_ATTEMPTS))

/-- Lanes judged good here, marked by the partner and not out here (R667). -/
def HawEnd.usableSet (x : HawEnd) : Nat := x.good &&& x.mask &&& (2 ^ 80 - 1 - x.gone % 2 ^ 80)

/-- The lanes of a set, ascending. -/
def lanesOf (m : Nat) : List Nat := (List.range 80).filter (bitAt m)

/-- W of a TRAIN READY (R640, R667): USABLE, and MAPHASH, the exclusive or of the usable lanes' numbers. -/
def readyW (m : Nat) : Nat :=
  2 + (lanesOf m).length * 16 + (lanesOf m).foldl (fun a n => a ^^^ n) 0 * 2 ^ 11

/-- EXCHANGE with every segment of the partner received: READY_SENT or a failed attempt (R667, R668). -/
def exchanged (h e : Nat) (s : State) : State :=
  let x := s.haw h e
  let u := lanesOf x.usableSet
  if u.length < 8 then failAttempt h e s
  else
    let act := u.take (fullLanes h e)
    let spare := u.drop (fullLanes h e)
    let m := fun (l : List Nat) => l.foldl (fun a n => putBit a n true) 0
    let s := s.setHaw h e { x with usable := x.usableSet, txActive := m act, txSpare := m spare }
    let s := (List.range 80).foldl (fun s n =>
      setLane h e n (if bitAt (m act) n then 1 else if bitAt (m spare) n then 2 else 0) s) s
    let s := showLanes h e ((s.set (pgEnd h e) HAWS.LINK_GEN_TX 0).set (pgEnd h e) HAWS.LINK_GEN_RX 0)
    sendTrain h e (readyW x.usableSet) (setLink h e 4 s)

/-- W of a TRAIN MASK segment (R640). -/
def maskW (m seg : Nat) : Nat := 1 + seg * 4 + bits m (24 * seg) 24 * 16

/-- EXCHANGE entered: the end sends its masks (R667). -/
def enterExchange (h e : Nat) (s : State) : State :=
  let x := s.haw h e
  let m := x.good &&& (2 ^ 80 - 1 - x.gone % 2 ^ 80)
  (List.range (if isStay h e then 4 else 2)).foldl (fun s i => sendTrain h e (maskW m i) s) (setLink h e 3 s)

/-- The channel of an end is ready: both its ends are UP. -/
def bothUp (s : State) (h e : Nat) : Bool :=
  let p := partnerEnd h e
  linkState s h e == 6 && linkState s p.1 p.2 == 6

/-- UP entered (R669): sequence numbers, flow state and buffers at their first values, the unusable lanes reported, the active
lanes that left service since READY_SENT shed (R657), and the channel reported ready when its partner is UP too (R157, R158), with new routes computed (R608). -/
def enterUp (h e : Nat) (s : State) : State :=
  let p := pgEnd h e
  let s := (((s.set p HAWS.SEQ_TX_NEXT0 0).set p HAWS.SEQ_TX_NEXT1 0).set p HAWS.SEQ_RX_EXP0 0).set p HAWS.SEQ_RX_EXP1 0
  let s := ((s.set p HAWS.FLOW_PEER_XOFF 0).set p HAWS.FLOW_OWN_XOFF 0).set p HAWS.FLOW_NAK_SENT 0
  let s := showHeld h e (s.modHaw h e fun x => { x with v0 := .reset, v1 := .reset, turn := 1 })
  let x := s.haw h e
  let bad := (List.range (laneCount h e)).filter fun n => !bitAt x.gone n && !bitAt x.usable n
  let shed := (List.range (laneCount h e)).filter fun n => bitAt x.gone n && bitAt x.txActive n
  let s := bad.foldl (fun s n => reportLane h e n s) (setLink h e 6 s)
  let s := shed.foldl (fun s n => shedTx h e n s) s
  if bothUp s h e then startRoutes (onRoster (setChan h e true false) s) else s

end Sys2Proof.Machine
end

