-- ==== Sys2Proof/Machine/Operands.lean ====
section
/-! DEFINITION. Bundles and moves: the fields of a bundle (R356, R357), of a move (R359), the source and destination
identifiers (R361, R362, R389) and what the encoding check of R383 finds. -/
namespace Sys2Proof.Machine

/-- A move (R359). -/
structure Move where
  guard : Nat
  src : Nat
  dst : Nat
deriving DecidableEq, Repr

/-- A bundle's class, moves by slot, and long immediate (R356, R357). -/
structure Bundle where
  cls : Nat
  moves : List Move
  limm : Word
deriving DecidableEq, Repr

/-- The move in 24 bits (R359). -/
def moveOf (x : Nat) : Move := ⟨bits x 21 3, bits x 11 10, bits x 0 11⟩

/-- The class of a bundle. -/
def classOf (b : BitVec 128) : Nat := bits b.toNat 125 3

/-- The bundle's fields, for a class that R357 defines. -/
def bundleOf (b : BitVec 128) : Bundle :=
  let n := b.toNat
  let m0 := moveOf (bits n 96 24); let m1 := moveOf (bits n 72 24); let m2 := moveOf (bits n 48 24)
  let m3 := moveOf (bits n 24 24); let m4 := moveOf (bits n 0 24)
  match classOf b with
  | 0 => ⟨0, [m0, m1, m2, m3, m4], 0⟩
  | 1 => ⟨1, [m0, m1, m2, m3], BitVec.ofInt 32 (signed (bits n 0 24) 24)⟩
  | c => ⟨c, [m0, m1, m2], BitVec.ofNat 32 (bits n 0 32)⟩

/-- The 24 bits of a move (R359). -/
def encodeMove (m : Move) : Nat := m.guard * 2 ^ 21 + m.src * 2 ^ 11 + m.dst

/-- A bundle of class 0 from its five moves (R356). -/
def encodeMoves (m0 m1 m2 m3 m4 : Move) : BitVec 128 :=
  BitVec.ofNat 128 (encodeMove m0 * 2 ^ 96 + encodeMove m1 * 2 ^ 72 + encodeMove m2 * 2 ^ 48 + encodeMove m3 * 2 ^ 24
    + encodeMove m4)

/-- The canonical no-operation 0xE00000 (R360). -/
def nopMove : Move := ⟨7, 0, 0⟩

/-! ### Identifiers -/

/-- The function units that own identifiers (R361, R362). -/
inductive Unit'
  | alu0 | alu1 | shf | chk | mul | div | hsh | lsu | iou | cu | fry
deriving DecidableEq, Repr

/-- What a destination identifier names (R352, R362, R397, R399, R403, R420, R421, R425, R430 to R432, R436, R440,
R443). -/
inductive Dest
  /-- A register of RFA or RFB, or an operand port. -/
  | port
  | lc | lnk | gset
  | alu (u : Nat) (op : AluOp)
  | shf (op : ShfOp)
  | chk (op : ChkOp)
  | fold (alg : Nat)
  | fclr
  | mul (op : MulOp)
  | div (op : DivOp)
  | hsh (op : Nat)
  | access (k : Nat) (m : Nat)
  | swp | ldadd | cas | sync
  | ior | iow
  | jmp | call | ret | dbnz | rpt | rpti | trap | gate | gwcall | gwret | slip | eret
  | compare (n rel : Nat)
  | kick
deriving DecidableEq, Repr

/-- The ALU trigger at an offset from the ALU's first destination (R397). -/
def aluOpAt : Nat → Option AluOp
  | 1 => some .add | 2 => some .addc | 3 => some .addv | 4 => some .sub | 5 => some .subb | 6 => some .subv
  | 7 => some .and | 8 => some .or | 9 => some .xor | 10 => some .andn | 11 => some .slt | 12 => some .sltu
  | 13 => some .min | 14 => some .minu | 15 => some .max | 16 => some .maxu | 17 => some .abs | 18 => some .pass
  | _ => none

/-- The SHF trigger at an offset from 0x0C0 (R399). -/
def shfOpAt : Nat → Option ShfOp
  | 2 => some .shl | 3 => some .shr | 4 => some .sar | 5 => some .rol | 6 => some .ror | 7 => some .ext
  | 8 => some .exts | 9 => some .ins | 10 => some .bswap | 11 => some .hswap | 12 => some .clz | 13 => some .ctz
  | _ => none

/-- What the CHK identifier at an offset from 0x100 names (R403). -/
def chkAt : Nat → Option Dest
  | 0x00 | 0x01 | 0x02 | 0x03 | 0x04 => some .port
  | 0x08 => some (.chk .c32cB) | 0x09 => some (.chk .c32cW) | 0x0A => some (.chk .c32B) | 0x0B => some (.chk .c32W)
  | 0x0C => some (.chk .c16B) | 0x0D => some (.chk .c16W) | 0x0E => some (.chk .cpB) | 0x0F => some (.chk .cpW)
  | 0x10 => some (.chk .fin32) | 0x11 => some (.chk .fin16) | 0x12 => some (.chk .finp)
  | 0x18 => some (.chk .parW) | 0x19 => some (.chk .parB) | 0x1A => some (.chk .revW) | 0x1B => some (.chk .revB)
  | 0x1C => some (.chk .pop)
  | 0x20 => some (.fold 0) | 0x21 => some (.fold 1) | 0x22 => some (.fold 2) | 0x23 => some (.fold 3)
  | 0x24 => some .fclr
  | _ => none

/-- What the CU identifier at an offset from 0x280 names (R440). -/
def cuAt (x : Nat) : Option Dest :=
  match x with
  | 0x00 => some .port | 0x01 => some .lc | 0x02 => some .lnk | 0x03 => some .gset
  | 0x08 => some .jmp | 0x09 => some .call | 0x0A => some .ret | 0x0B => some .dbnz | 0x0C => some .rpt
  | 0x0D => some .rpti | 0x0E => some .trap | 0x0F => some .gate | 0x10 => some .gwcall | 0x11 => some .gwret
  | 0x12 => some .slip | 0x13 => some .eret
  | _ => if 0x40 ≤ x ∧ x < 0x70 ∧ x % 16 < 12 then some (.compare (x / 16 - 4) (x % 16)) else none

/-- What a destination identifier names; none where it is reserved (R362, R389). -/
def destOf (d : Nat) : Option Dest :=
  if d < 0x040 then some .port
  else if d < 0x080 then if d = 0x040 then some .port else (aluOpAt (d - 0x040)).map (.alu 0)
  else if d < 0x0C0 then if d = 0x080 then some .port else (aluOpAt (d - 0x080)).map (.alu 1)
  else if d < 0x100 then if d < 0x0C2 then some .port else (shfOpAt (d - 0x0C0)).map .shf
  else if d < 0x180 then chkAt (d - 0x100)
  else if d < 0x1A0 then
    match d with
    | 0x180 => some .port | 0x181 => some (.mul .mul) | 0x182 => some (.mul .mulu) | 0x183 => some (.mul .mulv)
    | 0x184 => some (.mul .mulvu) | _ => none
  else if d < 0x1C0 then
    match d with
    | 0x1A0 => some .port | 0x1A1 => some (.div .div) | 0x1A2 => some (.div .divu) | 0x1A3 => some (.div .divq)
    | 0x1A4 => some (.div .divqu) | _ => none
  else if d < 0x1E0 then if d < 0x1D0 then some .port else if d < 0x1D3 then some (.hsh (d - 0x1D0)) else none
  else if d < 0x1E8 then if d < 0x1E4 then some .port else none
  else if d < 0x228 then some (.access ((d - 0x1E8) / 8) ((d - 0x1E8) % 8))
  else if d < 0x260 then
    match d with
    | 0x228 => some .swp | 0x229 => some .ldadd | 0x22A => some .cas | 0x22B => some .sync | _ => none
  else if d < 0x280 then
    match d with
    | 0x260 => some .port | 0x261 => some .ior | 0x262 => some .iow | _ => none
  else if d < 0x300 then cuAt (d - 0x280)
  else if d = 0x300 then some .kick else none

/-- The source identifier is defined (R361, R389). -/
def srcDefined (x : Nat) : Bool :=
  decide (x < 0x042) || x == 0x050 || x == 0x051 || x == 0x060 || (decide (0x070 ≤ x) && decide (x ≤ 0x078)) ||
  x == 0x090 || x == 0x091 || x == 0x0A0 || x == 0x0A1 || (decide (0x0B0 ≤ x) && decide (x ≤ 0x0C0)) ||
  x == 0x0D0 || x == 0x0D1 || (decide (0x0E0 ≤ x) && decide (x ≤ 0x0E5)) || x == 0x0F0 || x == 0x0F8 || x == 0x0F9 ||
  decide (0x300 ≤ x)

/-- The unit that owns a trigger; none for a register, a port or a CU register (R377). -/
def Dest.unit : Dest → Option Unit'
  | .port | .lc | .lnk | .gset => none
  | .alu u _ => some (if u = 0 then .alu0 else .alu1)
  | .shf _ => some .shf
  | .chk _ | .fold _ | .fclr => some .chk
  | .mul _ => some .mul
  | .div _ => some .div
  | .hsh _ => some .hsh
  | .access _ _ | .swp | .ldadd | .cas | .sync => some .lsu
  | .ior | .iow => some .iou
  | .jmp | .call | .ret | .dbnz | .rpt | .rpti | .trap | .gate | .gwcall | .gwret | .slip | .eret | .compare _ _ => some .cu
  | .kick => some .fry

/-- A heavy trigger (R390). -/
def Dest.heavy : Dest → Bool
  | .mul _ | .div _ | .hsh _ => true
  | _ => false

/-- jmp, call, ret or dbnz (R497, first row). -/
def Dest.jumps : Dest → Bool
  | .jmp | .call | .ret | .dbnz => true
  | _ => false

/-- rpt or rpti (R497, second row). -/
def Dest.repeats : Dest → Bool
  | .rpt | .rpti => true
  | _ => false

/-- trap, gate, gwcall, gwret, slip or eret (R497, third row). -/
def Dest.handler : Dest → Bool
  | .trap | .gate | .gwcall | .gwret | .slip | .eret => true
  | _ => false

/-- The value of a short immediate (R365). -/
def shortImm (x : Nat) : Word := BitVec.ofInt 32 (signed (bits x 0 8) 8)

/-- The first offence of steps 1 and 2 of R383, as its slot (7 for step 1); `en` says which move slots are enabled. -/
def encodingOffence (b : BitVec 128) (en : Move → Bool) : Option Nat :=
  let n := b.toNat
  if 2 < classOf b ∨ bits n 120 5 ≠ 0 ∨ (classOf b = 2 ∧ bits n 32 16 ≠ 0) then some 7
  else
    (bundleOf b).moves.findIdx? fun m =>
      decide (m.guard ≠ 7) &&
        (!srcDefined m.src || (destOf m.dst).isNone || (decide (classOf b = 0) && m.src == 0x0E0 && en m))

end Sys2Proof.Machine
end

