-- ==== Sys2Proof/Machine/Space.lean ====
section
/-! DEFINITION. The data space of a tile and its tile matrix: where an access goes (R448, R572 to R578), the halves of the post bay
(R332), the requests that wait for a target, their arbitration and the grants (R555 to R571, R581, R582, R589). -/
namespace Sys2Proof.Machine

/-- Tile page 0 of the tile with a key. -/
def p0 (k : Nat) : Nat := pgTk k 0

def bankOf (a : Nat) : Nat := a / 32768 % 8

/-! ### The map of the data space (R448, R572 to R578) -/

/-- Where an access goes. -/
inductive Place
  | dmem (a : Nat)
  | far (lid r : Nat)
  | t11 (kind : Nat)
deriving DecidableEq, Repr

/-- An access by a master in a world to a local DMEM address: the lowest kind of R573 that applies, if any. -/
def dmemKind (s : State) (k a : Nat) (berth m3 : Bool) : Option Nat :=
  let b := bankOf a
  let w := s.get (pgTk k 1) TP1.BANK_WORLD_BERTH
  if !m3 && s.on (pgTk k 0) TP0.PMODE_MODE && berth && !bitAt w b then some 2
  else if !bitAt (s.get (pgTk k 0) TP0.BANK_STATUS_IN_SERVICE) b then some 3
  else if m3 && !bitAt (s.get (pgTk k 1) TP1.BANK_WORLD_M3_BANKS) b then some 5
  else none

/-- The kind under which T11 answers an access of M3 to some bytes, if it does (R573). -/
def m3Kind (s : State) (k a n : Nat) : Option Nat :=
  if 0x40000 < a + n then some 1
  else match dmemKind s k a false true with
    | some kind => some kind
    | none => dmemKind s k (a + n - 1) false true

/-- The window registers of a tile as they stand: WIN_BASE, WIN_CTRL, WIN_RBASE and WIN_TILE of each window in turn (R589). -/
def winWords (s : State) (k : Nat) : List Word := (List.range 32).map fun i => s.word (pgTk k 1 + 0x100 + 4 * i)

/-- WBASE of window n. -/
def winBase (ws : List Word) (n : Nat) : Nat := (nth ws (4 * n)).toNat / 4096 * 4096

/-- Window n is enabled, covers the address and serves the world (R576). -/
def winServes (ws : List Word) (split : Bool) (n a : Nat) (berth : Bool) : Bool :=
  let c := (nth ws (4 * n + 1)).toNat
  let w := winBase ws n
  bitAt c 0 && decide (bits c 1 2 < 2) && decide (w ≤ a) && decide (a < w + 2 ^ bits c 8 5) &&
    (!split || bitAt (bits c 16 2) (bit berth))

/-- Where an access of M0, M2 or M4 in a world goes under some windows. -/
def placeIn (ws : List Word) (s : State) (k a : Nat) (berth : Bool) : Place :=
  let local' := fun l => match dmemKind s k l berth false with
    | some kind => Place.t11 kind
    | none => .dmem l
  if a < 0x40000 then local' a
  else match (List.range 8).find? fun n => winServes ws (s.on (pgTk k 0) TP0.PMODE_MODE) n a berth with
    | none => .t11 1
    | some n =>
      let r := ((nth ws (4 * n + 2)).toNat + a + 2 ^ 32 - winBase ws n) % 2 ^ 32
      if bits (nth ws (4 * n + 1)).toNat 1 2 = 1 then
        (if r < 0x40000 then .far ((nth ws (4 * n + 3)).toNat % 65536) r else .t11 6)
      else if r < 0x40000 then local' r else .t11 4

/-- Where an access of M0 or M2 goes. -/
def place (s : State) (k a : Nat) (berth : Bool) : Place := placeIn (winWords s k) s k a berth

/-- Where an access of n bytes goes: as its first byte, but where its last byte lies elsewhere. -/
def placeSpan (s : State) (k a n : Nat) (berth : Bool) : Place :=
  match place s k a berth, place s k (a + n - 1) berth with
  | .dmem d, .dmem _ => .dmem d
  | .dmem _, q => q
  | .far l r, .t11 kind => if 0x40000 ≤ r + n - 1 then .t11 kind else .far l r
  | p, _ => p

/-- A copy of the snapshot lines in progress still covers one of the bytes (R337). -/
def lineWaits (s : State) (k a n : Nat) : Bool :=
  s.m.x.copies.any fun c => c.tile == k && decide (c.src + 64 * c.next < a + n) && decide (a < c.src + 64 * c.lines)

/-- A snapshot copy of the tile is in progress. -/
def copying (s : State) (k : Nat) : Bool := s.m.x.copies.any fun c => c.tile == k

/-! ### The halves of a post bay (R332) -/

/-- The half that is visible: that of the crossing number last opened, its number modulo 2 (log 40). -/
def visibleHalf (s : State) : Nat :=
  if s.m.x.everOpened then s.get pgCseq CSEQ.CUR_NO_LO_NO % 2 else (s.get pgCseq CSEQ.FIRST_NO_LO_NO + 1) % 2

/-- The part of the post bay that a DMEM byte lies in. -/
inductive BayPart
  | outside | visible | collecting
deriving DecidableEq, Repr

/-- The part of a tile's post bay that a byte lies in; a bay that does not fit the DMEM is none. -/
def bayPart (s : State) (k a : Nat) : BayPart :=
  let base := s.get (p0 k) TP0.POST_BAY_BASE
  let pages := s.get (p0 k) TP0.POST_BAY_PAGES
  let q := a / 4096
  if 64 < base + 2 * pages ∨ q < base ∨ base + 2 * pages ≤ q then .outside
  else if (q - base) / pages = visibleHalf s then .visible else .collecting

/-! ### Beats and bursts (R568, R569, R582) -/

/-- A burst's beats: the 16-byte lines that its bytes touch. -/
def beatsOf (a n : Nat) : Nat := (a % 16 + n + 15) / 16

/-- The bytes of a transfer that its first burst takes: to the end of an aligned 256-byte block. -/
def burstLen (a n : Nat) : Nat := min n (256 - a % 256)

/-- The size of an access in bytes (R431, R452). -/
def LsuKind.size : LsuKind → Nat
  | .load n _ | .store n => n
  | .sync => 1
  | _ => 4

/-- The access writes memory. -/
def LsuKind.writes : LsuKind → Bool
  | .load _ _ | .sync => false
  | _ => true

/-- Beats of an access: 2 for a locked sequence (R569). -/
def LsuKind.beats : LsuKind → Nat
  | .swp | .ldadd | .cas => 2
  | _ => 1

/-- The bytes of an access by its OP (R597). -/
def opSize (op : Nat) : Nat :=
  match op with
  | 0 => 1 | 1 => 2 | _ => 4

/-- The source and destination of a descriptor's next byte. -/
def FryAct.from' (a : FryAct) : Nat := (a.srow + BitVec.ofNat 32 a.rowPos).toNat
def FryAct.to' (a : FryAct) : Nat := (a.drow + BitVec.ofNat 32 a.rowPos).toNat

/-- The bytes of the next burst: within the row, the move, and one aligned 256-byte block at each side (R616, R617). -/
def FryAct.chunk (a : FryAct) : Nat :=
  let n := min (a.len - a.pos) (256 - a.from' % 256)
  let n := if a.row = 0 then n else min n (a.row - a.rowPos)
  if a.dkind = 0 then min n (256 - a.to' % 256) else n

/-- The active descriptor has nothing more to read, write or send. -/
def FryAct.moved (a : FryAct) : Bool := a.code.isSome || (a.pos == a.len && a.gathered.isEmpty)

/-! ### Requests (R560, R565) -/

/-- A master's request for a target: the beats that it asks for and its QoS. -/
structure Req where
  target : Nat
  beats : Nat
  qos : Nat
deriving DecidableEq, Repr

/-- The request of an access by its place; T11 takes no part in arbitration (R572). -/
def reqAt (p : Place) (beats far qos : Nat) : Option Req :=
  match p with
  | .dmem d => some ⟨bankOf d, beats, qos⟩
  | .far _ _ => some ⟨10, far, qos⟩
  | .t11 _ => none

/-- QoS of M0, M1 and M4 (R565). -/
def qosM0 (s : State) (k : Nat) : Nat := s.get (pgTk k 1) TP1.MQOS_Q_M0
def qosM1 (s : State) (k : Nat) : Nat := s.get (pgTk k 1) TP1.MQOS_Q_M1
def qosM4 (s : State) (k : Nat) : Nat := s.get (pgTk k 1) TP1.MQOS_Q_M4

/-- The QoS of a descriptor's bursts and packets (R565, R617). -/
def fryQos (s : State) (k : Nat) (a : FryAct) : Nat :=
  let q := if a.req.berth then min a.qos (s.get (pgTk k 2) TP2.FRY_CTL_BERTH_QCAP) else a.qos
  min q (s.get (pgTk k 1) TP1.MQOS_CAP_M2)

/-- The QoS of a packet at M3. -/
def qosM3 (s : State) (k : Nat) (p : Pkt) : Nat := min p.qos (s.get (pgTk k 1) TP1.MQOS_CAP_M3)

/-- The rig and the ferry engine of the tile with a key. -/
def State.rig (s : State) (k : Nat) : Rig := lookup Rig.reset s.m.rigs k
def State.ferry (s : State) (k : Nat) : Ferry := lookup Ferry.reset s.m.fry k

/-- The request of M0: the oldest access of the LSU that has still to be carried. -/
def lsuReq (s : State) (k : Nat) : Option Req :=
  match (s.rig k).lsuQ with
  | [] => none
  | a :: _ =>
    let n := a.kind.size; let d := a.addr.toNat
    if a.sent || a.kind == .sync || d % n != 0 then none
    else match placeSpan s k d n a.berth with
      | .dmem l => if a.kind.writes && a.berth && lineWaits s k l n then none
          else some ⟨bankOf l, a.kind.beats, qosM0 s k⟩
      | p => reqAt p a.kind.beats 1 (qosM0 s k)

/-- The bytes that a FOLD's next read takes: to the end of its 16-byte beat (R414). -/
def foldCount (fo : Fold) : Nat := min (16 - fo.ptr.toNat % 16) fo.rem.toNat

/-- The request of M4: the next beat of the FOLD in flight, once every older LSU access has completed (R588). -/
def foldReq (s : State) (k : Nat) : Option Req :=
  let r := s.rig k
  let fo := r.fold
  if !fo.busy || fo.sent || r.lsuQ.any (fun a => decide (a.slot < fo.slot)) then none
  else reqAt (placeIn fo.wins s k fo.ptr.toNat fo.berth) 1 1 (qosM4 s k)

/-- A berth-world write of a descriptor reaches a local line that has not been copied (R337). -/
def fryWaits (s : State) (k : Nat) (a : FryAct) : Bool :=
  a.req.berth && match placeSpan s k a.to' a.gathered.length true with
    | .dmem d => lineWaits s k d a.gathered.length
    | _ => false

/-- The request of M2: the next burst of the active descriptor. -/
def fryReq (s : State) (k : Nat) : Option Req :=
  match (s.ferry k).act with
  | none => none
  | some a =>
    let q := fryQos s k a
    if a.moved || a.reading.isSome then none
    else if (a.dkind = 0 ∧ a.gathered = []) ∨ (a.dkind ≠ 0 ∧ a.pos < a.len ∧ (a.dkind ≠ 2 ∨ a.gathered.length < 16)) then
      reqAt (placeSpan s k a.from' a.chunk a.req.berth) (beatsOf a.from' a.chunk) 1 q
    else if a.dkind = 0 then
      if fryWaits s k a || a.writes != 0 then none
      else reqAt (placeSpan s k a.to' a.gathered.length a.req.berth) (beatsOf a.to' a.gathered.length)
        (beatsOf 0 a.gathered.length) q
    else if a.dkind = 2 then some ⟨8, a.gathered.length / 16, q⟩
    else some ⟨10, min 16 (beatsOf 0 a.gathered.length), q⟩

/-- Two packets keep their order (R600). -/
def Pkt.sameFlow (p q : Pkt) : Bool :=
  p.srcField == q.srcField && p.srcTile == q.srcTile && p.dstField == q.dstField && p.dstTile == q.dstTile && p.vc == q.vc

/-- The tile that a packet has arrived at, by key. -/
def Pkt.tile (p : Pkt) : Nat := tileKey p.dstField p.dstTile

/-- Bytes of the messages that a tile's collecting half holds so far. -/
def collected (s : State) (k : Nat) : Nat := ((lookup [] s.m.x.collect k).map fun q => q.payload.length).foldl (· + ·) 0

/-- Where M3 puts the next bytes of a post: behind the index of the collecting half, after those that it holds (DESIGN CHOICE, log
40); none where the tile has no bay or the half is full. -/
def postAddr (s : State) (k n : Nat) : Option Nat :=
  let base := s.get (p0 k) TP0.POST_BAY_BASE
  let pages := s.get (p0 k) TP0.POST_BAY_PAGES
  if 64 < base + 2 * pages ∨ pages * 4096 < 8192 + collected s k + n then none
  else some ((base + (1 - visibleHalf s) * pages) * 4096 + 8192 + collected s k)

/-- The bytes that a request packet reads or writes at its tile, and its beats; none for a kind that reaches no bank. -/
def pktSpan (s : State) (k : Nat) (p : Pkt) : Option (Nat × Nat × Nat) :=
  let a := p.addr.toNat
  match p.kind with
  | 0 | 1 => some (a, opSize p.op, 1)
  | 2 => some (a, 4, 2)
  | 3 => some (a, p.flits.length, beatsOf a (burstLen a p.flits.length))
  | 5 => (postAddr s k p.flits.length).map fun d => (d, p.flits.length, beatsOf d p.flits.length)
  | 7 => some (a, p.data.toNat, beatsOf a (burstLen a p.data.toNat))
  | _ => none

/-- The request of a packet that has arrived at its tile; none where T11 answers it. -/
def pktReq (s : State) (p : Pkt) : Option Req :=
  if p.kind = 4 then some ⟨8, p.flits.length / 16, qosM3 s p.tile p⟩
  else (pktSpan s p.tile p).bind fun x =>
    if (m3Kind s p.tile x.1 x.2.1).isSome then none else some ⟨bankOf x.1, x.2.2, qosM3 s p.tile p⟩

/-- A berth-world write of a packet to a line that has not been copied waits (R337). -/
def pktWaits (s : State) (p : Pkt) : Bool :=
  p.world && (p.kind == 1 || p.kind == 2 || p.kind == 3) && match pktSpan s p.tile p with
    | some x => lineWaits s p.tile x.1 x.2.1
    | none => false

/-- The packet that M3 presents: the oldest request that has arrived at the tile and does not wait (R560, R600). -/
def m3Packet (k : Nat) (s : State) : List Pkt → List Pkt → Option Pkt
  | _, [] => none
  | before, p :: rest =>
    if p.kind < 8 ∧ p.dstField < 56 ∧ p.tile = k ∧ p.path.isEmpty ∧ !before.any p.sameFlow ∧ !pktWaits s p then some p
    else m3Packet k s (p :: before) rest

/-- The request of M3. -/
def m3Req (s : State) (k : Nat) : Option Req := (m3Packet k s [] s.m.net).bind (pktReq s)

/-! ### Arbitration (R566, R571, R581, R582) -/

/-- The credit that is left to master m on target t (R581). -/
def credit (s : State) (k m t : Nat) : Nat := lookup 0 s.m.credits ((5 * k + m) * 16 + t)

/-- The master that a target has last granted; before its first grant, the one that PARK named as the matrix left its reset: the
reset values of PARK (R566, R589). -/
def lastGranted (s : State) (k t : Nat) : Nat :=
  match lookup 0 s.m.granted (16 * k + t) with
  | 0 => if t = 8 then 1 else if t = 10 then 2 else 0
  | n + 1 => n

/-- A request ranks before another master's for the same target: by credit, then by QoS, then in the cyclic order from the master
after the one last granted (R566). -/
def outranks (s : State) (k : Nat) (m : Nat) (q : Req) (m' : Nat) (q' : Req) : Bool :=
  let c := decide (q.beats ≤ credit s k m q.target)
  let c' := decide (q'.beats ≤ credit s k m' q'.target)
  let turn := fun x => (x + 4 - lastGranted s k q.target) % 5
  if c != c' then c else if q.qos ≠ q'.qos then decide (q'.qos < q.qos) else decide (turn m < turn m')

/-- The requests of the masters that wait: M1 fetches in the cycle of its grant, and waits for none between rows. -/
def waiting (s : State) (k : Nat) : List (Nat × Req) :=
  [(0, lsuReq s k), (2, fryReq s k), (3, m3Req s k), (4, foldReq s k)].filterMap fun e => e.2.map fun q => (e.1, q)

/-- A master's request wins its arbitration (R566): no waiting request of another master for its target ranks before it. -/
def wins (s : State) (k m : Nat) (q : Req) : Bool :=
  (waiting s k).all fun e => e.1 == m || e.2.target != q.target || !outranks s k e.1 e.2 m q

/-- A grant of some beats to a master on a target: credit used when it covers them, the target's last master, and one more wait of
the master that WAIT_M counts (R566, R582, R589). -/
def grant (k m t beats : Nat) (s : State) : State :=
  let key := (5 * k + m) * 16 + t
  let c := credit s k m t
  let s := if beats ≤ c then { s with m := { s.m with credits := put 0 s.m.credits key (c - beats) } } else s
  { s with m := { s.m with granted := put 0 s.m.granted (16 * k + t) (m + 1)
                           waits := put 0 s.m.waits (5 * k + m) (lookup 0 s.m.waits (5 * k + m) + 1) } }

/-- The grants of a transfer: one burst for each aligned 256-byte block (R568). -/
def grantBursts (k m a n : Nat) (s : State) : State :=
  let b := burstLen a n
  let s := grant k m (bankOf a) (beatsOf a b) s
  if n ≤ b then s else grant k m (bankOf (a + b)) (beatsOf (a + b) (n - b)) s

/-- The matrix of a tile is halted: every master waits (R563). -/
def matrixHalted (s : State) (k : Nat) : Bool := s.on (pgTk k 1) HDR.PAGE_STATUS_HALTED

/-- M1's request for a beat of T8 is granted (R558, R563, R566, R794). -/
def fetchGranted (s : State) (k : Nat) : Bool := !matrixHalted s k && wins s k 1 ⟨8, 1, qosM1 s k⟩

/-- What WAIT_M[m] reads: the cycles that each grant had to wait for, added up, saturating (R589; the cycles of one wait are a free
value, log 9). -/
def waitCount (s : State) (k m : Nat) : Nat :=
  min (((List.range (lookup 0 s.m.waits (5 * k + m))).map fun i => Config.waitCycles (5 * k + m) i).foldl (· + ·) 0)
    (2 ^ 32 - 1)

end Sys2Proof.Machine
end

