-- ==== Sys2Proof/Machine/Rig.lean ====
section
/-! DEFINITION. The rig of a tile: sources (R353, R361), the checks at issue (R383, R497, R503, R543, R550, R553, R554,
R721), stalls (R368), the issue of one bundle (R363 to R384, R485 to R488, R726) and the arrival of transfers (R379 to
R381, R504, R505, R532, R544, R545, R548, R549). -/
namespace Sys2Proof.Machine

/-! ### Reaching a tile's rig and registers -/

/-- The state with a tile's rig set. -/
def State.setRig (s : State) (k : Nat) (r : Rig) : State :=
  { s with m := { s.m with rigs := put Rig.reset s.m.rigs k r } }

/-- The state with a tile's rig changed. -/
def State.modRig (s : State) (k : Nat) (g : Rig → Rig) : State := s.setRig k (g (s.rig k))

/-- The state at a WTIME. -/
def State.atTime (s : State) (w : Nat) : State := { s with m := { s.m with wtime := w } }

/-- The tile runs in split mode (R511). -/
def isSplit (s : State) (k : Nat) : Bool := s.on (p0 k) TP0.PMODE_MODE
/-- The rig is in the berth world (R512). -/
def inBerth (s : State) (k : Nat) : Bool := s.on (p0 k) TP0.PRIV_WORLD
/-- The current level (R512). -/
def curLevel (s : State) (k : Nat) : Nat := s.get (p0 k) TP0.PRIV_LEVEL
/-- The exception bank of the current world: 0 is K, 1 is B (R517). -/
def bankIx (s : State) (k : Nat) : Nat := if isSplit s k && inBerth s k then 1 else 0
/-- A register of the current exception bank (R517). -/
def bankGet (s : State) (k : Nat) (F : Fld) : Nat := s.get (p0 k) (F.at (bankIx s k))
/-- The state with a register of the current exception bank set. -/
def bankSet (s : State) (k : Nat) (F : Fld) (v : Nat) : State := s.set (p0 k) (F.at (bankIx s k)) v
/-- MLEVEL of the current world (R517). -/
def curMask (s : State) (k : Nat) : Nat := bankGet s k TP0.X_MLEVEL_LEVEL
/-- The current level is the most privileged of the tile's scheme: PL0 in gated mode, keeper supervisor in split mode (R512). -/
def mostPriv (s : State) (k : Nat) : Bool := curLevel s k == 0 && !(isSplit s k && inBerth s k)

/-- The state with the level and the world of a tile set. -/
def setPriv (s : State) (k level : Nat) (berth : Bool) : State :=
  (s.set (p0 k) TP0.PRIV_LEVEL level).set (p0 k) TP0.PRIV_WORLD (bit berth)

/-! ### Fixed-latency results (R369 to R373) -/

/-- The sockets with a result written. -/
def writeSocks (socks : List (Nat × Word)) (ws : List (Nat × Word)) : List (Nat × Word) :=
  ws.foldl (fun m w => put 0 m w.1 w.2) socks

/-- A result put in its place among results in the order of their due slots, before those of its own slot. -/
def insertLand (l : Land) : List Land → List Land
  | [] => [l]
  | x :: r => if l.due ≤ x.due then l :: x :: r else x :: insertLand l r

/-- The in-flight results that are due by a slot, written in the order of their due slots; the operations of one due
slot in trigger order (R373). -/
def landDue (slot : Nat) (r : Rig) : Rig :=
  let due := (r.inflight.filter fun l => decide (l.due ≤ slot)).foldr insertLand []
  { r with socks := due.foldl (fun m l => writeSocks m l.writes) r.socks
           inflight := r.inflight.filter fun l => decide (slot < l.due) }

/-- The results of latency 1 triggered in a slot, written at its end; what an older operation would write to the same
socket in the same slot is dropped (R373). -/
def landShort (slot : Nat) (r : Rig) : Rig :=
  let now := r.inflight.filter fun l => l.trig == slot && l.due == slot + 1
  let socks := now.flatMap fun l => l.writes.map Prod.fst
  { r with socks := now.foldl (fun m l => writeSocks m l.writes) r.socks
           inflight := (r.inflight.filter fun l => !(l.trig == slot && l.due == slot + 1)).map fun l =>
             if l.due ≤ slot + 1 then { l with writes := l.writes.filter fun w => !socks.contains w.1 } else l }

/-- Imprecise arithmetic exceptions whose cycle has come set ARITH pending (R528); one raised while ARITH is pending
only marks MULTI (R521). -/
def raiseOne (k : Nat) (s : State) (a : Arith) : State :=
  if s.on (p0 k) TP0.EVENTS_ARITH then s.modRig k fun r => { r with arithMulti := true }
  else (s.set (p0 k) TP0.EVENTS_ARITH 1).modRig k fun r =>
    { r with arithRec := some ⟨a.code, a.info, a.bundle, a.slot, 0⟩, arithMulti := false }

/-- An exception on its way put in its place among others by the cycles in which they are raised; of one cycle, in trigger order. -/
def insertArith (a : Arith) : List Arith → List Arith
  | [] => [a]
  | x :: r => if a.raiseAt ≤ x.raiseAt then a :: x :: r else x :: insertArith a r

/-- Every imprecise exception of a tile that is due at the current WTIME, in the order in which they are raised (R521, R528). -/
def raiseDue (k : Nat) (s : State) : State :=
  let r := s.rig k
  let due := (r.ariths.filter fun a => decide (a.raiseAt ≤ s.m.wtime)).foldr insertArith []
  due.foldl (raiseOne k)
    (s.setRig k { r with ariths := r.ariths.filter fun a => decide (s.m.wtime < a.raiseAt) })

/-- The slot whose results are due: of a rig that issues no more, every operation in flight runs to completion (R394, R534); 18 is
the longest latency (R370). -/
def landSlot (r : Rig) : Nat := if r.run = .running then r.slot else r.slot + 18

/-- What time and issue slots have brought to a tile: results that are due and exceptions that are raised. -/
def settleRig (k : Nat) (s : State) : State := raiseDue k (s.modRig k fun r => landDue (landSlot r) r)

/-! ### Sources (R353, R361, R365, R366, R372) -/

/-- What an interlocked socket reads (R372): the oldest unseen result whose latency has passed, else what it held. -/
def ilkRead (q : List Ilk) (slot : Nat) (held : Word) : Word :=
  match q with
  | e :: _ => if e.slot + e.lat ≤ slot then e.val.getD held else held
  | [] => held

/-- A read of an interlocked socket waits (R368, R372). -/
def ilkWaits (q : List Ilk) (slot : Nat) : Bool :=
  match q with
  | e :: _ => decide (e.slot + e.lat ≤ slot) && !e.done
  | [] => false

/-- The fields of socket fst (R409). -/
def fstWord (fo : Fold) : Word :=
  BitVec.ofNat 32 (bit fo.resume + 2 * bit fo.busy + 4 * (fo.alg % 4) + 16 * bit fo.lenErr + 32 * bit fo.busErr)

/-- The value of a source at the start of an issue slot (R374). -/
def srcVal (s : State) (k : Nat) (b : Bundle) (x : Nat) : Word :=
  let r := s.rig k
  if x < 0x040 then lookup 0 r.ports x
  else if 0x300 ≤ x then shortImm x
  else if x = 0x0E0 then b.limm
  else if x = 0x0E1 then BitVec.ofNat 32 r.lnk
  else if x = 0x0E2 then r.lc
  else if x = 0x0E3 then BitVec.ofNat 32 r.rptc
  else if x = 0x0E4 then BitVec.ofNat 32 (bit r.g0 + 2 * bit r.g1 + 4 * bit r.g2)
  else if x = 0x0E5 then BitVec.ofNat 32 r.pc
  else if x = 0x0D0 then ilkRead r.lsuIlk r.slot (lookup 0 r.socks x)
  else if x = 0x0F0 then ilkRead r.iouIlk r.slot (lookup 0 r.socks x)
  else if x = 0x073 then fstWord r.fold
  else if x = 0x0F8 then s.word (pgTk k 2 + 0x040) &&& 0xFFFF
  else if x = 0x0F9 then s.word (pgTk k 2 + 0x044)
  else lookup 0 r.socks x

/-- A guard's value (R359). -/
def guardHolds (r : Rig) (g : Nat) : Bool :=
  match g with
  | 0 => true
  | 1 => r.g0 | 2 => r.g1 | 3 => r.g2
  | 4 => !r.g0 | 5 => !r.g1 | 6 => !r.g2
  | _ => false

/-! ### Fetch -/

/-- IF_ADDR as the iow writes before an outstanding IFS leave it (R471). -/
def ifTargets (ifAddr : Nat) : List IouAcc → List (Nat × Nat)
  | [] => []
  | q :: rest =>
    if q.write ∧ q.addr = 0x040 then ifTargets (q.data.toNat % 4096) rest
    else if q.write ∧ q.addr = 0x054 ∧ q.data.getLsbD 0 then
      (q.slot, ifAddr) :: ifTargets (if q.data.getLsbD 1 then (ifAddr + 1) % 4096 else ifAddr) rest
    else if q.write ∧ q.addr = 0x058 ∧ q.data.getLsbD 0 ∧ q.data.getLsbD 1 then
      ifTargets ((ifAddr + 1) % 4096) rest
    else ifTargets ifAddr rest

/-- Fetch waits for an outstanding IFS to the next bundle (R472). -/
def ifsWaits (s : State) (k : Nat) : Bool :=
  let r := s.rig k
  ((ifTargets (s.get (p0 k) TP0.IF_ADDR_BUNDLE) r.iouQ).any fun q => q.2 == r.pc && decide (q.1 + 4 ≤ r.slot)) ||
  (lookup [] s.m.ifWaits k).any fun q => q.store.isSome && q.addr == r.pc &&
    !r.ifsOld.any fun e => e.2.1 == r.pc && decide (r.slot < e.1)

/-- The content of IMEM at a bundle address of a tile. -/
def imemAt (s : State) (k a : Nat) : BitVec 128 := lookup 0 s.m.imem (k * 4096 + a)

/-- The bundle that the rig would issue next: a repeat's held content (R487), else IMEM as fetch sees it (R382). -/
def nextBundle (s : State) (k : Nat) : BitVec 128 :=
  let r := s.rig k
  match r.rpt with
  | some ⟨start, _, some c⟩ => if r.pos = start then c else imemAt s k r.pc
  | _ =>
    match r.ifsOld.find? fun e => e.2.1 == r.pc && decide (r.slot < e.1) with
    | some e => e.2.2
    | none => imemAt s k r.pc

/-- The enabled moves of the next bundle with their slots. -/
def enabledMoves (r : Rig) (b : Bundle) : List (Nat × Move) :=
  (b.moves.zipIdx.map fun p => (p.2, p.1)).filter fun p => guardHolds r p.2.guard

/-- The enabled destinations of a bundle with their slots. -/
def enabledDests (r : Rig) (b : Bundle) : List (Nat × Dest) :=
  (enabledMoves r b).filterMap fun p => (destOf p.2.dst).map fun d => (p.1, d)

/-- The enabled trigger of a unit, with its slot and its value, for a bundle with at most one. -/
def triggerOf (s : State) (k : Nat) (b : Bundle) (u : Unit') : Option (Dest × Word) :=
  (enabledMoves (s.rig k) b).findSome? fun p =>
    match destOf p.2.dst with
    | some d => if d.unit = some u then some (d, srcVal s k b p.2.src) else none
    | none => none

/-- The value of an operand port after the moves of a bundle: the highest enabled slot that writes it stands (R375,
R376). -/
def portAfter (s : State) (k : Nat) (b : Bundle) (d : Nat) : Word :=
  (enabledMoves (s.rig k) b).foldl (fun v p => if p.2.dst = d then srcVal s k b p.2.src else v)
    (lookup 0 (s.rig k).ports d)

/-! ### Faults at issue (R383, R497, R523 step 3) -/

/-- A transfer kind of the third row of R497. -/
def XferKind.handler : XferKind → Bool
  | .jump | .cont => false
  | _ => true

/-- The next bundle is a delay bundle of a pending transfer with a property. -/
def inDelay (r : Rig) (p : XferKind → Bool) : Bool :=
  r.pend.any fun q => p q.kind && decide (r.pos < q.due) && decide (q.due ≤ r.pos + 2)

/-- The next bundle is the repeated bundle. -/
def inRepeat (r : Rig) : Bool :=
  match r.rpt with
  | some q => r.pos == q.start
  | none => false

/-- The next bundle is a delay bundle of a repeat. -/
def inRepeatDelay (r : Rig) : Bool :=
  match r.rpt with
  | some q => decide (r.pos < q.start)
  | none => false

/-- A control trigger stands where R497 forbids it. -/
def misplaced (r : Rig) (d : Dest) : Bool :=
  let h := inDelay r XferKind.handler
  if d.jumps then inRepeat r || h
  else if d.repeats then inRepeat r || inRepeatDelay r || h
  else if d.handler then inRepeat r || inRepeatDelay r || inDelay r fun q => q != .cont
  else false

/-- The highest slot among conflicting triggers (R377, R518). -/
def conflictSlot (ds : List (Nat × Dest)) : Option Nat :=
  (ds.filter fun p => p.2.unit.isSome &&
    ds.any fun q => q.1 != p.1 && q.2.unit == p.2.unit).foldl (fun _ p => some p.1) none

/-- An I/O address that R437 calls valid. -/
def ioValid (a : Word) : Bool := a.toNat % 4 == 0 && decide (a.toNat < 0x4000)

/-- ior and iow reach an I/O address at the current level (R552). -/
def ioAllowed (s : State) (k : Nat) (a : Nat) (write : Bool) : Bool :=
  let mp := mostPriv s k
  let berthSup := isSplit s k && inBerth s k && curLevel s k == 0
  let berthAny := isSplit s k && inBerth s k
  let off := a % 4096
  if off < 0x40 then mp
  else match a / 4096 with
  | 0 =>
    if off = 0x080 ∨ off = 0x084 then !write
    else if 0x160 ≤ off ∧ off < 0x180 then mp || berthSup
    else if off = 0x208 ∨ off = 0x20C ∨ off = 0x210 ∨ off = 0x214 ∨ off = 0x218 ∨ off = 0x220 then
      !write && (mp || berthAny)
    else if off = 0x200 then write && (mp || berthSup)
    else mp
  | 1 | 2 => mp || (!isSplit s k && decide (curLevel s k ≤ s.get (p0 k) TP0.TILE_CTL_IOPL))
  | _ => mp

/-- The reason that a gwcall with operand t fails, in the order of R503. -/
def gwcallReason (s : State) (k : Nat) (t : Word) : Option Nat :=
  let p := p0 k; let n := t.toNat
  if 8 ≤ n then some 2
  else if !s.on p (TP0.GW_EN.at n) then some 1
  else if isSplit s k && decide (2 ≤ s.get p (TP0.GW_TARGET.at n)) then some 6
  else if !bitAt (s.get p (TP0.GW_ALLOW.at n)) (curLevel s k) ||
      (isSplit s k && inBerth s k != s.on p (TP0.GW_WORLD.at n)) then some 3
  else if s.on p TP0.GW_STATE_ACTIVE then some 4
  else none

/-- The page of a tile's gate descriptors. -/
def p3 (k : Nat) : Nat := pgTk k 3

/-- Entry i of the gate stack: the return bundle and the caller's level (R515). -/
def gstackEntry (s : State) (k i : Nat) : Nat :=
  match i with
  | 0 => s.get (p0 k) TP0.GSTACK_A_E0
  | 1 => s.get (p0 k) TP0.GSTACK_A_E1
  | _ => s.get (p0 k) TP0.GSTACK_B_E2

/-- The reason that a gate trigger fails, in the order of R543. -/
def gateReason (s : State) (k : Nat) (t : Word) : Option Nat :=
  let n := t.toNat
  if isSplit s k then some 6
  else if 64 < n then some 1
  else if n < 64 then
    if !s.on (p3 k) (TP3.GATE_EN.at n) then some 2
    else if !bitAt (s.get (p3 k) (TP3.GATE_ALLOW.at n)) (curLevel s k) then some 3
    else if 3 ≤ s.get (p0 k) TP0.GSTACK_B_DEPTH then some 4
    else none
  else
    let d := s.get (p0 k) TP0.GSTACK_B_DEPTH
    if d = 0 ∨ gstackEntry s k (d - 1) / 4096 ≤ curLevel s k then some 5 else none

/-- The reason that a slip fails (R550). -/
def slipReason (s : State) (k : Nat) : Option Nat :=
  if !isSplit s k then some 3
  else if !inBerth s k && curLevel s k == 0 && !s.on (p0 k) TP0.SLIP_VALID then some 1
  else if !inBerth s k && curLevel s k != 0 then some 2
  else if s.on (p0 k) TP0.GW_STATE_ACTIVE then some 4
  else none

/-- The privilege faults of a trigger with its value (R503, R543, R550, R553, R554). -/
def privFault (s : State) (k : Nat) (d : Dest) (t : Word) : Option IssueFault :=
  match d with
  | .ior => if ioValid t && !ioAllowed s k t.toNat false then some ⟨0x05, 5, 1, t⟩ else none
  | .iow => if ioValid t && !ioAllowed s k t.toNat true then some ⟨0x05, 5, 1, t⟩ else none
  | .eret => if curLevel s k ≠ 0 then some ⟨0x05, 5, 2, 0⟩ else none
  | .gate => (gateReason s k t).map fun n => ⟨0x07, 5, n, 0⟩
  | .gwcall => (gwcallReason s k t).map fun n => ⟨0x06, 5, n, 0⟩
  | .gwret => if s.on (p0 k) TP0.GW_STATE_ACTIVE then none else some ⟨0x06, 5, 5, 0⟩
  | .slip => (slipReason s k).map fun n => ⟨0x08, 5, n, 0⟩
  | _ => none

/-- The enabled region that contains a bundle address (R718). -/
def activeRegion (s : State) (k a : Nat) : Option Nat :=
  (List.range 8).find? fun i =>
    s.on (p0 k) (TP0.REGION_B_EN.at i) && decide (s.get (p0 k) (TP0.REGION_A_START.at i) ≤ a) &&
      decide (a ≤ s.get (p0 k) (TP0.REGION_A_END.at i))

/-- The heavy budget of a bundle (R718). -/
def heavyBudget (s : State) (k a : Nat) : Nat :=
  match activeRegion s k a with
  | some i => s.get (p0 k) (TP0.REGION_B_H.at i)
  | none => 0

/-- The heavy triggers that HIST holds for the last 15 slots (R720, R721). -/
def histSum (h : Nat) : Nat → Nat
  | 0 => 0
  | n + 1 => histSum h n + bits h (2 * n) 2

/-- The number of enabled heavy triggers. -/
def heavyCount (ds : List (Nat × Dest)) : Nat := (ds.filter fun p => p.2.heavy).length

/-- The REEF fault of a bundle (R721). -/
def reefFault (s : State) (k : Nat) (ds : List (Nat × Dest)) : Option IssueFault :=
  let n := heavyCount ds
  if n ≠ 0 ∧ heavyBudget s k (s.rig k).pc < histSum (s.get (p0 k) TP0.REEF_HIST_HIST) 15 + n then
    (ds.find? fun p => p.2.heavy).map fun p => ⟨0x04, 6, p.1, 0⟩
  else none

/-- The fault at issue of the next bundle: the first that applies in the order of R523 step 3. -/
def issueFault (s : State) (k : Nat) : Option IssueFault :=
  let r := s.rig k
  let w := nextBundle s k
  let b := bundleOf w
  let ds := enabledDests r b
  if lookup 0 s.m.imemErr (k * 4096 + r.pc) = 2 ∧ !(inRepeat r && (r.rpt.bind Rpt.content).isSome) then
    some ⟨0x0C, 0, 0, 0⟩
  else match encodingOffence w fun m => guardHolds r m.guard with
  | some i => some ⟨0x02, 6, i, 0⟩
  | none =>
    match ds.find? fun p => misplaced r p.2 with
    | some p => some ⟨0x02, 6, p.1 + 8, 0⟩
    | none =>
      match conflictSlot ds with
      | some i => some ⟨0x03, 6, i, 0⟩
      | none =>
        match [Unit'.iou, Unit'.cu].findSome? fun u =>
            (triggerOf s k b u).bind fun p => privFault s k p.1 p.2 with
        | some e => some e
        | none => reefFault s k ds

/-- The address and the updated base of an access mode (R431). -/
def accessAddr (m : Nat) (size : Nat) (t x d : Word) : Word × Option Word :=
  let s := BitVec.ofNat 32 size
  match m with
  | 0 => (t, none)
  | 1 => (t, some (t + s))
  | 2 => (t - s, some (t - s))
  | 3 => (t + x, none)
  | 4 => (t + 2 * x, none)
  | 5 => (t + 4 * x, none)
  | 6 => (t + 8 * x, none)
  | _ => (t + d, none)

/-- The access kinds of R431. -/
def accessKind : Nat → LsuKind
  | 0 => .load 1 false | 1 => .load 1 true | 2 => .load 2 false | 3 => .load 2 true | 4 => .load 4 false
  | 5 => .store 1 | 6 => .store 2 | _ => .store 4

/-! ### Whether the rig issues (R368, R520, R522, R538) -/

/-- The pending event that would be taken, as its source 0 ARITH, 1 FERRY, 2 TIMER, 3 SOFT and its level: the highest
level first, at equal levels in that order (R520, R523 step 2). -/
def takeableEvent (s : State) (k : Nat) : Option (Nat × Nat) :=
  let p := p0 k; let m := curMask s k
  let c := [(0, TP0.EVENTS_ARITH, TP0.EVENTS_LV_ARITH), (1, TP0.EVENTS_FERRY, TP0.EVENTS_LV_FERRY),
    (2, TP0.EVENTS_TIMER, TP0.EVENTS_LV_TIMER), (3, TP0.EVENTS_SOFT, TP0.EVENTS_LV_SOFT)]
  c.foldl (fun best e =>
    let l := s.get p e.2.2
    if s.on p e.2.1 && decide (m < l) && decide (l ≠ 0) then
      match best with
      | none => some (e.1, l)
      | some x => if x.2 < l then some (e.1, l) else some x
    else best) none

/-- A position in which no event is taken (R490, R491, R522). -/
def eventHeld (r : Rig) : Bool :=
  r.atTarget || r.pend.any (fun q => q.kind.handler) ||
    match r.rpt with
    | some q => q.nonInt || decide (r.pos < q.start) || (r.pos == q.start && q.content.isNone)
    | none => false

/-- The rig is at a boundary at which it would issue: running, not halted, no halt requested (R538). -/
def canRun (s : State) (k : Nat) : Bool :=
  (s.rig k).run == .running && !s.on (p0 k) HDR.PAGE_STATUS_HALTED && !s.on (p0 k) HDR.PAGE_CONTROL_HALT_REQ

/-- An exception of step 1 or 2 of R523, or a trap that has arrived, comes before the next bundle. -/
def entryFirst (s : State) (k : Nat) : Bool :=
  let r := s.rig k
  !r.entryFresh && (!r.raised.isEmpty || r.trapDue.isSome ||
    ((takeableEvent s k).isSome && !eventHeld r))

/-- An access trigger of the next bundle writes, from the berth world, to a local line that has not been copied (R337, R368). -/
def storeWaits (s : State) (k : Nat) (b : Bundle) (d : Dest) (t : Word) : Bool :=
  let at' := fun (kind : LsuKind) (a : Word) =>
    kind.writes && a.toNat % kind.size == 0 && match place s k a.toNat true with
      | .dmem l => lineWaits s k l kind.size
      | _ => false
  inBerth s k && match d with
    | .access kd m => at' (accessKind kd)
        (accessAddr m (accessKind kd).size t (portAfter s k b 0x1E1) (portAfter s k b 0x1E2)).1
    | .swp => at' .swp t
    | .ldadd => at' .ldadd t
    | .cas => at' .cas t
    | _ => false

/-- The next bundle has to be fetched: it is not an iteration of a repeat after the first (R487). -/
def fetches (r : Rig) : Bool := !(inRepeat r && (r.rpt.bind Rpt.content).isSome)

/-- The bundle waits for something other than time (R368): its fetch, an interlocked socket, a full queue, a FOLD, an IFS, a line of
the snapshot. -/
def waits (s : State) (k : Nat) (b : Bundle) : Bool :=
  let r := s.rig k
  let ms := enabledMoves r b
  let ds := enabledDests r b
  ifsWaits s k || (fetches r && !fetchGranted s k) ||
  ((triggerOf s k b .lsu).elim false fun p => storeWaits s k b p.1 p.2) ||
  ms.any (fun p => (p.2.src == 0x0D0 && ilkWaits r.lsuIlk r.slot) || (p.2.src == 0x0F0 && ilkWaits r.iouIlk r.slot) ||
    (p.2.src == 0x072 && r.fold.busy)) ||
  ds.any (fun p => match p.2 with
    | .fold _ | .fclr => r.fold.busy
    | .access _ _ | .swp | .ldadd | .cas | .sync => decide (4 ≤ r.lsuQ.length)
    | .ior | .iow => decide (2 ≤ r.iouQ.length)
    | .kick => decide (4 ≤ s.get (pgTk k 2) TP2.FRY_STATUS_QUEUED)
    | _ => false)

/-- The tile has issued its budgeted bundle (R327): its berth's slot, as latched, gives the budget. -/
def budgetSpent (s : State) (k : Nat) : Bool :=
  let lid := s.get (pgTk k 2) TP2.LID_ID
  s.m.x.berths.any fun b => decide (b.slot.base ≤ lid) && decide (lid < b.slot.base + b.slot.count) &&
    s.on (pgTk k 2) TP2.LID_VALID &&
    decide (b.slot.budget ≤ s.get2 (p0 k) TP0.BUNDLES_LO_COUNT TP0.BUNDLES_HI_COUNT)

/-- An iow of CXDONE waits for the tile's snapshot copy (R315). -/
def cxdoneWaits (s : State) (k : Nat) : Bool :=
  (s.rig k).iouQ.any fun q => q.write && q.addr == 0x200 && q.data.getLsbD 0

/-- The rig issues the next bundle: nothing of R368 or R523 stands before it. -/
def issues (s : State) (k : Nat) : Bool :=
  let b := bundleOf (nextBundle s k)
  canRun s k && (s.rig k).taking.isNone && !entryFirst s k && (issueFault s k).isNone && !waits s k b && !budgetSpent s k && !cxdoneWaits s k

/-! ### The cycle of an issue -/

/-- The heavy triggers of a tile in the 15 cycles before a cycle (R726). -/
def heavyWindow (r : Rig) (c : Nat) : Nat :=
  ((r.heavyAt.filter fun e => decide (e.1 < c) && decide (c ≤ e.1 + 15)).map Prod.snd).sum

/-- The allowance lets n heavy triggers issue in a cycle (R726). -/
def admits (r : Rig) (a n c : Nat) : Bool := decide (heavyWindow r c + n ≤ a) || heavyWindow r c == 0

/-- The first cycle from c on in which n heavy triggers are admitted; within 16 cycles the window is empty. -/
def reefCycle (r : Rig) (a n : Nat) : Nat → Nat → Nat
  | 0, c => c
  | fuel + 1, c => if n = 0 ∨ admits r a n c then c else reefCycle r a n fuel (c + 1)

/-- The cycle in which a bundle would issue but for reefing: one issue per cycle (R367), a precise operation's end
(R529), the units that count cycles (R370). -/
def readyCycle (s : State) (k : Nat) (ds : List (Nat × Dest)) : Nat :=
  let r := s.rig k
  let c := max s.m.wtime r.holdUntil
  let c := match r.lastIssue with
    | some l => max c (l + 1)
    | none => c
  let c := if ds.any (fun p => match p.2 with | .div _ => true | _ => false) then max c r.divFree else c
  if ds.any (fun p => match p.2 with | .hsh _ => true | _ => false) then max c r.hshFree else c

/-- The cycle in which the next bundle issues: its ready cycle, held by reefing while the allowance does not admit its heavy
triggers (R726). -/
def issueCycle (s : State) (k : Nat) : Nat :=
  let ds := enabledDests (s.rig k) (bundleOf (nextBundle s k))
  reefCycle (s.rig k) (s.get (pgFpwr (k / 512)) FPWR.LOOP_STATUS_ALLOWANCE) (heavyCount ds) 16 (readyCycle s k ds)

/-! ### Triggers -/

/-- The rig with a fixed-latency operation started. -/
def startOp (lat : Nat) (ws : List (Nat × Word)) (r : Rig) : Rig :=
  { r with inflight := r.inflight ++ [⟨r.slot, r.slot + lat, ws⟩] }

/-- The rig with an OVERFLOW or DIVIDE_BY_ZERO on its way: imprecise after L cycles (R528), or before the next bundle
in precise-arithmetic mode (R529). -/
def startRaise (precise : Bool) (c lat code info : Nat) (r : Rig) : Rig :=
  if precise then { r with raised := r.raised ++ [⟨code, info, r.pc, r.slot, 0⟩] }
  else { r with ariths := r.ariths ++ [⟨c + lat, code, info, r.pc, r.slot, false⟩] }

/-- The rig holds further issue until a checked operation completes, in precise-arithmetic mode (R529). -/
def holdPrecise (precise : Bool) (c lat : Nat) (r : Rig) : Rig :=
  if precise then { r with holdUntil := max r.holdUntil (c + lat) } else r

/-- An operand port's value. -/
def port (r : Rig) (d : Nat) : Word := lookup 0 r.ports d

/-- An ALU trigger (R397). -/
def trigAlu (precise : Bool) (c u : Nat) (op : AluOp) (t : Word) (r : Rig) : Rig :=
  let o := port r (0x040 + 0x040 * u)
  let cy := lookup 0 r.socks (0x041 + 0x010 * u)
  let ws := (0x040 + 0x010 * u, aluR op o t cy) ::
    match aluC op o t cy with
    | some x => [(0x041 + 0x010 * u, x)]
    | none => []
  let r := startOp 1 ws r
  let r := if op = .addv ∨ op = .subv then holdPrecise precise c 1 r else r
  if aluOv op o t then startRaise precise c 1 0x0A (u + 1) r else r

/-- An SHF trigger (R399). -/
def trigShf (op : ShfOp) (t : Word) (r : Rig) : Rig :=
  startOp 1 [(0x060, shfR op (port r 0x0C0) (port r 0x0C1) t)] r

/-- A CHK trigger of fixed latency (R403). -/
def trigChk (op : ChkOp) (t : Word) (r : Rig) : Rig :=
  startOp (chkLat op) [(chkSock op, chkR op (port r 0x100) (port r 0x102) (port r 0x103) (port r 0x104) t)] r

/-- A MUL trigger (R420). -/
def trigMul (precise : Bool) (c : Nat) (op : MulOp) (t : Word) (r : Rig) : Rig :=
  let o := port r 0x180
  let r := startOp 3 [(0x090, mulLo op o t), (0x091, mulHi op o t)] r
  let r := if op = .mulv ∨ op = .mulvu then holdPrecise precise c 3 r else r
  if mulOv op o t then startRaise precise c 3 0x0A 3 r else r

/-- A DIV trigger (R421, R422). -/
def trigDiv (precise : Bool) (c : Nat) (op : DivOp) (t : Word) (r : Rig) : Rig :=
  let o := port r 0x1A0
  let r := startOp 18 [(0x0A0, divR op o t), (0x0A1, divM op o t)] { r with divFree := c + 18 }
  let r := if op = .div ∨ op = .divu then holdPrecise precise c 18 r else r
  match divRaise op o t with
  | some code => startRaise precise c 18 code 4 r
  | none => r

/-- The HSH sockets for working variables, hash value and group counter (R424). -/
def hshSocks (v h : List Word) (g : Nat) : List (Nat × Word) :=
  (v.zipIdx.map fun p => (0x0B0 + p.2, p.1)) ++ (h.zipIdx.map fun p => (0x0B8 + p.2, p.1)) ++
    [(0x0C0, BitVec.ofNat 32 g)]

/-- The list held as eight words: an empty list is eight zeros (the state that no operation has written). -/
def eight (l : List Word) : List Word := (List.range 8).map fun i => nth l i

/-- An HSH trigger: 0 init, 1 seth, 2 rnd (R425 to R427). -/
def trigHsh (c op : Nat) (r : Rig) : Rig :=
  let w := (List.range 16).map fun i => port r (0x1C0 + i)
  let r := { r with hshFree := c + 8 }
  match op with
  | 0 | 1 =>
    let h := if op = 0 then shaInit else w.take 8
    startOp 8 (hshSocks h h 0) { r with hshH := h, hshV := h, hshG := 0 }
  | _ =>
    let sched := if r.hshG = 0 then w else r.hshW
    let (v, sched) := shaRounds 8 (8 * r.hshG) sched (eight r.hshV)
    if r.hshG = 7 then
      let h := addWords (eight r.hshH) v
      startOp 8 (hshSocks h h 0) { r with hshH := h, hshV := h, hshW := sched, hshG := 0 }
    else
      startOp 8 ((v.zipIdx.map fun p => (0x0B0 + p.2, p.1)) ++ [(0x0C0, BitVec.ofNat 32 (r.hshG + 1))])
        { r with hshV := v, hshW := sched, hshG := r.hshG + 1 }

/-- A FOLD that starts or continues with a checkpoint in force, under the windows, world and level of now (R410, R411, R419). -/
def runFold (wins : List Word) (berth : Bool) (level : Nat) (r : Rig) (fo : Fold) : Fold :=
  { fo with busy := true, resume := false, acc := fo.facc, ptr := fo.fptr, rem := fo.frem
            berth := berth, level := level, slot := r.slot, bundle := r.pc, sent := false, wins := wins }

/-- A FOLD trigger (R410, R411, R413). -/
def trigFold (wins : List Word) (berth : Bool) (level alg : Nat) (t : Word) (r : Rig) : Rig :=
  if r.fold.resume then { r with fold := runFold wins berth level r { r.fold with lenErr := false, busErr := false } }
  else
    let acc := port r 0x100; let len := port r 0x101
    let r := if alg = 3 then startOp 1 [(0x077, port r 0x102), (0x078, port r 0x103 &&& 3)] r else r
    let fo := { r.fold with alg := alg, facc := acc, fptr := t, frem := len, lenErr := false, busErr := false }
    if len = 0 ∨ 262144 < len.toNat then
      startOp 1 [(0x072, acc), (0x074, acc), (0x075, t), (0x076, len)]
        { r with fold := { fo with lenErr := decide (262144 < len.toNat) } }
    else { r with fold := runFold wins berth level r fo }

/-- The access writes socket r: loads, atomics and sync (R429, R432). -/
def LsuKind.result : LsuKind → Bool
  | .store _ => false
  | _ => true

/-- An LSU access queued (R433), with its interlocked operation. -/
def queueLsu (berth : Bool) (level : Nat) (kind : LsuKind) (addr : Word) (r : Rig) : Rig :=
  { r with lsuQ := r.lsuQ ++ [⟨kind, addr, port r 0x1E0, port r 0x1E3, r.slot, r.pc, berth, level, false⟩]
           lsuIlk := if kind.result then r.lsuIlk ++ [⟨r.slot, 3, false, none⟩] else r.lsuIlk }

/-- An access trigger of R431. -/
def trigAccess (berth : Bool) (level k m : Nat) (t : Word) (r : Rig) : Rig :=
  let kind := accessKind k
  let (a, base) := accessAddr m kind.size t (port r 0x1E1) (port r 0x1E2)
  let r := match base with
    | some x => startOp 1 [(0x0D1, x)] r
    | none => r
  queueLsu berth level kind a r

/-- An IOU trigger (R436). -/
def trigIou (write berth : Bool) (t : Word) (r : Rig) : Rig :=
  { r with iouQ := r.iouQ ++ [⟨write, t, port r 0x260, r.slot, r.pc, berth⟩]
           iouIlk := if write then r.iouIlk else r.iouIlk ++ [⟨r.slot, 4, false, none⟩] }

/-- A transfer started: it takes effect three positions on (R379, R381). -/
def startXfer (target : Nat) (kind : XferKind) (r : Rig) : Rig :=
  { r with pend := r.pend ++ [⟨r.pos + 3, target, kind⟩] }

/-- The bundle after the second delay bundle (R380). -/
def linkOf (r : Rig) : Nat := (r.pc + 3) % 4096

/-- A repeat trigger (R485, R486, R488). -/
def trigRpt (nonInt : Bool) (t : Word) (r : Rig) : Rig :=
  { r with rpt := some ⟨r.pos + 3, nonInt, none⟩, rptc := max 1 (t.toNat % 65536) }

/-- A dbnz trigger (R483, R484). -/
def trigDbnz (t : Word) (r : Rig) : Rig :=
  let n := r.lc - 1
  let r := { r with lc := n }
  if n = 0 then r else startXfer (t.toNat % 4096) .jump r

/-- The rig with guard n set to a value. -/
def setGuard (n : Nat) (v : Bool) (r : Rig) : Rig :=
  match n with
  | 0 => { r with g0 := v }
  | 1 => { r with g1 := v }
  | _ => { r with g2 := v }

/-- What a trigger does in its issue slot, apart from kick: the rig after it. `c` is the cycle of the issue. -/
def trigger (s : State) (k c : Nat) (d : Dest) (t : Word) (r : Rig) : Rig :=
  let precise := s.on (p0 k) TP0.TILE_CTL_PRECISE
  let berth := inBerth s k
  let level := curLevel s k
  match d with
  | .port | .lc | .lnk | .gset | .kick => r
  | .alu u op => trigAlu precise c u op t r
  | .shf op => trigShf op t r
  | .chk op => trigChk op t r
  | .fold alg => trigFold (winWords s k) berth level alg t r
  | .fclr => { r with fold := { r.fold with resume := false } }
  | .mul op => trigMul precise c op t r
  | .div op => trigDiv precise c op t r
  | .hsh op => trigHsh c op r
  | .access kd m => trigAccess berth level kd m t r
  | .swp => queueLsu berth level .swp t r
  | .ldadd => queueLsu berth level .ldadd t r
  | .cas => queueLsu berth level .cas t r
  | .sync => queueLsu berth level .sync t r
  | .ior => trigIou false berth t r
  | .iow => trigIou true berth t r
  | .jmp => startXfer (t.toNat % 4096) .jump r
  | .call => startXfer (t.toNat % 4096) .jump { r with lnk := linkOf r }
  | .ret => startXfer r.lnk .jump r
  | .dbnz => trigDbnz t r
  | .rpt => trigRpt true t r
  | .rpti => trigRpt false t r
  | .trap => startXfer r.pc (.trap (t.toNat % 256) r.pc) r
  | .gate =>
    if t.toNat = 64 then startXfer 0 .gateRet r
    else startXfer (s.get (p3 k) (TP3.GATE_ENTRY.at t.toNat))
      (.gateCall (s.get (p3 k) (TP3.GATE_TARGET.at t.toNat)) (linkOf r) level) r
  | .gwcall =>
    startXfer (s.get (p0 k) (TP0.GW_ENTRY.at t.toNat))
      (.gwcall t.toNat (s.get (p0 k) (TP0.GW_TARGET.at t.toNat))) { r with lnk := linkOf r }
  | .gwret => startXfer r.lnk .gwret r
  | .slip => if berth then startXfer 0 (.slipIn (linkOf r)) r else startXfer 0 .slipOut r
  | .eret => startXfer 0 .eret r
  | .compare n rel => setGuard n (relHolds rel (port r 0x280) t) r

/-! ### The moves of a bundle -/

/-- A move into a register, an operand port or a CU register (R352, R376, R440). -/
def writeDest (r : Rig) (m : Nat × Word) : Rig :=
  match destOf m.1 with
  | some .port => { r with ports := put 0 r.ports m.1 m.2 }
  | some .lc => { r with lc := m.2 }
  | some .lnk => { r with lnk := m.2.toNat % 4096 }
  | some .gset => { r with g0 := m.2.getLsbD 0, g1 := m.2.getLsbD 1, g2 := m.2.getLsbD 2 }
  | _ => r

/-- An interlocked queue after a bundle read its socket, and the socket's value: a result whose latency has passed has
been seen (R372). -/
def ilkSeen (q : List Ilk) (slot : Nat) (sock : Nat) (socks : List (Nat × Word)) : List Ilk × List (Nat × Word) :=
  match q with
  | e :: rest =>
    if e.slot + e.lat ≤ slot then
      (rest, match e.val with
        | some v => put 0 socks sock v
        | none => socks)
    else (q, socks)
  | [] => (q, socks)

/-- The rig after its bundle has read the interlocked sockets among its sources. -/
def seeIlks (srcs : List Nat) (r : Rig) : Rig :=
  let r := if srcs.contains 0x0D0 then
    let (q, m) := ilkSeen r.lsuIlk r.slot 0x0D0 r.socks
    { r with lsuIlk := q, socks := m } else r
  if srcs.contains 0x0F0 then
    let (q, m) := ilkSeen r.iouIlk r.slot 0x0F0 r.socks
    { r with iouIlk := q, socks := m } else r

/-! ### Where issue goes on (R358, R379, R381, R487) -/

/-- The rig past the bundle it has issued: the next position in sequence, or the next iteration of a repeat. -/
def advance (w : BitVec 128) (r : Rig) : Rig :=
  let r := { r with slot := r.slot + 1, entryFresh := false, atTarget := false }
  match r.rpt with
  | some q =>
    if r.pos = q.start then
      if r.rptc ≤ 1 then { r with rptc := 0, rpt := none, pos := r.pos + 1, pc := (r.pc + 1) % 4096 }
      else { r with rptc := r.rptc - 1, rpt := some { q with content := some w } }
    else { r with pos := r.pos + 1, pc := (r.pc + 1) % 4096 }
  | none => { r with pos := r.pos + 1, pc := (r.pc + 1) % 4096 }

/-- Gate stack entry i written (R515). -/
def setGstack (s : State) (k i v : Nat) : State :=
  match i with
  | 0 => s.set (p0 k) TP0.GSTACK_A_E0 v
  | 1 => s.set (p0 k) TP0.GSTACK_A_E1 v
  | _ => s.set (p0 k) TP0.GSTACK_B_E2 v

/-- The shadow bank takes the guards and a0 to a3 (R504). -/
def saveShadow (s : State) (k : Nat) : State :=
  let r := s.rig k
  (List.range 4).foldl (fun s i => s.setWord (p0 k + 0x1A4 + 4 * i) (port r i))
    (s.set (p0 k) TP0.GW_STATE_SG (bit r.g0 + 2 * bit r.g1 + 4 * bit r.g2))

/-- The guards and a0 to a3 take the shadow bank (R505). -/
def loadShadow (s : State) (k : Nat) : State :=
  let sg := s.get (p0 k) TP0.GW_STATE_SG
  s.modRig k fun r =>
    { r with g0 := bitAt sg 0, g1 := bitAt sg 1, g2 := bitAt sg 2
             ports := (List.range 4).foldl (fun m i => put 0 m i (s.word (p0 k + 0x1A4 + 4 * i))) r.ports }

/-- HIST takes the save register of the world (R722). -/
def histLoad (s : State) (k : Nat) : State :=
  s.set (p0 k) TP0.REEF_HIST_HIST
    (s.get (p0 k) (if bankIx s k = 1 then TP0.REEF_SAVE_B_HIST else TP0.REEF_SAVE_K_HIST))

/-- A FOLD that an entry stopped continues at the return when RESUME is still 1 (R418). -/
def foldReturn (s : State) (k : Nat) (stopped : Bool) : State :=
  if stopped && (s.rig k).fold.resume then
    let berth := inBerth s k; let level := curLevel s k; let wins := winWords s k
    s.modRig k fun r => { r with fold := runFold wins berth level r { r.fold with lenErr := false, busErr := false } }
  else s

/-- The exception return at the position of its target (R494, R532). -/
def arriveEret (s : State) (k : Nat) : State :=
  let b := bankIx s k
  let inRpt := bankGet s k TP0.X_ESTAT_IN_REPEAT = 1
  let ni := bankGet s k TP0.X_ESTAT_RPT_NI = 1
  let fold := bankGet s k TP0.X_ESTAT_FOLD = 1
  let pm := bankGet s k TP0.X_ESTAT_PMLEVEL
  let mask := if b = 1 then min pm (s.get (p0 k) TP0.TILE_CTL_BERTH_MCAP) else pm
  let e0 := bankGet s k TP0.X_ERA_A_ERA0
  let e1 := bankGet s k TP0.X_ERA_A_ERA1
  let e2 := bankGet s k TP0.X_ERA_B_ERA2
  let s := setPriv s k (bankGet s k TP0.X_ESTAT_PLEVEL) (inBerth s k)
  let s := bankSet s k TP0.X_MLEVEL_LEVEL mask
  let s := bankSet (bankSet (bankSet s k TP0.X_ESTAT_IN_REPEAT 0) k TP0.X_ESTAT_RPT_NI 0) k TP0.X_ESTAT_FOLD 0
  let s := histLoad s k
  let s := s.modRig k fun r =>
    if inRpt && r.rptc == 0 then
      { r with pc := e1, pend := [⟨r.pos + 1, e2, .cont⟩], rpt := none }
    else
      { r with pc := e0, pend := [⟨r.pos + 1, e1, .cont⟩, ⟨r.pos + 2, e2, .cont⟩]
               rpt := if inRpt then some ⟨r.pos, ni, none⟩ else none }
  foldReturn s k fold

/-- A transfer at the position of its target. -/
def arrive (s : State) (k : Nat) (q : Pend) : State :=
  let jump := fun (s : State) (a : Nat) => s.modRig k fun r => { r with pc := a }
  match q.kind with
  | .jump | .cont => jump s q.target
  | .trap n b => s.modRig k fun r => { r with trapDue := some (n, b) }
  | .gateCall level ret caller =>
    let d := s.get (p0 k) TP0.GSTACK_B_DEPTH
    let s := setGstack s k d (ret + caller * 4096)
    let s := s.set (p0 k) TP0.GSTACK_B_DEPTH (d + 1)
    jump (setPriv s k level false) q.target
  | .gateRet =>
    let d := s.get (p0 k) TP0.GSTACK_B_DEPTH - 1
    let e := gstackEntry s k d
    jump (setPriv (s.set (p0 k) TP0.GSTACK_B_DEPTH d) k (e / 4096) false) (e % 4096)
  | .gwcall n level =>
    let caller := curLevel s k; let w := inBerth s k
    let s := saveShadow s k
    let s := s.set (p0 k) TP0.GW_STATE_ACTIVE 1
    let s := s.set (p0 k) TP0.GW_STATE_INDEX n
    let s := s.set (p0 k) TP0.GW_STATE_CALLER caller
    let s := s.set (p0 k) TP0.GW_STATE_CALLER_WORLD (bit w)
    jump (setPriv s k level w) q.target
  | .gwret =>
    let s := loadShadow s k
    let s := setPriv s k (s.get (p0 k) TP0.GW_STATE_CALLER)
      (isSplit s k && s.on (p0 k) TP0.GW_STATE_CALLER_WORLD)
    jump (s.set (p0 k) TP0.GW_STATE_ACTIVE 0) q.target
  | .slipIn ret =>
    let s := s.set (p0 k) TP0.SLIP_RET ret
    let s := s.set (p0 k) TP0.SLIP_LEVEL (curLevel s k)
    let s := s.set (p0 k) TP0.SLIP_VALID 1
    jump (setPriv s k 0 false) (s.get (p0 k) TP0.SLIP_ENTRY)
  | .slipOut =>
    let s := setPriv s k (s.get (p0 k) TP0.SLIP_LEVEL) true
    jump (s.set (p0 k) TP0.SLIP_VALID 0) (s.get (p0 k) TP0.SLIP_RET)
  | .eret => arriveEret s k

/-- The transfer whose target is the next position, if one arrives there. -/
def arrivals (s : State) (k : Nat) : State :=
  let r := s.rig k
  match r.pend.find? fun q => q.due == r.pos with
  | some q =>
    arrive (s.setRig k { r with pend := r.pend.filter fun q => decide (r.pos < q.due), atTarget := q.kind.handler }) k q
  | none => s

/-! ### The issue of one bundle -/

/-- The reef monitor after an issue of n heavy triggers held for `held` cycles (R720, R726, R730). -/
def reefIssue (s : State) (k n held c : Nat) : State :=
  let p := p0 k
  let s := s.set p TP0.REEF_HIST_HIST (s.get p TP0.REEF_HIST_HIST * 4 + n)
  let s := s.bumpSat p TP0.RS_HEAVY_COUNT n
  let s := s.bumpSat p TP0.RS_REEF_CYC_COUNT held
  let s := if held = 0 then s else s.bumpSat p TP0.RS_REEF_HELD_COUNT
  let s := match activeRegion s k (s.rig k).pc with
    | some i => (s.set p TP0.REEF_NOW_REGION i).set p TP0.REEF_NOW_IN_REGION 1
    | none => s.set p TP0.REEF_NOW_IN_REGION 0
  if n = 0 then s
  else s.modRig k fun r => { r with heavyAt := (c, n) :: r.heavyAt.filter fun e => decide (c < e.1 + 16) }

/-- The bundle counts in BUNDLES when the rig is in the berth world (R326). -/
def countBundle (s : State) (k : Nat) : State :=
  if inBerth s k then
    s.set2 (p0 k) TP0.BUNDLES_LO_COUNT TP0.BUNDLES_HI_COUNT
      (s.get2 (p0 k) TP0.BUNDLES_LO_COUNT TP0.BUNDLES_HI_COUNT + 1)
  else s

/-- The state with a tile's ferry engine set; FRY_STATUS follows it (R444, R623). -/
def State.setFerry (s : State) (k : Nat) (e : Ferry) : State :=
  let s := { s with m := { s.m with fry := put Ferry.reset s.m.fry k e } }
  (s.set (pgTk k 2) TP2.FRY_STATUS_QUEUED e.queue.length).set (pgTk k 2) TP2.FRY_STATUS_ACTIVE (bit e.act.isSome)

/-- The end of a tile's work: no NEXT is followed (R622). -/
def closeFerry (k : Nat) (s : State) : State :=
  let e := s.ferry k
  s.setFerry k { e with closed := true, chain := none }

/-- A kick queues its descriptor with the current world and level (R443, R445, R613). -/
def kickFerry (s : State) (k : Nat) (t : Word) : State :=
  let e := s.ferry k
  s.setFerry k { e with queue := e.queue ++ [⟨t, inBerth s k, curLevel s k, (s.rig k).slot⟩] }

/-- The error that a bundle holds: 0 none, 1 correctable, 2 uncorrectable. -/
def imemErrAt (s : State) (k a : Nat) : Nat := lookup 0 s.m.imemErr (k * 4096 + a)

/-- An error of a bundle counted and recorded (R468, R469, R470). -/
def countImem (k a : Nat) (ue : Bool) (s : State) : State :=
  let p := pgTk k 0
  let s := s.bumpSat p (if ue then TP0.IMEM_ECC_UE else TP0.IMEM_ECC_CE)
  ((s.set p TP0.IMEM_LAST_ERR_BUNDLE a).set p TP0.IMEM_LAST_ERR_UE (bit ue)).set p TP0.IMEM_LAST_ERR_VALID 1

/-- The fetch of a bundle: one beat of M1 on T8 (R558), a corrected error counted (R468); an iteration after a repeat's
first is not fetched (R487). -/
def grantFetch (k : Nat) (s : State) : State :=
  let r := s.rig k
  if !fetches r then s
  else
    let s := grant k 1 8 1 s
    if imemErrAt s k r.pc = 1 then countImem k r.pc false s else s

/-- The rig's part of an issue: reads, then writes of registers and ports, then triggers, then the end of the slot. -/
def issueRig (s : State) (k c : Nat) (w : BitVec 128) : Rig :=
  let r := s.rig k
  let b := bundleOf w
  let ms := (enabledMoves r b).map fun p => (p.2.src, p.2.dst, srcVal s k b p.2.src)
  let r := seeIlks (ms.map Prod.fst) { r with lastIssue := some c }
  let r := ms.foldl (fun r m => writeDest r (m.2.1, m.2.2)) r
  let r := ms.foldl (fun r m => match destOf m.2.1 with
    | some d => trigger s k c d m.2.2 r
    | none => r) r
  advance w (landShort r.slot r)

/-- The issue of the next bundle of a tile, once nothing stands before it. -/
def issue (s : State) (k : Nat) : State :=
  let w := nextBundle s k
  let ds := enabledDests (s.rig k) (bundleOf w)
  let n := heavyCount ds
  let c := issueCycle s k
  let r' := issueRig s k c w
  let kick := triggerOf s k (bundleOf w) .fry
  let held := c - readyCycle s k ds
  let s := countBundle (grantFetch k (s.atTime c)) k
  let s := match kick with
    | some (_, t) => kickFerry s k t
    | none => s
  let s := reefIssue s k n held c
  let heavyAt := (s.rig k).heavyAt
  arrivals (s.setRig k { r' with heavyAt := heavyAt }) k

/-- The earliest cycle in which an imprecise exception of a tile is raised. -/
def nextRaise (r : Rig) : Option Nat :=
  r.ariths.foldl (fun m a => match m with
    | none => some a.raiseAt
    | some x => some (min x a.raiseAt)) none

/-- Cycles in which the next bundle was held by reefing, up to an exception that comes before it (R728, R730). -/
def reefHeld (k n : Nat) (s : State) : State :=
  if n = 0 then s else (s.bumpSat (p0 k) TP0.RS_REEF_CYC_COUNT n).bumpSat (p0 k) TP0.RS_REEF_HELD_COUNT

/-- The cycles up to that of the issue, in which the bundle is held: each imprecise exception raised on the way acts in its cycle,
and the first that may be taken ends the wait at the next boundary (R523, R528, R728). -/
def holdIssue (k : Nat) : Nat → State → State
  | 0, s => s
  | n + 1, s =>
    match nextRaise (s.rig k) with
    | none => s
    | some c =>
      if issueCycle s k ≤ c then s
      else
        let u := raiseDue k (s.atTime (max s.m.wtime c))
        if entryFirst u k then
          reefHeld k (c + 1 - readyCycle s k (enabledDests (s.rig k) (bundleOf (nextBundle s k)))) (u.atTime (u.m.wtime + 1))
        else holdIssue k n (u.atTime s.m.wtime)

/-- The state in which the next bundle of a tile issues: results that are due have landed and, where nothing but time stands before
the bundle, the exceptions raised while it is held wait (R369, R523, R528). -/
def issueState (k : Nat) (s : State) : State :=
  let s := settleRig k s
  if issues s k then holdIssue k (s.rig k).ariths.length s else s

/-- The tile issues its next bundle where that bundle is what a row names, unless an exception raised while it is held comes first. -/
def issueWhere (row : State → Bool) (k : Nat) (s : State) : State :=
  let t := issueState k s
  if row t then if issues t k then issue t k else t
  else settleRig k s

/-- A row of the rig: the tile issues its next bundle when that bundle holds what the row names. -/
def issueRow (row : List Dest → Bool) (k : Nat) (s : State) : State :=
  issueWhere (fun t => row ((enabledDests (t.rig k) (bundleOf (nextBundle t k))).map Prod.snd)) k s

end Sys2Proof.Machine
end

