-- ==== Sys2Proof/Machine/Memory.lean ====
section
/-! DEFINITION. DMEM and IMEM of a tile, their error protection, the address map with its windows, and the commands on
them (R446 to R478, R572 to R578). -/
namespace Sys2Proof.Machine
open Sys2Proof

/-- A management command to a tile whose pages can be reached (R173). -/
def ifTile (f : FieldId) (t : TileId) (g : State → State) (s : State) : Out :=
  ifAwake (fun s => if tileReady s f.val t.val then g s else s) s

/-! ### Bytes of DMEM (R448, R449, R460) -/

/-- The key of a byte of a tile's DMEM. -/
def dkey (k a : Nat) : Nat := k * 262144 + a

/-- A byte of DMEM; a byte that nothing has written since the self-test's zero fill reads 0 (R154). -/
def State.byte (s : State) (k a : Nat) : Byte := lookup 0 s.m.dmem (dkey k a)
def State.setByte (s : State) (k a : Nat) (v : Byte) : State :=
  { s with m := { s.m with dmem := put 0 s.m.dmem (dkey k a) v } }

/-- The word at a multiple of 4. -/
def State.dword (s : State) (k a : Nat) : Word :=
  BitVec.ofNat 32 ((s.byte k a).toNat + (s.byte k (a + 1)).toNat * 2 ^ 8 + (s.byte k (a + 2)).toNat * 2 ^ 16 +
    (s.byte k (a + 3)).toNat * 2 ^ 24)

/-- Bytes stored at consecutive addresses, with no look at their words. -/
def putBytes (k a : Nat) : List Byte → State → State
  | [], s => s
  | b :: bs, s => putBytes k (a + 1) bs (s.setByte k a b)

/-- The error that a word holds: 0 none, 1 correctable, 2 uncorrectable. -/
def State.wordErr (s : State) (k a : Nat) : Nat := lookup 0 s.m.dmemErr (dkey k a)
def State.setWordErr (s : State) (k a v : Nat) : State :=
  { s with m := { s.m with dmemErr := put 0 s.m.dmemErr (dkey k a) v } }

/-! ### What a read of a word finds (R461, R465, R467, R796) -/

/-- A correctable error counted and recorded. -/
def countCe (k a : Nat) (real : Bool) (s : State) : State :=
  let p := pgTk k 0
  let s := (s.bumpSat p (TP0.CE_COUNT_COUNT.at (bankOf a))).set p TP0.DMEM_LAST_CE_ADDR a
  let s := s.set p TP0.DMEM_LAST_CE_VALID 1
  if real then setError p 18 s else s

/-- A real uncorrectable error counted and recorded; the first of a bank in this wake escalates (R465). -/
def countUe (k a : Nat) (s : State) : State :=
  let p := pgTk k 0
  let b := bankOf a
  let s := ((s.bumpSat p TP0.DMEM_UE_REAL).set p TP0.DMEM_LAST_UE_ADDR a).set p TP0.DMEM_LAST_UE_INJECTED 0
  let s := alertError p 16 (s.set p TP0.DMEM_LAST_UE_VALID 1)
  if bitAt (s.get p TP0.BANK_STATUS_RETIRE_PENDING) b || !bitAt (s.get p TP0.BANK_STATUS_IN_SERVICE) b then s
  else (s.setBit p TP0.BANK_STATUS_RETIRE_PENDING b true).modX fun x =>
    { x with escs := x.escs ++ [.bankUe (fin 56 (k / 512)) (fin 468 (k % 512)) (fin 8 b) a] }

/-- An injected uncorrectable error counted; recorded unless a real one was. -/
def countInjUe (k a : Nat) (recorded : Bool) (s : State) : State :=
  let p := pgTk k 0
  let s := s.bumpSat p TP0.DMEM_UE_INJECTED
  if recorded then s
  else ((s.set p TP0.DMEM_LAST_UE_ADDR a).set p TP0.DMEM_LAST_UE_INJECTED 1).set p TP0.DMEM_LAST_UE_VALID 1

/-- The real error of a word found by a read: counted, and written back when it is correctable and SCRUB_EN is 1. -/
def findReal (k a : Nat) (s : State) : State :=
  match s.wordErr k a with
  | 0 => s
  | 1 =>
    let s := countCe k a true s
    if s.on (pgTk k 0) TP0.ECC_CONTROL_SCRUB_EN then s.setWordErr k a 0 else s
  | _ => countUe k a s

/-- A read of the word at a multiple of 4 by a master: the injection of its bank is consumed, and the word found, or
none for an error response. -/
def readWord (k a : Nat) (s : State) : State × Option Word :=
  let real := s.wordErr k a
  let inj := (lookup (8, false) s.m.inject k)
  let hit := inj.1 == bankOf a
  let s := findReal k a s
  let s := if hit then
      let s := { s with m := { s.m with inject := erase k s.m.inject } }
      if inj.2 then countInjUe k a (real == 2) s
      else
        let s1 := s.bumpSat (pgTk k 0) (TP0.CE_COUNT_COUNT.at (bankOf a))
        if real = 1 then s1 else countCe k a false s
    else s
  (s, if real = 2 ∨ (hit ∧ inj.2) then none else some (s.dword k a))

/-- Reads of `n` words from a multiple of 4 on; none when any of them fails. -/
def readWords (k a : Nat) : Nat → State → State × Option (List Word)
  | 0, s => (s, some [])
  | n + 1, s =>
    let r := readWord k a s
    let q := readWords k (a + 4) n r.1
    (q.1, match r.2, q.2 with
      | some w, some ws => some (w :: ws)
      | _, _ => none)

/-- The four bytes of a word, lowest first. -/
def wordBytes (w : Word) : List Byte := bytesOf w.toNat 4

/-- A read of `n` bytes at any address: the words that it touches are read. -/
def readBytes (k a n : Nat) (s : State) : State × Option (List Byte) :=
  let lo := a / 4 * 4
  let r := readWords k lo ((a + n - lo + 3) / 4) s
  (r.1, r.2.map fun ws => ((ws.flatMap wordBytes).drop (a - lo)).take n)

/-! ### Stores (R462) -/

/-- A store of some bytes of the word at a multiple of 4, from byte `o` on: a whole word without a read, a part after
one; false when it fails. -/
def storeWord (k a o : Nat) (bs : List Byte) (s : State) : State × Bool :=
  if bs.length = 4 then ((putBytes k a bs s).setWordErr k a 0, true)
  else
    let r := readWord k a s
    match r.2 with
    | none => (r.1, false)
    | some _ => ((putBytes k (a + o) bs r.1).setWordErr k a 0, true)

/-- Bytes stored at any address, word by word; a word that fails leaves the others written. -/
def storeBytes (k : Nat) : Nat → Nat → List Byte → State → State × Bool
  | 0, _, _, s => (s, true)
  | n + 1, a, bs, s =>
    if bs = [] then (s, true)
    else
      let o := a % 4
      let r := storeWord k (a - o) o (bs.take (4 - o)) s
      let q := storeBytes k n (a - o + 4) (bs.drop (4 - o)) r.1
      (q.1, r.2 && q.2)

/-- Bytes stored at any address. -/
def writeBytes (k a : Nat) (bs : List Byte) (s : State) : State × Bool := storeBytes k (bs.length + 1) a bs s

/-! ### The rig and the post bay (R332) -/

/-- A read of DMEM by a rig, or for berth-world code of another tile: of a collecting half it finds free values, since the rig cannot
read that half and the spec gives the read no result (DESIGN CHOICE, log 40). -/
def readAs (rig : Bool) (k d n : Nat) (s : State) : State × Option (List Byte) :=
  if rig && bayPart s k d == .collecting then
    (s.modX fun x => { x with hiddenReads := x.hiddenReads + 1 },
      some ((List.range n).map fun i => Config.hiddenByte s.m.x.hiddenReads i))
  else readBytes k d n s

/-- A write of DMEM by a rig, or for berth-world code of another tile: the visible half is read-only, and berth-world code changes no
collecting half either; such a write completes and leaves the bytes as they are (DESIGN CHOICE, log 40). -/
def writeAs (rig berth : Bool) (k d : Nat) (bs : List Byte) (s : State) : State × Bool :=
  if rig && (bayPart s k d == .visible || (berth && bayPart s k d == .collecting)) then (s, true) else writeBytes k d bs s

/-! ### T11 (R572, R573, R590) -/

/-- An access of a master sent to T11 (R572, R573, R590). -/
def toT11 (k master kind a : Nat) (s : State) : State :=
  let p := pgTk k 1
  let s := ((s.set p TP1.ERR_LAST_ADDR_ADDR a).set p TP1.ERR_LAST_MASTER master).set p TP1.ERR_LAST_KIND kind
  setError p 17 ((s.set p TP1.ERR_LAST_VALID 1).bumpSat p TP1.ERR_COUNT_COUNT)

/-! ### IMEM (R468 to R472, R558) -/

/-- A bundle written with new check bits. -/
def writeBundle (k a : Nat) (b : BitVec 128) (s : State) : State :=
  { s with m := { s.m with imem := put 0 s.m.imem (k * 4096 + a) b, imemErr := erase (k * 4096 + a) s.m.imemErr } }

/-- INC of an IFS or IFL write. -/
def incAddr (k : Nat) (inc : Bool) (s : State) : State := if inc then s.bump (pgTk k 0) TP0.IF_ADDR_BUNDLE else s

/-- The four IF_DATA words as a bundle. -/
def ifBundle (s : State) (k : Nat) : BitVec 128 :=
  let p := pgTk k 0
  BitVec.ofNat 128 (s.get p TP0.IF_DATA0_DATA + s.get p TP0.IF_DATA1_DATA * 2 ^ 32 + s.get p TP0.IF_DATA2_DATA * 2 ^ 64 +
    s.get p TP0.IF_DATA3_DATA * 2 ^ 96)

/-- An IFS or IFL served at T8 as a beat of M1 (R470, R558): an uncorrectable error loads the bits as stored. -/
def serveIf (k : Nat) (q : IfWait) (s : State) : State :=
  let p := pgTk k 0
  let s := grant k 1 8 1 s
  match q.store with
  | some b => writeBundle k q.addr b s
  | none =>
    let b := (lookup 0 s.m.imem (k * 4096 + q.addr) : BitVec 128).toNat
    let e := imemErrAt s k q.addr
    let s := if e = 0 then s else countImem k q.addr (e == 2) s
    let s := s.set p TP0.IF_STATUS_IFL_UE (bit (e == 2))
    let s := ((s.set p TP0.IF_DATA0_DATA b).set p TP0.IF_DATA1_DATA (b / 2 ^ 32)).set p TP0.IF_DATA2_DATA (b / 2 ^ 64)
    s.set p TP0.IF_DATA3_DATA (b / 2 ^ 96)

/-- The writes of IFS and IFL that wait for T8, oldest first. -/
def ifWaits (s : State) (k : Nat) : List IfWait := lookup [] s.m.ifWaits k

/-- Those that wait served in order, as far as M1 is granted T8; at most n of them. -/
def drainIf (k : Nat) : Nat → State → State
  | 0, s => s
  | n + 1, s =>
    match ifWaits s k with
    | [] => s
    | q :: rest =>
      if fetchGranted s k then
        drainIf k n (serveIf k q { s with m := { s.m with ifWaits := put [] s.m.ifWaits k rest } })
      else s

/-- A write of IFS or IFL: served now, or once M1 is granted T8 (R558, R563); INC moves IF_ADDR on (R470). -/
def ifGo (k : Nat) (inc : Bool) (store : Option (BitVec 128)) (s : State) : State :=
  let q : IfWait := ⟨s.get (pgTk k 0) TP0.IF_ADDR_BUNDLE, store⟩
  let s := { s with m := { s.m with ifWaits := put [] s.m.ifWaits k (ifWaits s k ++ [q]) } }
  incAddr k inc (drainIf k (ifWaits s k).length s)

/-- IFS.GO = 1 (R470). -/
def ifsGo (k : Nat) (inc : Bool) (s : State) : State := ifGo k inc (some (ifBundle s k)) s

/-- IFL.GO = 1 (R470). -/
def iflGo (k : Nat) (inc : Bool) (s : State) : State := ifGo k inc none s

/-- IFS: a write of IFS.GO = 1 stores IF_DATA at IF_ADDR (R470). -/
def execIfs (f : FieldId) (t : TileId) (inc : Bool) (s : State) : Out := ifTile f t (ifsGo (tileKey f.val t.val) inc) s

/-- IFL: a write of IFL.GO = 1 loads the bundle at IF_ADDR into IF_DATA (R470). -/
def execIfl (f : FieldId) (t : TileId) (inc : Bool) (s : State) : Out := ifTile f t (iflGo (tileKey f.val t.val) inc) s

/-! ### Injection and patrol (R464, R467) -/

/-- An injection latched with the bank that INJ_BANK names; it replaces one that waits. -/
def injectErr (k : Nat) (ue : Bool) (s : State) : State :=
  { s with m := { s.m with inject := insert k (s.get (pgTk k 0) TP0.ECC_CONTROL_INJ_BANK, ue) s.m.inject } }

/-- INJ_CE: a correctable error injected (R467). -/
def execInjCe (f : FieldId) (t : TileId) (s : State) : Out := ifTile f t (injectErr (tileKey f.val t.val) false) s

/-- INJ_UE: an uncorrectable error injected (R467). -/
def execInjUe (f : FieldId) (t : TileId) (s : State) : Out := ifTile f t (injectErr (tileKey f.val t.val) true) s

/-- One line read by a bank's patrol scrubber: its four words' real errors act (R461, R464). -/
def patrolLine (k b : Nat) (s : State) : State :=
  let key := 8 * k + b
  let line := lookup 0 s.m.patrol key
  let a := b * 32768 + line * 16
  let s := (List.range 4).foldl (fun s i => findReal k (a + 4 * i) s) s
  { s with m := { s.m with patrol := put 0 s.m.patrol key ((line + 1) % 2048) } }

/-- A tile whose scrubbers run: one that has passed its self-test and is neither lost nor retired, in use or SPARE (R464). -/
def scrubs (s : State) (f t : Nat) : Bool := tileReady s f t || tileState s f t == 4

/-- PATROL_SCRUB: a bank's scrubber reads its next line (R464). -/
def execPatrolScrub (f : FieldId) (t : TileId) (b : Fin 8) (s : State) : Out :=
  ifAwake (fun s =>
    let k := tileKey f.val t.val
    if scrubs s f.val t.val && s.on (pgTk k 0) TP0.ECC_CONTROL_PATROL_EN &&
        bitAt (s.get (pgTk k 0) TP0.BANK_STATUS_IN_SERVICE) b.val then patrolLine k b.val s
    else s) s

end Sys2Proof.Machine
end

