-- ==== Sys2Proof/Machine/Routes.lean ====
section
/-! DEFINITION. The live routes and the topology table (R591 to R612). -/
namespace Sys2Proof.Machine
open Sys2Proof

/-! ### The live routes (R603, R604, R611) -/

/-- A channel is in routes (R604): ready, with its full count of active lanes. -/
def channelIn (s : State) (h e : Nat) : Bool :=
  let p := partnerEnd h e
  endExists h e && (if 92 ≤ e ∧ h < 56 then bothUp s h e else chanReady s h e) &&
    s.get (pgEnd h e) HAWS.LINK_ACTIVE == fullLanes h e && s.get (pgEnd p.1 p.2) HAWS.LINK_ACTIVE == fullLanes h e

/-- A number whose bit i is p i, for i below n. -/
def bitSet (n : Nat) (p : Nat → Bool) : Nat := (List.range n).foldl (fun m i => if p i then m + 2 ^ i else m) 0

/-- The live bits of a field's topology table, in the order of its registers. -/
def liveRegs : List Fld :=
  [FTOPO.SEAM_E_LIVE_LIVE, FTOPO.SEAM_S_LIVE_LIVE, FTOPO.LANDING_LIVE_LIVE] ++
    (List.range 4).map (fun i => FTOPO.STAY_LIVE.at i) ++ (List.range 15).map (fun w => FTOPO.ROUTER_LIVE_LIVE.at w)

/-- The routes of a field made live from what is in routes now; TOPO_GEN counts a change (R611). -/
def computeLive (f : Nat) (s0 : State) : State :=
  let p := pgFtopo f
  let s := s0.set p FTOPO.SEAM_E_LIVE_LIVE (bitSet 18 fun i => channelIn s0 f i)
  let s := s.set p FTOPO.SEAM_S_LIVE_LIVE (bitSet 26 fun i => channelIn s0 f (36 + i))
  let s := s.set p FTOPO.LANDING_LIVE_LIVE (bitSet 4 fun q => channelIn s0 f (92 + q))
  let s := (List.range 4).foldl (fun s i => s.set p (FTOPO.STAY_LIVE.at i) (bit (channelIn s0 f (88 + i)))) s
  let s := (List.range 15).foldl (fun s w => s.set p (FTOPO.ROUTER_LIVE_LIVE.at w)
    (bitSet (if w = 14 then 20 else 32) fun i => routerIn s0 f (32 * w + i))) s
  let s := (List.range 468).foldl (fun s t => s.set (pgTile f t 2) TP2.RT_STATUS_LIVE (bit (routerIn s0 f t))) s
  if liveRegs.any fun F => s.get p F != s0.get p F then s.bump p FTOPO.TOPO_GEN_GEN else s

/-- New routes may become live at once: CSEQ is stopped, or no crossing of the wake has opened (R609). -/
def routesAtOnce (s : State) : Bool := cseqStopped s || !s.m.x.everOpened

/-- A computation of routes is running (R608, R320). -/
def routesComputing (s : State) : Bool :=
  s.live.any fun e => clsOf e.1 == 4 && pageNoOf e.1 == 2 && offOf e.1 == 0x06C && e.2.getLsbD 0

/-! ### Paths (R605, R606) -/

def fieldAtXY (x y : Nat) : Nat := y / 18 * 8 + x / 26
def tileAtXY (x y : Nat) : Nat := tileAt (y % 18) (x % 26)

/-- The router at global coordinates is in the live routes. -/
def liveAt (s : State) (x y : Nat) : Bool :=
  let t := tileAtXY x y
  bitAt (s.get (pgFtopo (fieldAtXY x y)) (FTOPO.ROUTER_LIVE_LIVE.at (t / 32))) (t % 32)

/-- A hop between (x, y) and (x + 1, y), and between (x, y) and (x, y + 1), is in the live routes. -/
def openE (s : State) (x y : Nat) : Bool :=
  liveAt s x y && liveAt s (x + 1) y &&
    (decide (x % 26 < 25) || bitAt (s.get (pgFtopo (fieldAtXY x y)) FTOPO.SEAM_E_LIVE_LIVE) (y % 18))
def openS (s : State) (x y : Nat) : Bool :=
  liveAt s x y && liveAt s x (y + 1) &&
    (decide (y % 18 < 17) || bitAt (s.get (pgFtopo (fieldAtXY x y)) FTOPO.SEAM_S_LIVE_LIVE) (x % 26))

/-- A hop of a route. -/
inductive Hop
  | w | e | n | s
deriving DecidableEq, Repr

/-- The hop's far end, whether it is open, and the channel end it leaves by, if it crosses one. -/
def Hop.go : Hop → Nat × Nat → Nat × Nat
  | .w, (x, y) => (x - 1, y) | .e, (x, y) => (x + 1, y) | .n, (x, y) => (x, y - 1) | .s, (x, y) => (x, y + 1)
def Hop.open (st : State) : Hop → Nat × Nat → Bool
  | .w, (x, y) => openE st (x - 1) y | .e, (x, y) => openE st x y
  | .n, (x, y) => openS st x (y - 1) | .s, (x, y) => openS st x y
def Hop.chan : Hop → Nat × Nat → List (Nat × Nat)
  | .w, (x, y) => if x % 26 = 0 then [(fieldAtXY x y, 18 + y % 18)] else []
  | .e, (x, y) => if x % 26 = 25 then [(fieldAtXY x y, y % 18)] else []
  | .n, (x, y) => if y % 18 = 0 then [(fieldAtXY x y, 62 + x % 26)] else []
  | .s, (x, y) => if y % 18 = 17 then [(fieldAtXY x y, 36 + x % 26)] else []

/-- Every hop from a place is open. -/
def passable (st : State) : List Hop → Nat × Nat → Bool
  | [], _ => true
  | h :: r, p => h.open st p && passable st r (h.go p)

/-- The channel ends that hops from a place cross, and the routers that they pass, the first among them. -/
def chansOf : List Hop → Nat × Nat → List (Nat × Nat)
  | [], _ => []
  | h :: r, p => h.chan p ++ chansOf r (h.go p)
def routersOf : List Hop → Nat × Nat → List Nat
  | [], p => [tileKey (fieldAtXY p.1 p.2) (tileAtXY p.1 p.2)]
  | h :: r, p => tileKey (fieldAtXY p.1 p.2) (tileAtXY p.1 p.2) :: routersOf r (h.go p)

/-- A route: the channels that it crosses, by their transmit ends, and the routers that it passes, by tile key. -/
structure Route where
  chans : List (Nat × Nat)
  routers : List Nat
deriving DecidableEq, Repr

/-- The route of some hops from a place. -/
def routeOf (hs : List Hop) (p : Nat × Nat) : Route := ⟨chansOf hs p, routersOf hs p⟩

/-- The X-then-Y path. -/
def xyHops (a b : Nat × Nat) : List Hop :=
  (if a.1 ≤ b.1 then List.replicate (b.1 - a.1) Hop.e else List.replicate (a.1 - b.1) Hop.w) ++
    (if a.2 ≤ b.2 then List.replicate (b.2 - a.2) Hop.s else List.replicate (a.2 - b.2) Hop.n)

/-- The lesser of two distances. -/
def nearer : Option Nat → Option Nat → Option Nat
  | some a, some b => some (min a b)
  | some a, none => some a
  | none, b => b

/-- Distances of a column after hops southward: row y may come from the row above it. -/
def sweepS (ok : Nat → Bool) : Nat → Option Nat → List (Option Nat) → List (Option Nat)
  | _, _, [] => []
  | y, prev, d :: ds =>
    let d := nearer d (if ok (y - 1) then prev.map (· + 1) else none)
    d :: sweepS ok (y + 1) d ds

/-- Distances of a column after hops northward: row y may come from the row below it. -/
def sweepN (ok : Nat → Bool) : Nat → List (Option Nat) → List (Option Nat)
  | _, [] => []
  | y, d :: ds =>
    let r := sweepN ok (y + 1) ds
    nearer d (if ok y then ((r.head?.join).map (· + 1)) else none) :: r

/-- A column's distances to the destination by hops to the east, north and south, from those of the column east of it;
the region's rows run from y0. -/
def column (st : State) (x y0 : Nat) (start : List (Option Nat)) : List (Option Nat) :=
  sweepN (openS st x) y0 (sweepS (fun y => decide (y0 ≤ y) && openS st x y) y0 none start)

/-- The columns x - n to x of the region, westmost first, each with its distances. -/
def columns (st : State) (y0 : Nat) : Nat → Nat → List (Option Nat) → List (List (Option Nat))
  | 0, x, start => [column st x y0 start]
  | n + 1, x, start =>
    let c := column st x y0 start
    let west := (List.range c.length).map fun i =>
      if openE st (x - 1) (y0 + i) then ((c.getD i none).map (· + 1)) else none
    columns st y0 n (x - 1) west ++ [c]

/-- The distance from (x, y) by hops to the east, north and south; the columns begin at x0. -/
def distAt (cols : List (List (Option Nat))) (x0 y0 x y : Nat) : Option Nat :=
  if x < x0 ∨ y < y0 then none else (cols.getD (x - x0) []).getD (y - y0) none

/-- Distances along a row for a path that may begin with hops to the west, by column from x0. -/
def westward (st : State) (y : Nat) : Nat → Option Nat → List (Option Nat) → List (Option Nat)
  | _, _, [] => []
  | x, prev, d :: ds =>
    let d := nearer d (if openE st (x - 1) y then prev.map (· + 1) else none)
    d :: westward st y (x + 1) d ds

/-- The hops of the shortest path, read off the distances: west, then east, then north, then south where two paths
differ (R606). -/
def readPath (st : State) (cols : List (List (Option Nat))) (ws : List (Option Nat)) (x0 y0 : Nat) :
    Nat → Bool → Nat × Nat → List Hop
  | 0, _, _ => []
  | n + 1, west, (x, y) =>
    if west && decide (x0 < x) && openE st (x - 1) y && ws.getD (x - 1 - x0) none == some n then
      .w :: readPath st cols ws x0 y0 n true (x - 1, y)
    else if openE st x y && distAt cols x0 y0 (x + 1) y == some n then .e :: readPath st cols ws x0 y0 n false (x + 1, y)
    else if decide (y0 < y) && openS st x (y - 1) && distAt cols x0 y0 x (y - 1) == some n then
      .n :: readPath st cols ws x0 y0 n false (x, y - 1)
    else .s :: readPath st cols ws x0 y0 n false (x, y + 1)

/-- The hops of the route between two places of a region, given by its corner and its height (R606). -/
def legHops (st : State) (x0 y0 h : Nat) (a b : Nat × Nat) : Option (List Hop) :=
  if !liveAt st a.1 a.2 || !liveAt st b.1 b.2 then none
  else if passable st (xyHops a b) a then some (xyHops a b)
  else
    let start := (List.range h).map fun i => if y0 + i = b.2 then some 0 else none
    let cols := columns st y0 (b.1 - x0) b.1 start
    let row := (List.range (a.1 - x0 + 1)).map fun i => distAt cols x0 y0 (x0 + i) a.2
    let ws := westward st a.2 x0 none row
    (ws.getD (a.1 - x0) none).bind fun n =>
      let hs := readPath st cols ws x0 y0 n true a
      if passable st hs a then some hs else none

/-- The route between two places of a region; none while a router on it carries no packet (R603). -/
def leg (st : State) (x0 y0 h : Nat) (a b : Nat × Nat) : Option Route :=
  (legHops st x0 y0 h a b).bind fun hs =>
    let r := routeOf hs a
    if r.routers.all fun k => routerIn st (k / 512) (k % 512) then some r else none

/-- Distance on the field grid. -/
def gridDist (a b : Nat) : Nat :=
  (gridRow a - gridRow b) + (gridRow b - gridRow a) + (gridCol a - gridCol b) + (gridCol b - gridCol a)

/-- The coordinates of a tile. -/
def coords (f t : Nat) : Nat × Nat := (globalX f t, globalY f t)

/-- The candidate route over stay port i (R605) and its cost. -/
def stayRoute (st : State) (fa ta fb tb i : Nat) : Option (Nat × Route) :=
  let q := stayPartner fa i
  if !st.on (pgFtopo fa) (FTOPO.STAY_LIVE.at i) then none
  else match leg st (26 * gridCol fa) (18 * gridRow fa) 18 (coords fa ta) (coords fa (stayTile i)),
      leg st 0 0 126 (coords q (stayTile i)) (coords fb tb) with
    | some c0, some c1 => some (2 + gridDist q fb, ⟨c0.chans ++ [(fa, 88 + i)] ++ c1.chans, c0.routers ++ c1.routers⟩)
    | _, _ => none

/-- The cheapest of the candidates, the lower port on a tie. -/
def cheapest : List (Nat × Route) → Option (Nat × Route)
  | [] => none
  | c :: r => match cheapest r with
    | some d => some (if c.1 ≤ d.1 then c else d)
    | none => some c

/-- The direct route from tile to tile (R606). -/
def direct (st : State) (fa ta fb tb : Nat) : Option Route := leg st 0 0 126 (coords fa ta) (coords fb tb)

/-- The route from tile to tile (R605), with its class (R599): a stay when its cost lies below the direct distance, or
when no direct route exists (DEDUCED, log 36). -/
def route (st : State) (fa ta fb tb : Nat) : Option (Nat × Route) :=
  let d := gridDist fa fb
  match direct st fa ta fb tb with
  | some p =>
    if d ≤ 2 then some (1, p)
    else match cheapest ((List.range 4).filterMap fun i => stayRoute st fa ta fb tb i) with
      | some c => if c.1 < d then some (0, c.2) else some (1, p)
      | none => some (1, p)
  | none => (cheapest ((List.range 4).filterMap fun i => stayRoute st fa ta fb tb i)).map fun c => (0, c.2)

/-- The landing channels of a landing in routes, as channel number, attach field and attach tile. -/
def landingChannels (s : State) (k : Nat) : List (Nat × Nat × Nat) :=
  let a := attachFields k
  (List.range (if k < 12 then 8 else 0)).filterMap fun c =>
    let f := if c < 4 then a.1 else a.2
    if bitAt (s.get (pgFtopo f) FTOPO.LANDING_LIVE_LIVE) (c % 4) then some (c, f, landingTile k (c % 4)) else none

/-- The landing channel nearest to a tile in global hops (R606). -/
def nearestChannel (p : Nat × Nat) : List (Nat × Nat × Nat) → Option (Nat × Nat × Nat)
  | [] => none
  | c :: r =>
    let d := fun (c : Nat × Nat × Nat) =>
      let q := coords c.2.1 c.2.2
      (p.1 - q.1) + (q.1 - p.1) + (p.2 - q.2) + (q.2 - p.2)
    match nearestChannel p r with
    | some b => some (if d c ≤ d b then c else b)
    | none => some c

/-- The route of a packet between the tiles or landings (field 63) that its header names. -/
def routeFor (s : State) (fa ta fb tb : Nat) : Option (Nat × Route) :=
  if fa < 56 ∧ fb < 56 then route s fa ta fb tb
  else if fa < 56 then
    match nearestChannel (coords fa ta) (landingChannels s tb) with
    | some c => (route s fa ta c.2.1 c.2.2).map fun r => (r.1, { r.2 with chans := r.2.chans ++ [(c.2.1, 92 + c.1 % 4)] })
    | none => none
  else
    match nearestChannel (coords fb tb) (landingChannels s ta) with
    | some c => (route s c.2.1 c.2.2 fb tb).map fun r => (r.1, { r.2 with chans := (56 + ta, c.1) :: r.2.chans })
    | none => none

/-! ### New routes (R608, R609) -/

/-- A packet that waits at an end for its channel takes the new route from there to its destination, if one exists; a packet that has
used its stay takes no second (R599, R605). -/
def reroute (s : State) (h e : Nat) (p : Pkt) : Option Pkt :=
  let t := endTile h e
  let r := if p.cls = 0 ∨ 56 ≤ p.dstField then routeFor s h t p.dstField p.dstTile
    else (direct s h t p.dstField p.dstTile).map fun r => (1, r)
  r.map fun r => { p with cls := r.1, path := r.2.chans, via := r.2.routers }

/-- The packets that wait at an end of a field routed anew: those with no onward route are discarded (R609). -/
def rerouteVc (f e v : Nat) (s : State) : State :=
  let ps := ((s.haw f e).vc v).wait
  if ps = [] then s
  else ps.foldl (fun s p => match reroute s f e p with
    | some q => forward q s
    | none => lose p (discardAt f (endTile f e) s)) (s.modVc f e v fun c => { c with wait := [] })

/-- Packets in a field's routers that have no onward route under its new routes: discarded and counted, with an error response
(R609, R612). -/
def dropStranded (f : Nat) (s : State) : State :=
  let bad := fun (p : Pkt) => p.path.isEmpty && p.dstField == f && !routerIn s f p.dstTile
  let lost := s.m.net.filter bad
  let s := lost.foldl (fun s p => lose p (discardAt f p.dstTile s)) (s.modNet fun n => n.filter fun p => !bad p)
  (List.range 96).foldl (fun s e =>
    if linkState s f e = 6 then rerouteVc f e 1 (rerouteVc f e 0 s) else s) s

/-- ROUTE_COMPUTE_END: a field's computation of routes ends (R608, R609). -/
def execRouteComputeEnd (f : FieldId) (s : State) : Out :=
  ifAwake (fun s =>
    let p := pgFtopo f.val
    if s.on p FTOPO.ROUTE_STATUS_COMPUTING then
      let s := s.set p FTOPO.ROUTE_STATUS_COMPUTING 0
      if routesAtOnce s then dropStranded f.val (computeLive f.val s)
      else s.set p FTOPO.ROUTE_STATUS_PENDING 1
    else s) s

/-- Pending routes become live at slack water (R608). -/
def pendingRoutes (s : State) : State :=
  (List.range 56).foldl (fun s f =>
    if s.on (pgFtopo f) FTOPO.ROUTE_STATUS_PENDING then
      dropStranded f (computeLive f (s.set (pgFtopo f) FTOPO.ROUTE_STATUS_PENDING 0))
    else s) s

/-! ### What the topology table shows (R611) -/

/-- Places of a column that hops southward, and hops northward, reach from those of a set. -/
def flowS (ok : Nat → Bool) : Nat → Bool → List Bool → List Bool
  | _, _, [] => []
  | y, above, b :: bs =>
    let b := b || (above && ok (y - 1))
    b :: flowS ok (y + 1) b bs
def flowN (ok : Nat → Bool) : Nat → List Bool → List Bool
  | _, [] => []
  | y, b :: bs =>
    let r := flowN ok (y + 1) bs
    (b || (r.headD false && ok y)) :: r

/-- The places of the wafer's columns, from column x on, that paths without a westward hop reach: by the places where they start,
and the places reached in the column to the west. -/
def flood (st : State) (start : Nat → Nat → Bool) : Nat → Nat → List Bool → List (List Bool)
  | 0, _, _ => []
  | n + 1, x, west =>
    let here := west.zipIdx.map fun e => start x e.2 || (e.1 && openE st (x - 1) e.2)
    let c := flowN (openS st x) 0 (flowS (openS st x) 0 false here)
    c :: flood st start n (x + 1) c

/-- The places of a row that westward hops reach, from column x - 1 down: whether the place at x is reached. -/
def westReach (st : State) (start : Nat → Bool) (y : Nat) : Nat → Nat → Bool → List Bool
  | 0, _, _ => []
  | n + 1, x, east =>
    let b := start (x - 1) || (east && openE st (x - 1) y)
    westReach st start y n (x - 1) b ++ [b]

/-- The fields to which paths lead from a set of places (R606): westward hops first, then no more of them. -/
def reachFrom (st : State) (start : Nat → Nat → Bool) : Nat :=
  let rows := (List.range 126).map fun y => westReach st (fun x => start x y) y 208 208 false
  let cols := flood st (fun x y => (rows.getD y []).getD x false) 208 0 (List.replicate 126 false)
  bitSet 56 fun g => (List.range 26).any fun i => (List.range 18).any fun j =>
    (cols.getD (26 * gridCol g + i) []).getD (18 * gridRow g + j) false

/-- REACH: the fields to which a route under R605 exists from some tile of a field, to some tile (DEDUCED, log 37). -/
def reach (s : State) (f : Nat) : Nat :=
  if (List.range 15).all fun w => s.get (pgFtopo f) (FTOPO.ROUTER_LIVE_LIVE.at w) == 0 then 0
  else
    let direct := reachFrom s fun x y => fieldAtXY x y == f && liveAt s x y
    (List.range 4).foldl (fun m i =>
      let q := stayPartner f i
      let a := coords f (stayTile i); let b := coords q (stayTile i)
      if s.on (pgFtopo f) (FTOPO.STAY_LIVE.at i) && liveAt s a.1 a.2 && liveAt s b.1 b.2 then
        m ||| reachFrom s fun x y => x == b.1 && y == b.2
      else m) direct

/-- UNREACH: fields holding tiles in use that a field cannot reach. -/
def unreach (s : State) (f : Nat) : Nat :=
  let r := reach s f
  ((List.range 56).filter fun g =>
    !bitAt r g && (tileWords s).any fun w => w.1 == g && entries (fun v => countedState v || v == 7) w.2 != 0).length

/-- LOOKUP_OUT for LOOKUP_IN through the live map (R611). -/
def lookupOut (s : State) (f : Nat) : Nat :=
  match tileOfLid s (s.get (pgFtopo f) FTOPO.LOOKUP_IN_LID) with
  | some k => k % 512 + k / 512 * 2 ^ 16 + 2 ^ 31
  | none => 0

/-- LOOKUP_IN: an identifier to look up in the live map; LOOKUP_OUT shows what holds it (R611). -/
def execLookupIn (f : FieldId) (lid : BitVec 16) (s : State) : Out :=
  ifReach (pgFtopo f.val) (fun s => s.set (pgFtopo f.val) FTOPO.LOOKUP_IN_LID lid.toNat) s

end Sys2Proof.Machine
end

