-- ==== Sys2Proof/Machine/Mesh.lean ====
section
/-! DEFINITION. Packets that leave a tile and packets that arrive (R454 to R459, R597 to R607, R612). -/
namespace Sys2Proof.Machine
open Sys2Proof

/-! ### Leaving a tile -/

/-- A packet with nothing in it but what every packet of a unit starts from. -/
def Pkt.blank : Pkt :=
  { kind := 0, qos := 0, vc := 0, cls := 1, world := false, dstField := 0, dstTile := 0, srcField := 0, srcTile := 0, op := 0,
    tag := 0, addr := 0, data := 0, flits := [], unit := .lsu, path := [], via := [], buf := none, dead := false }

/-- Data flits of a packet (R597): 16 bytes in each. -/
def Pkt.flitCount (p : Pkt) : Nat := (p.flits.length + 15) / 16

/-- The header flit of a packet (R597); a landing's number takes the low bits of its TILE field. -/
def Pkt.header (p : Pkt) : BitVec 128 :=
  BitVec.ofNat 4 p.kind ++ BitVec.ofNat 3 p.qos ++ BitVec.ofNat 1 p.vc ++ BitVec.ofNat 1 p.cls ++ BitVec.ofNat 1 (bit p.world) ++
    BitVec.ofNat 5 p.flitCount ++ BitVec.ofNat 6 p.dstField ++ BitVec.ofNat 9 p.dstTile ++ BitVec.ofNat 6 p.srcField ++
    BitVec.ofNat 9 p.srcTile ++ BitVec.ofNat 3 p.op ++ BitVec.ofNat 16 p.tag ++ p.addr ++ p.data

/-- A request of a tile to a place: routed and on its way, or refused where no route exists, where a field of it is reserved and where
it has more than 16 data flits (false; R598, R607). -/
def depart (k fd td : Nat) (p : Pkt) (s : State) : State × Bool :=
  if p.reserved || decide (16 < p.flitCount) then (unrouted k s, false)
  else match routeFor s (k / 512) (k % 512) fd td with
  | some r =>
    (forward { p with cls := r.1, path := r.2.chans, via := r.2.routers, srcField := k / 512, srcTile := k % 512, dstField := fd, dstTile := td }
      (s.bumpSat (pgTk k 2) TP2.RT_OUT_COUNT), true)
  | none => (unrouted k s, false)

/-- A request of a tile to a logical identifier, resolved through the live map as it leaves (R602). -/
def departLid (k lid : Nat) (p : Pkt) (s : State) : State × Bool :=
  match tileOfLid s lid with
  | some d => depart k (d / 512) (d % 512) p s
  | none => (unrouted k s, false)

/-- The response to a request, from where it arrived to where it came from (R598). -/
def answer (p : Pkt) (kind : Nat) (data : Word) (flits : List Byte) (s : State) : State :=
  let r := { p with kind := kind, vc := 1, srcField := p.dstField, srcTile := p.dstTile, dstField := p.srcField,
                    dstTile := p.srcTile, data := data, flits := flits, buf := none }
  match routeFor s p.dstField p.dstTile p.srcField p.srcTile with
  | some q => forward { r with cls := q.1, path := q.2.chans, via := q.2.routers } s
  | none => lose r s

/-! ### Arriving at a tile or a landing -/

/-- The packet at a place of the mesh, of a kind, at its destination with no earlier one of its source, destination and
virtual channel before it (R600). -/
def arrived (kind i : Nat) (s : State) : Option Pkt :=
  match s.m.net[i]? with
  | some p => if p.kind == kind && p.path.isEmpty && !(s.m.net.take i).any p.sameFlow then some p else none
  | none => none

/-- The packet taken from the mesh: a receive buffer that held it has more room (R658, R659), and a tile counts it. -/
def consume (i : Nat) (p : Pkt) (s : State) : State :=
  let s := s.modNet fun n => n.eraseIdx i
  let s := match p.buf with
    | some b => transmit (b.1 / 128) (b.1 % 128) (flowCheck (b.1 / 128) (b.1 % 128) b.2 s)
    | none => s
  if p.dstField < 56 then s.bumpSat (pgTile p.dstField p.dstTile 2) TP2.RT_IN_COUNT else s

end Sys2Proof.Machine
end

