-- ==== Sys2Proof/Machine/Units.lean ====
section
/-! DEFINITION. The rows of the function units ALU0, ALU1, SHF, CHK, MUL, DIV and HSH (R397 to R427), of plain moves and of
bundles without an enabled move: the tile issues its next bundle when that bundle holds what the row names. -/
namespace Sys2Proof.Machine
open Sys2Proof

/-- The tile issues its next bundle, one of whose enabled destinations is what the row names. -/
def unitRow (p : Dest → Bool) (f : FieldId) (t : TileId) (s : State) : Out :=
  .next (issueRow (fun ds => ds.any p) (tileKey f.val t.val) s)

/-- A row of either ALU (R397). -/
def aluRow (op : AluOp) (f : FieldId) (t : TileId) (s : State) : Out :=
  unitRow (fun d => d == .alu 0 op || d == .alu 1 op) f t s

/-- MOVE: a move writes a register, an operand port or a register of the CU (R352, R440). -/
def execMove (f : FieldId) (t : TileId) (s : State) : Out := unitRow (fun d => d.unit.isNone) f t s

/-- NO_OPERATION: a bundle with no enabled move issues (R360, R367). -/
def execNoOperation (f : FieldId) (t : TileId) (s : State) : Out :=
  .next (issueRow List.isEmpty (tileKey f.val t.val) s)

/-! ### ALU (R397, R398) -/

/-- ALU add: o + t and its carry (R397). -/
def execAdd (f : FieldId) (t : TileId) (s : State) : Out := aluRow .add f t s

/-- ALU addc: o + t + c and its carry (R397). -/
def execAddc (f : FieldId) (t : TileId) (s : State) : Out := aluRow .addc f t s

/-- ALU addv: o + t, with OVERFLOW (R397). -/
def execAddv (f : FieldId) (t : TileId) (s : State) : Out := aluRow .addv f t s

/-- ALU sub: o − t and its borrow (R397). -/
def execSub (f : FieldId) (t : TileId) (s : State) : Out := aluRow .sub f t s

/-- ALU subb: o − t − c and its borrow (R397). -/
def execSubb (f : FieldId) (t : TileId) (s : State) : Out := aluRow .subb f t s

/-- ALU subv: o − t, with OVERFLOW (R397). -/
def execSubv (f : FieldId) (t : TileId) (s : State) : Out := aluRow .subv f t s

/-- ALU and: o AND t (R397). -/
def execAnd (f : FieldId) (t : TileId) (s : State) : Out := aluRow .and f t s

/-- ALU or: o OR t (R397). -/
def execOr (f : FieldId) (t : TileId) (s : State) : Out := aluRow .or f t s

/-- ALU xor: o XOR t (R397). -/
def execXor (f : FieldId) (t : TileId) (s : State) : Out := aluRow .xor f t s

/-- ALU andn: o AND NOT t (R397). -/
def execAndn (f : FieldId) (t : TileId) (s : State) : Out := aluRow .andn f t s

/-- ALU slt: 1 when o < t, signed (R397). -/
def execSlt (f : FieldId) (t : TileId) (s : State) : Out := aluRow .slt f t s

/-- ALU sltu: 1 when o < t, unsigned (R397). -/
def execSltu (f : FieldId) (t : TileId) (s : State) : Out := aluRow .sltu f t s

/-- ALU min: the signed smaller (R397). -/
def execMin (f : FieldId) (t : TileId) (s : State) : Out := aluRow .min f t s

/-- ALU minu: the unsigned smaller (R397). -/
def execMinu (f : FieldId) (t : TileId) (s : State) : Out := aluRow .minu f t s

/-- ALU max: the signed larger (R397). -/
def execMax (f : FieldId) (t : TileId) (s : State) : Out := aluRow .max f t s

/-- ALU maxu: the unsigned larger (R397). -/
def execMaxu (f : FieldId) (t : TileId) (s : State) : Out := aluRow .maxu f t s

/-- ALU abs: the magnitude of t (R397). -/
def execAbs (f : FieldId) (t : TileId) (s : State) : Out := aluRow .abs f t s

/-- ALU pass: t (R397). -/
def execPass (f : FieldId) (t : TileId) (s : State) : Out := aluRow .pass f t s

/-! ### SHF (R399 to R401) -/

/-- SHF shl: o shifted left (R399). -/
def execShl (f : FieldId) (t : TileId) (s : State) : Out := unitRow (· == .shf .shl) f t s

/-- SHF shr: o shifted right with zeros (R399). -/
def execShr (f : FieldId) (t : TileId) (s : State) : Out := unitRow (· == .shf .shr) f t s

/-- SHF sar: o shifted right with the sign (R399). -/
def execSar (f : FieldId) (t : TileId) (s : State) : Out := unitRow (· == .shf .sar) f t s

/-- SHF rol: o rotated left (R399). -/
def execRol (f : FieldId) (t : TileId) (s : State) : Out := unitRow (· == .shf .rol) f t s

/-- SHF ror: o rotated right (R399). -/
def execRor (f : FieldId) (t : TileId) (s : State) : Out := unitRow (· == .shf .ror) f t s

/-- SHF ext: a field of t, zero-extended (R399). -/
def execExt (f : FieldId) (t : TileId) (s : State) : Out := unitRow (· == .shf .ext) f t s

/-- SHF exts: a field of t, sign-extended (R399). -/
def execExts (f : FieldId) (t : TileId) (s : State) : Out := unitRow (· == .shf .exts) f t s

/-- SHF ins: o with a field replaced (R399). -/
def execIns (f : FieldId) (t : TileId) (s : State) : Out := unitRow (· == .shf .ins) f t s

/-- SHF bswap: the bytes of t reversed (R399). -/
def execBswap (f : FieldId) (t : TileId) (s : State) : Out := unitRow (· == .shf .bswap) f t s

/-- SHF hswap: the bytes of each half of t exchanged (R399). -/
def execHswap (f : FieldId) (t : TileId) (s : State) : Out := unitRow (· == .shf .hswap) f t s

/-- SHF clz: the leading zero bits of t (R399). -/
def execClz (f : FieldId) (t : TileId) (s : State) : Out := unitRow (· == .shf .clz) f t s

/-- SHF ctz: the trailing zero bits of t (R399). -/
def execCtz (f : FieldId) (t : TileId) (s : State) : Out := unitRow (· == .shf .ctz) f t s

/-! ### CHK (R403 to R407, R410) -/

/-- CHK c32cB: a CRC-32C byte step (R403). -/
def execC32cB (f : FieldId) (t : TileId) (s : State) : Out := unitRow (· == .chk .c32cB) f t s

/-- CHK c32cW: a CRC-32C word step (R403). -/
def execC32cW (f : FieldId) (t : TileId) (s : State) : Out := unitRow (· == .chk .c32cW) f t s

/-- CHK c32B: an IEEE 802.3 byte step (R403). -/
def execC32B (f : FieldId) (t : TileId) (s : State) : Out := unitRow (· == .chk .c32B) f t s

/-- CHK c32W: an IEEE 802.3 word step (R403). -/
def execC32W (f : FieldId) (t : TileId) (s : State) : Out := unitRow (· == .chk .c32W) f t s

/-- CHK c16B: a CRC-16 byte step (R403). -/
def execC16B (f : FieldId) (t : TileId) (s : State) : Out := unitRow (· == .chk .c16B) f t s

/-- CHK c16W: a CRC-16 word step (R403). -/
def execC16W (f : FieldId) (t : TileId) (s : State) : Out := unitRow (· == .chk .c16W) f t s

/-- CHK cpB: a programmable byte step (R403). -/
def execCpB (f : FieldId) (t : TileId) (s : State) : Out := unitRow (· == .chk .cpB) f t s

/-- CHK cpW: a programmable word step (R403). -/
def execCpW (f : FieldId) (t : TileId) (s : State) : Out := unitRow (· == .chk .cpW) f t s

/-- CHK fin32: t XOR all ones (R403). -/
def execFin32 (f : FieldId) (t : TileId) (s : State) : Out := unitRow (· == .chk .fin32) f t s

/-- CHK fin16: the low half of t (R403). -/
def execFin16 (f : FieldId) (t : TileId) (s : State) : Out := unitRow (· == .chk .fin16) f t s

/-- CHK finp: the programmable finalisation (R403). -/
def execFinp (f : FieldId) (t : TileId) (s : State) : Out := unitRow (· == .chk .finp) f t s

/-- CHK parW: the parity of t (R403). -/
def execParW (f : FieldId) (t : TileId) (s : State) : Out := unitRow (· == .chk .parW) f t s

/-- CHK parB: the parity of each byte (R403). -/
def execParB (f : FieldId) (t : TileId) (s : State) : Out := unitRow (· == .chk .parB) f t s

/-- CHK revW: the bits of t reversed (R403). -/
def execRevW (f : FieldId) (t : TileId) (s : State) : Out := unitRow (· == .chk .revW) f t s

/-- CHK revB: the bits of each byte reversed (R403). -/
def execRevB (f : FieldId) (t : TileId) (s : State) : Out := unitRow (· == .chk .revB) f t s

/-- CHK pop: the set bits of t (R403). -/
def execPop (f : FieldId) (t : TileId) (s : State) : Out := unitRow (· == .chk .pop) f t s

/-- CHK fold32c: a FOLD starts, or continues a stopped one (R410 to R413). -/
def execFold32c (f : FieldId) (t : TileId) (s : State) : Out := unitRow (· == .fold 0) f t s

/-- CHK fold32: a FOLD starts, or continues a stopped one (R410 to R413). -/
def execFold32 (f : FieldId) (t : TileId) (s : State) : Out := unitRow (· == .fold 1) f t s

/-- CHK fold16: a FOLD starts, or continues a stopped one (R410 to R413). -/
def execFold16 (f : FieldId) (t : TileId) (s : State) : Out := unitRow (· == .fold 2) f t s

/-- CHK foldp: a FOLD starts, or continues a stopped one (R410 to R413). -/
def execFoldp (f : FieldId) (t : TileId) (s : State) : Out := unitRow (· == .fold 3) f t s

/-- CHK fclr: RESUME of a stopped FOLD is cleared (R403). -/
def execFclr (f : FieldId) (t : TileId) (s : State) : Out := unitRow (· == .fclr) f t s

/-! ### MUL, DIV and HSH (R420 to R427) -/

/-- MUL mul (R420). -/
def execMul (f : FieldId) (t : TileId) (s : State) : Out := unitRow (· == .mul .mul) f t s

/-- MUL mulu (R420). -/
def execMulu (f : FieldId) (t : TileId) (s : State) : Out := unitRow (· == .mul .mulu) f t s

/-- MUL mulv (R420). -/
def execMulv (f : FieldId) (t : TileId) (s : State) : Out := unitRow (· == .mul .mulv) f t s

/-- MUL mulvu (R420). -/
def execMulvu (f : FieldId) (t : TileId) (s : State) : Out := unitRow (· == .mul .mulvu) f t s

/-- DIV div (R421, R422). -/
def execDiv (f : FieldId) (t : TileId) (s : State) : Out := unitRow (· == .div .div) f t s

/-- DIV divu (R421, R422). -/
def execDivu (f : FieldId) (t : TileId) (s : State) : Out := unitRow (· == .div .divu) f t s

/-- DIV divq (R421, R422). -/
def execDivq (f : FieldId) (t : TileId) (s : State) : Out := unitRow (· == .div .divq) f t s

/-- DIV divqu (R421, R422). -/
def execDivqu (f : FieldId) (t : TileId) (s : State) : Out := unitRow (· == .div .divqu) f t s

/-- HSH init: the initial hash value of SHA-256 (R425 to R427). -/
def execInit (f : FieldId) (t : TileId) (s : State) : Out := unitRow (· == .hsh 0) f t s

/-- HSH seth: H0 to H7 from the operand ports (R425 to R427). -/
def execSeth (f : FieldId) (t : TileId) (s : State) : Out := unitRow (· == .hsh 1) f t s

/-- HSH rnd: a group of eight rounds (R425 to R427). -/
def execRnd (f : FieldId) (t : TileId) (s : State) : Out := unitRow (· == .hsh 2) f t s

/-! ### Results (R369, R528) -/

/-- Results that are due land; a rig with an imprecise exception on its way runs to the cycle that raises it, while it
has nothing to issue before (R368, R528). -/
def unitResult (k : Nat) (s : State) : State :=
  match nextRaise (s.rig k) with
  | some c => settleRig k (if issues (settleRig k s) k then s else s.atTime (max s.m.wtime c))
  | none => settleRig k s

/-- UNIT_RESULT: fixed-latency operations reach their latency and write their sockets, and imprecise exceptions are raised
(R369, R528). -/
def execUnitResult (f : FieldId) (t : TileId) (s : State) : Out := .next (unitResult (tileKey f.val t.val) s)

end Sys2Proof.Machine
end

