-- ==== Sys2Proof/Machine/Lsu.lean ====
section
/-! DEFINITION. The LSU's rows and the completion of its accesses (R429 to R435, R452, R458), the IOU's triggers (R436), and
the beats of a FOLD (R412 to R419). -/
namespace Sys2Proof.Machine
open Sys2Proof

/-! ### Issue -/

/-- A load or a store of a kind in any mode (R431). -/
def accessRow (kind : Nat) (f : FieldId) (t : TileId) (s : State) : Out :=
  unitRow (fun d => match d with | .access k _ => k == kind | _ => false) f t s

/-- LSU ldb: a byte, zero-extended (R431). -/
def execLdb (f : FieldId) (t : TileId) (s : State) : Out := accessRow 0 f t s
/-- LSU ldbs: a byte, sign-extended (R431). -/
def execLdbs (f : FieldId) (t : TileId) (s : State) : Out := accessRow 1 f t s
/-- LSU ldh: a half-word, zero-extended (R431). -/
def execLdh (f : FieldId) (t : TileId) (s : State) : Out := accessRow 2 f t s
/-- LSU ldhs: a half-word, sign-extended (R431). -/
def execLdhs (f : FieldId) (t : TileId) (s : State) : Out := accessRow 3 f t s
/-- LSU ldw: a word (R431). -/
def execLdw (f : FieldId) (t : TileId) (s : State) : Out := accessRow 4 f t s
/-- LSU stb: o[7:0] stored (R431). -/
def execStb (f : FieldId) (t : TileId) (s : State) : Out := accessRow 5 f t s
/-- LSU sth: o[15:0] stored (R431). -/
def execSth (f : FieldId) (t : TileId) (s : State) : Out := accessRow 6 f t s
/-- LSU stw: o stored (R431). -/
def execStw (f : FieldId) (t : TileId) (s : State) : Out := accessRow 7 f t s
/-- LSU swp: a locked swap (R432). -/
def execSwp (f : FieldId) (t : TileId) (s : State) : Out := unitRow (· == .swp) f t s
/-- LSU ldadd: a locked addition (R432). -/
def execLdadd (f : FieldId) (t : TileId) (s : State) : Out := unitRow (· == .ldadd) f t s
/-- LSU cas: a locked compare and swap (R432). -/
def execCas (f : FieldId) (t : TileId) (s : State) : Out := unitRow (· == .cas) f t s
/-- LSU sync: completes after every earlier access (R432). -/
def execSync (f : FieldId) (t : TileId) (s : State) : Out := unitRow (· == .sync) f t s
/-- IOU ior: a word of the I/O space is read (R436). -/
def execIor (f : FieldId) (t : TileId) (s : State) : Out := unitRow (· == .ior) f t s
/-- IOU iow: a word of the I/O space is written (R436). -/
def execIow (f : FieldId) (t : TileId) (s : State) : Out := unitRow (· == .iow) f t s

/-! ### Completion of an access -/

/-- The oldest result still to come of an interlocked socket has come (R372). -/
def markDone (v : Option Word) : List Ilk → List Ilk
  | [] => []
  | e :: r => if e.done then e :: markDone v r else { e with done := true, val := v } :: r

/-- The oldest access completes, with a value for r where it has one (R434). -/
def lsuDone (k : Nat) (v : Option Word) (s : State) : State :=
  s.modRig k fun r => match r.lsuQ with
    | [] => r
    | a :: rest => { r with lsuQ := rest, lsuIlk := if a.kind.result then markDone v r.lsuIlk else r.lsuIlk }

/-- A BUS_ERROR raised after issue (R393, R527); a rig in escalated stop raises nothing (R534). -/
def raiseBus (k info bundle slot : Nat) (addr : Word) (s : State) : State :=
  s.modRig k fun r =>
    if r.run = .escalated then r else { r with raised := r.raised ++ [⟨0x09, info, bundle, slot, addr⟩] }

/-- The oldest access has received an error response (R435). -/
def lsuFail (k : Nat) (s : State) : State :=
  match (s.rig k).lsuQ with
  | [] => s
  | a :: _ => raiseBus k 1 a.bundle a.slot a.addr (lsuDone k none s)

/-- The word that bytes make, lowest first. -/
def wordOf (bs : List Byte) : Word := BitVec.ofNat 32 (bs.foldr (fun b n => b.toNat + 256 * n) 0)

/-- The value of a load from its bytes (R431). -/
def loadValue (size : Nat) (sgn : Bool) (w : Word) : Word :=
  let n := bits w.toNat 0 (8 * size)
  if sgn then BitVec.ofInt 32 (signed n (8 * size)) else BitVec.ofNat 32 n

/-- What an atomic leaves in memory where it found w; none where a cas leaves it (R432). -/
def atomicNew (kind : LsuKind) (w data cmp : Word) : Option Word :=
  match kind with
  | .swp => some data
  | .ldadd => some (w + data)
  | .cas => if w = cmp then some data else none
  | _ => none

/-- An access performed on the DMEM of a tile: the value read, 0 for a store, or none for an error (R432, R462); `rig` and `berth`
say whose it is (R332). -/
def dmemAccess (rig berth : Bool) (k d : Nat) (kind : LsuKind) (data cmp : Word) (s : State) : State × Option Word :=
  match kind with
  | .load n sg =>
    let r := readAs rig k d n s
    (r.1, r.2.map fun bs => loadValue n sg (wordOf bs))
  | .store n =>
    let r := writeAs rig berth k d ((wordBytes data).take n) s
    (r.1, if r.2 then some 0 else none)
  | .sync => (s, some 0)
  | _ =>
    let r := readAs rig k d 4 s
    match r.2 with
    | none => (r.1, none)
    | some bs =>
      let w := wordOf bs
      match atomicNew kind w data cmp with
      | none => (r.1, some w)
      | some v =>
        let q := writeAs rig berth k d (wordBytes v) r.1
        (q.1, if q.2 then some w else none)

/-- OP of the packet of an access (R597). -/
def LsuKind.op : LsuKind → Nat
  | .load n _ | .store n => if n = 1 then 0 else if n = 2 then 1 else 2
  | .swp => 3 | .ldadd => 4 | .cas => 5
  | .sync => 2

/-- The request packet of a far access (R454, R597, R598). TAG is the trigger's issue slot (DESIGN CHOICE, log 40). -/
def lsuPacket (s : State) (k : Nat) (a : LsuAcc) (r : Nat) : Pkt :=
  { Pkt.blank with
    kind := (match a.kind with | .load _ _ => 0 | .store _ => 1 | _ => 2)
    qos := qosM0 s k, world := a.berth, op := a.kind.op, tag := a.slot % 65536
    addr := BitVec.ofNat 32 r, data := (match a.kind with | .load _ _ => 0 | _ => a.data)
    flits := (match a.kind with | .cas => wordBytes a.cmp ++ List.replicate 12 0 | _ => [])
    unit := .lsu }

/-- A local access performed at its bank. -/
def lsuLocal (k d : Nat) (a : LsuAcc) (s : State) : State :=
  let r := dmemAccess true a.berth k d a.kind a.data a.cmp (grant k 0 (bankOf d) a.kind.beats s)
  match r.2 with
  | some v => lsuDone k (some v) r.1
  | none => lsuFail k r.1

/-- A far access sent into the mesh, or refused by the router (R455). -/
def lsuFar (k lid r : Nat) (a : LsuAcc) (s : State) : State :=
  let q := departLid k lid (lsuPacket s k a r) (grant k 0 10 1 s)
  if q.2 then
    q.1.modRig k fun g => match g.lsuQ with
      | [] => g
      | x :: rest => { g with lsuQ := { x with sent := true } :: rest }
  else lsuFail k q.1

/-- The oldest access of the LSU reaches its target, once it wins its arbitration (R433, R434, R452, R566). -/
def lsuStep (k : Nat) (s : State) : State :=
  match (s.rig k).lsuQ with
  | [] => s
  | a :: _ =>
    let n := a.kind.size; let d := a.addr.toNat
    if a.sent then s
    else if a.kind = .sync then lsuDone k (some 0) s
    else if d % n ≠ 0 then lsuFail k s
    else if matrixHalted s k then s
    else match placeSpan s k d n a.berth with
      | .t11 kind => lsuFail k (toT11 k 0 kind d s)
      | .dmem l =>
        if (a.kind.writes && a.berth && lineWaits s k l n) || !wins s k 0 ⟨bankOf l, a.kind.beats, qosM0 s k⟩ then s
        else lsuLocal k l a s
      | .far lid r => if wins s k 0 ⟨10, 1, qosM0 s k⟩ then lsuFar k lid r a s else s

/-- LSU_ACCESS_COMPLETE: the oldest access of a tile's LSU completes at its target, or leaves for the mesh (R434). -/
def execLsuAccessComplete (f : FieldId) (t : TileId) (s : State) : Out := .next (lsuStep (tileKey f.val t.val) s)

/-- A response to the far access of an LSU: a value, or an error (R435, R458). -/
def lsuResponse (k tag : Nat) (v : Option Word) (s : State) : State :=
  match (s.rig k).lsuQ with
  | [] => s
  | a :: _ =>
    if a.sent ∧ a.slot % 65536 = tag then
      match v with
      | none => lsuFail k s
      | some w => lsuDone k (some (match a.kind with | .load n sg => loadValue n sg w | _ => w)) s
    else s

/-! ### FOLD -/

/-- One byte of a FOLD; a checkpoint at a 64-byte boundary (R412, R415). -/
def foldByte (poly pcfg : Word) (fo : Fold) (b : Byte) : Fold :=
  let fo := { fo with acc := crcByte fo.alg poly pcfg fo.acc (b.setWidth 32), ptr := fo.ptr + 1, rem := fo.rem - 1 }
  if fo.ptr.toNat % 64 = 0 ∧ fo.ptr ≠ 0 then { fo with facc := fo.acc, fptr := fo.ptr, frem := fo.rem } else fo

/-- The sockets that a FOLD writes when it stops or ends: facc, fptr and frem. -/
def foldSocks (acc ptr rem : Word) (socks : List (Nat × Word)) : List (Nat × Word) :=
  writeSocks socks [(0x074, acc), (0x075, ptr), (0x076, rem)]

/-- The bytes of a beat processed; the FOLD ends with its last byte (R412). -/
def foldBytes (k : Nat) (bs : List Byte) (s : State) : State :=
  s.modRig k fun r =>
    let fo := bs.foldl (foldByte (lookup 0 r.socks 0x077) (lookup 0 r.socks 0x078)) { r.fold with sent := false }
    if fo.rem = 0 then
      { r with fold := { fo with busy := false }, socks := foldSocks fo.acc fo.ptr 0 (put 0 r.socks 0x072 fo.acc) }
    else { r with fold := fo }

/-- A read of a FOLD has received an error response (R417). -/
def foldFail (k : Nat) (s : State) : State :=
  let fo := (s.rig k).fold
  let s := s.modRig k fun r =>
    { r with fold := { fo with busy := false, resume := false, busErr := true, sent := false }
             socks := foldSocks fo.facc fo.fptr fo.frem (put 0 r.socks 0x072 fo.facc) }
  raiseBus k 3 fo.bundle fo.slot fo.ptr s

/-- A beat read from the local DMEM, to the end of its bank at most. -/
def foldLocal (k d n : Nat) (s : State) : State :=
  let r := readAs true k d (min n (32768 - d % 32768)) (grant k 4 (bankOf d) 1 s)
  match r.2 with
  | none => foldFail k r.1
  | some bs => foldBytes k bs r.1

/-- A beat read through a far window: a BLOCK_READ, whose DATA is its byte count (DESIGN CHOICE, log 40). -/
def foldFar (k lid r n : Nat) (fo : Fold) (s : State) : State :=
  let p := { Pkt.blank with kind := 7, qos := qosM4 s k, world := fo.berth, tag := fo.slot % 65536
                            addr := BitVec.ofNat 32 r, data := BitVec.ofNat 32 n, unit := .fold }
  let q := departLid k lid p (grant k 4 10 1 s)
  if q.2 then q.1.modRig k fun g => { g with fold := { g.fold with sent := true } } else foldFail k q.1

/-- The next beat of the FOLD in flight, under the windows of its trigger, once it wins its arbitration (R414, R419, R566, R588). -/
def foldStep (k : Nat) (s : State) : State :=
  let s := settleRig k s
  let r := s.rig k
  let fo := r.fold
  if !fo.busy || fo.sent || r.lsuQ.any (fun a => decide (a.slot < fo.slot)) || matrixHalted s k then s
  else match placeIn fo.wins s k fo.ptr.toNat fo.berth with
    | .t11 kind => foldFail k (toT11 k 4 kind fo.ptr.toNat s)
    | .dmem d => if wins s k 4 ⟨bankOf d, 1, qosM4 s k⟩ then foldLocal k d (foldCount fo) s else s
    | .far lid a => if wins s k 4 ⟨10, 1, qosM4 s k⟩ then foldFar k lid a (min (foldCount fo) (0x40000 - a)) fo s else s

/-- FOLD_BEAT_READ: a read of a FOLD returns and its bytes are processed, or its request leaves for the mesh (R414). -/
def execFoldBeatRead (f : FieldId) (t : TileId) (s : State) : Out := .next (foldStep (tileKey f.val t.val) s)

/-- A response to the far read of a FOLD; one for a FOLD that has since stopped is nothing to it. -/
def foldResponse (k tag : Nat) (bs : Option (List Byte)) (s : State) : State :=
  let s := settleRig k s
  let fo := (s.rig k).fold
  if fo.busy && fo.sent && fo.slot % 65536 == tag then
    match bs with
    | some l => foldBytes k l s
    | none => foldFail k s
  else s

end Sys2Proof.Machine
end

