-- ==== Sys2Proof/Machine/Ferry.lean ====
section
/-! DEFINITION. The ferry engine (R588, R613 to R623), posts and their capture (R331, R348), the outbound frames that it
sends (R696) and the credit windows of the matrix (R581). -/
namespace Sys2Proof.Machine
open Sys2Proof

/-! ### Credits (R581, R585) -/

/-- The GUAR field of a master. -/
def guarOf (m : Nat) : Fld :=
  match m with
  | 0 => TP1.GUAR_LO_M0 | 1 => TP1.GUAR_LO_M1 | 2 => TP1.GUAR_LO_M2 | 3 => TP1.GUAR_LO_M3 | _ => TP1.GUAR_HI_M4

/-- The live share of master m on target t. -/
def shareOf (s : State) (k m t : Nat) : Nat := s.get (pgTk k 1) ((guarOf m).at t)

/-- The GUAR words that hold a share, as their tile and target. -/
def guarWords (s : State) : List (Nat × Nat) :=
  s.live.filterMap fun e =>
    if clsOf e.1 = 8 ∧ pageNoOf e.1 = 1 ∧ 0x300 ≤ offOf e.1 ∧ offOf e.1 < 0x358 then
      some (tileKey (fieldOf e.1) (tileOf e.1), (offOf e.1 - 0x300) / 8)
    else none

/-- Every credit set to its live share (R581). -/
def setCredits (s : State) : State :=
  { s with m := { s.m with credits := (guarWords s).foldl (fun c kt =>
      (List.range 5).foldl (fun c m => put 0 c ((5 * kt.1 + m) * 16 + kt.2) (shareOf s kt.1 m kt.2)) c) [] } }

/-- The next edge on which WTIME mod 100 = 0; WTIME runs to it. -/
def creditEdge (s : State) : State := s.atTime ((s.m.wtime + 99) / 100 * 100)

/-- CREDIT_WINDOW: a credit window opens (R581). -/
def execCreditWindow (s : State) : Out := ifAwake (fun s => if clocked s then setCredits (creditEdge s) else s) s

/-! ### Descriptors (R614) -/

/-- A descriptor whose eight words have been read, before its checks. -/
def descriptorOf (req : FryReq) (w : List Word) : FryAct :=
  let x := fun i => (nth w i).toNat
  { req := req, src := nth w 0, dst := nth w 1, len := bits (x 2) 0 24, row := bits (x 3) 0 16, sstride := nth w 4
    dstride := nth w 5, dkind := bits (x 6) 0 3, qos := bits (x 6) 4 3, event := bitAt (x 6) 8
    next := if bitAt (x 7) 31 then some (bits (x 7) 0 18) else none, seq := 0, pos := 0, rowPos := 0, srow := nth w 0
    drow := nth w 1, reading := none, writes := 0, gathered := [], code := none }

/-- A reserved bit of the descriptor is not zero, or DKIND is reserved (R619 step 2). -/
def descriptorReserved (w : List Word) : Bool :=
  let x := fun i => (nth w i).toNat
  let dk := bits (x 6) 0 3
  bits (x 2) 24 8 != 0 || bits (x 3) 16 16 != 0 || (x 6 &&& 0xFFFFFE88) != 0 || bits (x 7) 18 13 != 0 ||
    decide (3 < dk) || (dk == 1 && bits (x 1) 16 16 != 0) || (dk == 2 && bits (x 1) 12 20 != 0)

/-- LEN breaks its limits (R619 step 4). -/
def lengthWrong (a : FryAct) : Bool :=
  decide (262144 < a.len) || (a.dkind == 1 && !(a.len % 16 == 0 && decide (16 ≤ a.len) && decide (a.len ≤ 512))) ||
    (a.dkind == 2 && !(a.len % 16 == 0 && decide (bits a.dst.toNat 0 12 + a.len / 16 ≤ 4096)))

/-- Posts issued by a tile in this run (R331). -/
def postSeq (s : State) (k : Nat) : Nat := lookup 0 s.m.x.postSeq k

/-- A tile in use holds the identifier, and a route to it exists (R619 step 6). -/
def postReachable (s : State) (k lid : Nat) : Bool :=
  match tileOfLid s lid with
  | some d => (routeFor s (k / 512) (k % 512) (d / 512) (d % 512)).isSome
  | none => false

/-- The code of the first check of R619, steps 3 to 6, that fails. -/
def checkDescriptor (s : State) (k : Nat) (a : FryAct) : Option Nat :=
  if a.dkind = 2 ∧ (a.req.level ≠ 0 ∨ a.req.berth) then some 6
  else if lengthWrong a then some 1
  else if a.dkind = 1 ∧ 65536 ≤ postSeq s k then some 7
  else if a.dkind = 1 ∧ !postReachable s k (a.dst.toNat % 65536) then some 8
  else none

/-- The next sequence number of a tile's posts taken. -/
def takeSeq (k : Nat) (s : State) : State := s.modX fun x => { x with postSeq := put 0 x.postSeq k (lookup 0 x.postSeq k + 1) }

/-! ### Bursts (R616, R617) -/

/-- The move n bytes further on. -/
def FryAct.advance (n : Nat) (a : FryAct) : FryAct :=
  let a := { a with pos := a.pos + n, rowPos := a.rowPos + n }
  if a.row ≠ 0 ∧ a.rowPos = a.row then
    { a with rowPos := 0, srow := a.srow + a.sstride, drow := a.drow + a.dstride }
  else a

/-- The state with the active descriptor changed. -/
def modAct (k : Nat) (g : FryAct → FryAct) (s : State) : State :=
  let e := s.ferry k
  s.setFerry k { e with act := e.act.map g }

/-- A request of the ferry engine; a read's TAG is 1 and a write's 0 (DESIGN CHOICE, log 40). -/
def fryPacket (s : State) (k : Nat) (a : FryAct) (kind : Nat) : Pkt :=
  { Pkt.blank with kind := kind, qos := fryQos s k a, world := a.req.berth, op := 2, unit := .ferry }

/-- The descriptor stops at an erring burst (R621). -/
def fryFail (k code : Nat) (s : State) : State :=
  modAct k (fun a => { a with code := some (a.code.getD code), gathered := [] }) s

/-- A write sent, or refused by the router. -/
def frySent (k : Nat) (q : State × Bool) : State :=
  if q.2 then modAct k (fun a => { a with writes := a.writes + 1 }) q.1 else fryFail k 5 q.1

/-- Bytes read for the active descriptor. -/
def fryGot (k : Nat) (bs : List Byte) (s : State) : State :=
  modAct k (fun a =>
    let a := { a with gathered := a.gathered ++ bs, reading := none }
    if a.dkind = 0 then a else a.advance bs.length) s

/-- The next source burst read, or its BLOCK_READ sent. -/
def fryRead (k : Nat) (a : FryAct) (s : State) : State :=
  let n := a.chunk
  match placeSpan s k a.from' n a.req.berth with
  | .t11 kind => fryFail k 4 (toT11 k 2 kind a.from' s)
  | .dmem d =>
    let r := readAs true k d n (grantBursts k 2 d n s)
    match r.2 with
    | none => fryFail k 4 r.1
    | some bs => fryGot k bs r.1
  | .far lid r =>
    let p := { fryPacket s k a 7 with tag := 1, addr := BitVec.ofNat 32 r, data := BitVec.ofNat 32 n }
    let q := departLid k lid p (grant k 2 10 1 s)
    if q.2 then modAct k (fun a => { a with reading := some n }) q.1 else fryFail k 4 q.1

/-- The bytes of the burst written to the data space, or their BLOCK_WRITE sent. -/
def fryWrite (k : Nat) (a : FryAct) (s : State) : State :=
  let n := a.gathered.length
  let moved := fun s => modAct k (fun a => { a.advance n with gathered := [] }) s
  match placeSpan s k a.to' n a.req.berth with
  | .t11 kind => fryFail k 5 (toT11 k 2 kind a.to' s)
  | .dmem d =>
    let r := writeAs true a.req.berth k d a.gathered (grantBursts k 2 d n s)
    if r.2 then moved r.1 else fryFail k 5 r.1
  | .far lid r =>
    let p := { fryPacket s k a 3 with addr := BitVec.ofNat 32 r, data := BitVec.ofNat 32 n, flits := a.gathered }
    moved (frySent k (departLid k lid p (grant k 2 10 (beatsOf 0 n) s)))

/-- The bundles that a burst's bytes make, written from a bundle address. -/
def putBundles (k : Nat) : Nat → Nat → List Byte → State → State
  | 0, _, _, s => s
  | n + 1, a, bs, s =>
    if bs.length < 16 then s
    else putBundles k n ((a + 1) % 4096) (bs.drop 16)
      (writeBundle k (a % 4096) (BitVec.ofNat 128 ((bs.take 16).foldr (fun b x => b.toNat + 256 * x) 0)) s)

/-- The gathered bytes written to the tile's own IMEM as one burst, so far as they fill bundles. -/
def fryBundles (k : Nat) (a : FryAct) (s : State) : State :=
  let n := a.gathered.length / 16
  let s := putBundles k n (a.dst.toNat + (a.pos - a.gathered.length) / 16) a.gathered (grant k 2 8 n s)
  drainIf k (ifWaits s k).length (modAct k (fun x => { x with gathered := a.gathered.drop (16 * n) }) s)

/-! ### Posts, frames and their capture (R331, R348, R696) -/

/-- The low bytes of a number, lowest first, as a field of a record. -/
def le (x n : Nat) : List Byte := bytesOf x n

/-- A list with zeros after it up to a multiple of 16 bytes. -/
def pad16 (l : List Byte) : List Byte := l ++ List.replicate ((16 - l.length % 16) % 16) 0

/-- The item in pieces of at most 496 bytes, which fit a post with the record's header. -/
def pieces : Nat → List Byte → List (List Byte)
  | 0, _ => []
  | n + 1, l => if l = [] then [] else l.take 496 :: pieces n (l.drop 496)

/-- The header of a capture record (R348). -/
def recordHeader (kind index dest seq len : Nat) : List Byte :=
  [BitVec.ofNat 8 kind, 0] ++ le index 2 ++ le dest 2 ++ le seq 2 ++ le len 4 ++ [0, 0, 0, 0]

/-- A post sent to an identifier in packets of at most 256 bytes: ADDR holds a packet's offset in the post and DATA the post's
length (R597, R598; log 40). -/
def sendPost (k lid seq : Nat) (a : FryAct) (body : List Byte) (s : State) : State :=
  let part := fun (o : Nat) (s : State) =>
    frySent k (departLid k lid { fryPacket s k a 5 with
      tag := seq % 65536, addr := BitVec.ofNat 32 o, data := BitVec.ofNat 32 body.length
      flits := (body.drop o).take 256 } (grant k 2 10 (beatsOf 0 (min 256 (body.length - o))) s))
  if body.length ≤ 256 then part 0 s else part 256 (part 0 s)

/-- The item of a descriptor captured to SINK, each record taking a further sequence number. -/
def capture (k : Nat) (b : Latched) (a : FryAct) (s : State) : State :=
  let index := s.get (pgTk k 2) TP2.LID_ID - b.base
  let h := if a.dkind = 1 then recordHeader 2 index (a.dst.toNat % 65536) a.seq a.gathered.length
    else recordHeader 1 index 0 0 a.gathered.length
  (pieces (a.gathered.length + 1) a.gathered).foldl (fun s l =>
    sendPost k b.sink (postSeq s k) a (pad16 (h ++ l)) (takeSeq k s)) s

/-- The EGRESS packets of a frame, 256 bytes in each (R696). -/
def sendFrame (k : Nat) (a : FryAct) : Nat → Nat → State → State
  | 0, _, s => s
  | n + 1, o, s =>
    if a.gathered.length ≤ o then s
    else
      let p := { fryPacket s k a 6 with
        addr := a.dst, flits := (a.gathered.drop o).take 256
        data := BitVec.ofNat 32 (a.gathered.length % 65536 + o / 16 * 65536) }
      sendFrame k a n (o + 256) (frySent k (depart k 63 (bits a.dst.toNat 12 4) p
        (grant k 2 10 (beatsOf 0 (min 256 (a.gathered.length - o))) s)))

/-- The item of a post or frame, once it is whole: sent, and captured where its berth asks for it (R348). -/
def sendItem (k : Nat) (a : FryAct) (s : State) : State :=
  let berth := (lidOf s (k / 512) (k % 512)).bind fun lid => (berthOfLid s lid).map BerthRun.slot
  let s := modAct k (fun a => { a with gathered := [] }) s
  let s := match berth with
    | some b => if b.replay then s else if a.dkind = 1 then sendPost k (a.dst.toNat % 65536) a.seq a a.gathered s
        else sendFrame k a 1025 0 s
    | none => if a.dkind = 1 then sendPost k (a.dst.toNat % 65536) a.seq a a.gathered s else sendFrame k a 1025 0 s
  match berth with
  | some b => if b.capture || b.replay then capture k b a s else s
  | none => s

/-! ### The engine -/

/-- One burst or one item of the active descriptor; the state alone where it waits or has moved everything. A write through a far
window waits for the answer to the one before it, so that the engine stops at the erring burst (R621, log 41). -/
def fryBurst (k : Nat) (s : State) : State :=
  match (s.ferry k).act with
  | none => s
  | some a =>
    if a.moved || a.reading.isSome || matrixHalted s k || !(fryReq s k).all (wins s k 2) then s
    else if a.dkind = 0 then
      if a.gathered = [] then fryRead k a s else if fryWaits s k a || a.writes != 0 then s else fryWrite k a s
    else if a.pos < a.len ∧ (a.dkind ≠ 2 ∨ a.gathered.length < 16) then fryRead k a s
    else if a.dkind = 2 then fryBundles k a s
    else sendItem k a s

/-- The bursts of the active descriptor, until it waits or has moved everything. -/
def fryPump (k : Nat) : Nat → State → State
  | 0, s => s
  | n + 1, s =>
    let s' := fryBurst k s
    if s'.ferry k = s.ferry k then s' else fryPump k n s'

/-- The bursts that a descriptor may need: a read and a write for each byte, and one item. -/
def pumpFuel (s : State) (k : Nat) : Nat :=
  match (s.ferry k).act with
  | some a => 2 * (a.len - a.pos) + 3
  | none => 0

/-- The engine runs on; while a snapshot copy is in progress each burst waits for a line (R618). -/
def runFerry (k : Nat) (s : State) : State := if copying s k then s else fryPump k (pumpFuel s k) s

/-- A line of the snapshot copy has been served: one burst, or all of them once the copy has ended (R618). -/
def ferryAfterLine (k : Nat) (s : State) : State := if copying s k then fryBurst k s else runFerry k s

/-- The descriptor that the engine would start next: the one that NEXT named, then the queue (R613, R621). -/
def nextRequest (e : Ferry) : Option (FryReq × Ferry) :=
  match e.chain with
  | some r => some (r, { e with chain := none })
  | none => match e.queue with
    | r :: rest => some (r, { e with queue := rest })
    | [] => none

/-- The two beats of a descriptor (R619 step 1). -/
def readDescriptor (k : Nat) (r : FryReq) (s : State) : State × Option (List Word) :=
  let d := r.addr.toNat
  if d % 32 ≠ 0 ∨ 0x40000 ≤ d then (s, none)
  else match dmemKind s k d r.berth false with
    | some kind => (toT11 k 2 kind d s, none)
    | none => readWords k d 8 (grant k 2 (bankOf d) 2 s)

/-- A descriptor taken up: read, checked, and run as far as it goes (R619). -/
def startDescriptor (k : Nat) (s : State) : State :=
  let e := s.ferry k
  match e.act, nextRequest e with
  | none, some (r, e') =>
    if (s.rig k).lsuQ.any (fun a => decide (a.slot < r.slot)) || matrixHalted s k ||
        !wins s k 2 ⟨bankOf r.addr.toNat, 2, min (if r.berth then s.get (pgTk k 2) TP2.FRY_CTL_BERTH_QCAP else 7)
          (s.get (pgTk k 1) TP1.MQOS_CAP_M2)⟩ then s
    else
      let q := readDescriptor k r s
      let s := q.1.set (pgTk k 2) TP2.FRY_CUR_ADDR r.addr.toNat
      let a := descriptorOf r (q.2.getD [])
      let code := match q.2 with
        | none => some 3
        | some w => if descriptorReserved w then some 2 else checkDescriptor s k a
      if code.isNone && a.dkind == 1 then
        runFerry k (s.setFerry k { e' with act := some { a with seq := postSeq s k } } |> takeSeq k)
      else runFerry k (s.setFerry k { e' with act := some { a with code := code } })
  | _, _ => s

/-- DESCRIPTOR_START: the engine starts its next descriptor (R613, R619). -/
def execDescriptorStart (f : FieldId) (t : TileId) (s : State) : Out := .next (startDescriptor (tileKey f.val t.val) s)

/-- A completion other than OK recorded (R623). -/
def recordFerryError (k : Nat) (a : FryAct) (code : Nat) (s : State) : State :=
  let p := pgTk k 2
  setError p 16 (((s.set p TP2.FRY_ERR_ADDR a.req.addr.toNat).set p TP2.FRY_ERR_CODE code).bumpSat p TP2.FRY_ERRCNT_COUNT)

/-- The active descriptor completes (R620 to R623). -/
def finishDescriptor (k : Nat) (a : FryAct) (s : State) : State :=
  let p := pgTk k 2
  let e := s.ferry k
  let code := a.code.getD 0
  let chain := match a.next with
    | some n => if code = 0 ∧ !e.closed then some { a.req with addr := BitVec.ofNat 32 n } else none
    | none => none
  let s := s.setFerry k { e with act := none, chain := chain }
  let s := (s.bump p TP2.FRY_DONE_COUNT).set p TP2.FRY_STATUS_CODE code
  let s := if code = 0 then s else recordFerryError k a code s
  if a.event then s.set (p0 k) TP0.EVENTS_FERRY 1 else s

/-- The active descriptor runs on and completes when every write that it made has completed. -/
def completeDescriptor (k : Nat) (s : State) : State :=
  let s := runFerry k s
  match (s.ferry k).act with
  | some a => if a.moved && a.reading.isNone && a.writes == 0 then finishDescriptor k a s else s
  | none => s

/-- DESCRIPTOR_COMPLETE: the active descriptor completes with its code (R621). -/
def execDescriptorComplete (f : FieldId) (t : TileId) (s : State) : Out :=
  .next (completeDescriptor (tileKey f.val t.val) s)

/-! ### Responses -/

/-- Block data for the engine's read. -/
def ferryData (k : Nat) (bs : List Byte) (s : State) : State :=
  match (s.ferry k).act with
  | some a => if a.reading.isSome then runFerry k (fryGot k bs s) else s
  | none => s

/-- A write of the engine has completed at its target. -/
def writeDone (k : Nat) (s : State) : State := modAct k (fun a => { a with writes := a.writes - 1 }) s

/-- An ACK of a write of the engine, which runs on. -/
def ferryAck (k : Nat) (s : State) : State := runFerry k (writeDone k s)

/-- An error response to a read (tag 1 while one is on its way) or a write of the engine (R620). -/
def ferryError (k tag : Nat) (s : State) : State :=
  match (s.ferry k).act with
  | some a =>
    if a.reading.isSome && tag == 1 then fryFail k 4 (modAct k (fun a => { a with reading := none }) s)
    else fryFail k 5 (writeDone k s)
  | none => s

end Sys2Proof.Machine
end

