-- ==== Sys2Proof/Machine/Net.lean ====
section
/-! DEFINITION. The net landings (R30 to R33, R162, R318, R679 to R701, R713, R716): ports, MAC control, the classification
of frames, ingress bays and egress. -/
namespace Sys2Proof.Machine
open Sys2Proof

/-! ### Reaching a net landing -/

/-- A net landing apart from its pages. -/
def State.netSt (s : State) (k : Nat) : NetSt := lookup NetSt.reset s.m.nets k

/-- KiB that bytes take, rounded up. -/
def kib (n : Nat) : Nat := (n + 1023) / 1024

/-- Bytes of the frames in the hold buffer, and in the egress buffer. -/
def holdBytes (n : NetSt) : Nat := total (n.hold.map fun h => h.bytes.length)
def egressBytes (n : NetSt) : Nat := total ((n.egress ++ n.sending).map fun g => g.bytes.length)

/-- The state with a net landing set; BUFFERS follows it (R713). -/
def State.setNetSt (s : State) (k : Nat) (n : NetSt) : State :=
  let s := { s with m := { s.m with nets := put NetSt.reset s.m.nets k n } }
  (s.set (pgLanding k 0) NETL.BUFFERS_HOLD_KIB (kib (holdBytes n))).set (pgLanding k 0) NETL.BUFFERS_EGRESS_KIB
    (kib (egressBytes n))

def State.modNetSt (s : State) (k : Nat) (g : NetSt → NetSt) : State := s.setNetSt k (g (s.netSt k))

/-- Counter i of port p (R713). -/
def pcnt (p i : Nat) : Fld := (if p = 0 then NETL.PCNT0 else NETL.PCNT1).at i

/-- A port counter counted. -/
def countPort (k p i : Nat) (s : State) (n : Nat := 1) : State := s.bumpSat (pgLanding k 0) (pcnt p i) n

/-- A landing counter counted: DROP is set (R716). -/
def countLanding (k i : Nat) (s : State) : State :=
  setError (pgLanding k 0) 17 (s.bumpSat (pgLanding k 0) (NETL.LCNT_COUNT.at i))

/-- A bit of a port's byte of PSTAT: 0 UP, 1 AN_DONE, 2 ALIGNED, 3 PAUSED, 4 the partner advertises PAUSE. -/
def pstat (s : State) (k p i : Nat) : Bool := bitAt (s.get (pgLanding k 0) NETL.PSTAT) (8 * p + i)
def setPstat (k p i : Nat) (b : Bool) (s : State) : State := s.setBit (pgLanding k 0) NETL.PSTAT (8 * p + i) b

/-- A command of a landing that works: ready, with its rail on. -/
def ifLanding (k : Nat) (g : State → State) (s : State) : Out :=
  ifAwake (fun s => if landingReady s k then g s else s) s

/-! ### The line (R682, R683, R700) -/

/-- The port's MAC address (R713). -/
def pmac (s : State) (k p : Nat) : Nat :=
  if p = 0 then s.get2 (pgLanding k 0) NETL.PMAC0_LO_MAC NETL.PMAC0_HI_MAC
  else s.get2 (pgLanding k 0) NETL.PMAC1_LO_MAC NETL.PMAC1_HI_MAC

/-- A MAC address as its six bytes, the first transmitted first (R684). -/
def macBytes (m : Nat) : List Byte := (bytesOf m 6).reverse

/-- A frame padded to 60 bytes (R697). -/
def pad60 (l : List Byte) : List Byte := l ++ List.replicate (60 - l.length) 0

/-- A PAUSE frame of a port, without its FCS (IEEE 802.3 annex 31B). -/
def pauseBytes (s : State) (k p quanta : Nat) : List Byte :=
  pad60 (macBytes 0x0180C2000001 ++ macBytes (pmac s k p) ++ [0x88, 0x08, 0x00, 0x01] ++ (bytesOf quanta 2).reverse)

/-- A frame put on the line of a port. -/
def onLine (k p : Nat) (bs : List Byte) (s : State) : State := s.modNetSt k fun n => { n with line := n.line ++ [(p, bs)] }

/-- PAUSE sent on both ports (R683). -/
def sendPause (k quanta : Nat) (s : State) : State :=
  onLine k 1 (pauseBytes s k 1 quanta) (onLine k 0 (pauseBytes s k 0 quanta) s)

/-- PAUSE as the hold buffer of 4,096 KiB asks for it (R683). -/
def pauseCheck (k : Nat) (s : State) : State :=
  let n := s.netSt k
  let used := holdBytes n
  if s.on (pgLanding k 0) NETL.NCTL_PAUSE_TX_EN then
    if !n.pausing && decide (3145728 < used) then
      sendPause k 0xFFFF (s.modNetSt k fun n => { n with pausing := true })
    else if n.pausing && decide (used < 2097152) then
      sendPause k 0 (s.modNetSt k fun n => { n with pausing := false })
    else s
  else s

/-- The frames of a port that the landing may send now leave in order; those of a port that is down are discarded (R700). -/
def sendPort (k p : Nat) (s : State) : State :=
  let n := s.netSt k
  let mine := n.sending.filter fun g => g.port == p
  let rest := n.sending.filter fun g => g.port != p
  if mine = [] then s
  else if !pstat s k p 0 then countPort k p 5 (s.setNetSt k { n with sending := rest }) mine.length
  else if lookup 0 n.quanta p ≠ 0 then s
  else countPort k p 4 (s.setNetSt k { n with sending := rest, line := n.line ++ mine.map fun g => (p, g.bytes) })
    mine.length

/-- A MAC control frame received (R682). -/
def macControl (k p opcode quanta : Nat) (s : State) : State :=
  let s := countPort k p 3 s
  if opcode = 1 ∧ s.on (pgLanding k 0) NETL.NCTL_PAUSE_RX_EN then
    let s := setPstat k p 3 (quanta != 0) (s.modNetSt k fun n => { n with quanta := put 0 n.quanta p quanta })
    if quanta = 0 then sendPort k p s else s
  else s

/-- PAUSE_FRAME: a MAC control frame is received (R682). -/
def execPauseFrame (k : NetId) (p : Fin 2) (opcode quanta : BitVec 16) (s : State) : Out :=
  ifLanding k.val (fun s =>
    if pstat s k.val p.val 0 then macControl k.val p.val opcode.toNat quanta.toNat s else s) s

/-- PAUSE_QUANTA_EXPIRY: the transmitter of a port resumes (R682). -/
def execPauseQuantaExpiry (k : NetId) (p : Fin 2) (s : State) : Out :=
  ifLanding k.val (fun s =>
    if lookup 0 (s.netSt k.val).quanta p.val = 0 then s
    else sendPort k.val p.val (setPstat k.val p.val 3 false
      (s.modNetSt k.val fun n => { n with quanta := put 0 n.quanta p.val 0 }))) s

/-! ### Ports (R680, R716) -/

/-- A port comes up, with what its partner advertises. -/
def netPortUp (k p : Nat) (pause : Bool) (s : State) : State :=
  if pstat s k p 0 then s
  else
    let s := setPstat k p 0 true (setPstat k p 1 (s.on (pgLanding k 0) NETL.NCTL_AN_EN) s)
    let s := setPstat k p 4 pause (setPstat k p 2 true s)
    pageEvent (pgLanding k 0) (onRoster (setPort k p true) s)

/-- NET_PORT_UP: a port's link comes up (R680). -/
def execNetPortUp (k : NetId) (p : Fin 2) (pause : Bool) (s : State) : Out :=
  ifLanding k.val (netPortUp k.val p.val pause) s

/-- A port goes down: LINK_DOWN is counted, and frames that wait for its line are discarded (R680, R700). -/
def netPortDown (k p : Nat) (s : State) : State :=
  if pstat s k p 0 then
    let s := (List.range 5).foldl (fun s i => setPstat k p i false s) (countPort k p 8 s)
    let s := s.modNetSt k fun n => { n with quanta := put 0 n.quanta p 0 }
    pageEvent (pgLanding k 0) (onRoster (setPort k p false) (sendPort k p s))
  else s

/-- NET_PORT_DOWN: a port goes down (R680). -/
def execNetPortDown (k : NetId) (p : Fin 2) (s : State) : Out := ifLanding k.val (netPortDown k.val p.val) s

/-! ### Crossing numbers of frames (R33, R309) and of halves (R689) -/

/-- FIRST_NO. -/
def firstNo (s : State) : Nat := s.get2 pgCseq CSEQ.FIRST_NO_LO_NO CSEQ.FIRST_NO_HI_NO
/-- A crossing number some crossings further on (R308). -/
def noPlus (a b : Nat) : Nat := (a + b) % 2 ^ 48

/-- The crossing that a frame accepted now belongs to. -/
def frameCrossing (s : State) : Nat :=
  if !s.m.x.everOpened then (if s.m.x.openReq then noPlus (firstNo s) 1 else firstNo s)
  else if cseqState s = 1 then noPlus (curNo s) 1 else noPlus (curNo s) 2

/-- The halves that may be released now: the first, and how many crossings follow it (R689). -/
def releasable (s : State) : Nat × Nat :=
  if !s.m.x.everOpened then (firstNo s, 1)
  else (noPlus (curNo s) 1, if cseqState s = 0 then 1 else 0)

/-- The crossing whose halves a landing releases next, if any. -/
def nextRelease (s : State) (k : Nat) : Option Nat :=
  let r := releasable s
  match (s.netSt k).released with
  | none => some r.1
  | some m =>
    if m = r.1 then if r.2 = 1 then some (noPlus m 1) else none
    else if m = noPlus r.1 1 then none
    else some r.1

/-! ### Flows and bays (R684, R685, R688) -/

/-- A field of flow entry j. -/
def flowGet (s : State) (k j : Nat) (F : Fld) : Nat := s.get (pgLanding k (0x010 + j / 126)) (F.at (j % 126))
/-- A field of bay entry j. -/
def bayGet (s : State) (k j : Nat) (F : Fld) : Nat := s.get (pgLanding k (0x008 + j / 1008)) (F.at (j % 1008))

/-- The valid flow entries of a landing, ascending. -/
def validFlows (s : State) (k : Nat) : List Nat :=
  s.live.filterMap fun e =>
    if clsOf e.1 = 2 ∧ fieldOf e.1 = k ∧ 16 ≤ pageNoOf e.1 ∧ pageNoOf e.1 < 32 ∧ 0x40 ≤ offOf e.1 ∧
        offOf e.1 % 32 = 4 ∧ e.2.getLsbD 31 then
      some ((pageNoOf e.1 - 16) * 126 + (offOf e.1 - 0x44) / 32)
    else none

/-- The valid bay entries of a landing, ascending. -/
def validBays (s : State) (k : Nat) : List Nat :=
  s.live.filterMap fun e =>
    if clsOf e.1 = 2 ∧ fieldOf e.1 = k ∧ (pageNoOf e.1 = 8 ∨ pageNoOf e.1 = 9) ∧ 0x40 ≤ offOf e.1 ∧ e.2.getLsbD 31 then
      some ((pageNoOf e.1 - 8) * 1008 + (offOf e.1 - 0x40) / 4)
    else none

/-- The flow that a frame with a key matches. -/
def flowFor (s : State) (k p vid dmac : Nat) : Option Nat :=
  (validFlows s k).find? fun j =>
    flowGet s k j NETLF.FLOW_PORT == p && flowGet s k j NETLF.FLOW_VID == vid &&
      flowGet s k j NETLF.FLOW_DMAC_LO + flowGet s k j NETLF.FLOW_DMAC_HI * 2 ^ 32 == dmac

/-- The bay of a tile at a landing. -/
def bayOf (s : State) (k lid : Nat) : Option Nat := (validBays s k).find? fun j => bayGet s k j NETLB.BAY_LID == lid

/-- Length of a half in bytes, and the DMEM address of half h of bay j. -/
def halfLength (s : State) (k j : Nat) : Nat := bayGet s k j NETLB.BAY_PAGES * 4096
def halfBase (s : State) (k j h : Nat) : Nat := bayGet s k j NETLB.BAY_BASE * 4096 + h * halfLength s k j

/-! ### Delivery (R689 to R692) -/

/-- The frame of a delivery write that failed is dropped, counted once (R692). -/
def bayLost (k : Nat) (frame : Option Nat) (s : State) : State :=
  match frame with
  | none => s
  | some q =>
    if (s.netSt k).lostSeqs.contains q then s
    else countLanding k 3 (s.modNetSt k fun n => { n with lostSeqs := n.lostSeqs ++ [q] })

/-- A request of a landing to a tile, by identifier; false where no tile holds it or no route exists. -/
def landingSend (k lid : Nat) (p : Pkt) (s : State) : State × Bool :=
  match tileOfLid s lid with
  | none => (s, false)
  | some d =>
    match routeFor s 63 k (d / 512) (d % 512) with
    | none => (s, false)
    | some r =>
      (forward { p with cls := r.1, path := r.2.chans, via := r.2.routers, srcField := 63, srcTile := k, dstField := d / 512, dstTile := d % 512 } s,
        true)

/-- A delivery write to a bay's tile. -/
def baySend (k j qos : Nat) (frame : Option Nat) (p : Pkt) (s : State) : State :=
  let q := landingSend k (bayGet s k j NETLB.BAY_LID) { p with qos := qos, unit := .bay frame } s
  if q.2 then q.1 else bayLost k frame q.1

/-- Bytes written to consecutive DMEM addresses of the bay's tile by BLOCK_WRITE, one aligned 256-byte block at a time. -/
def bayBlocks (k j qos : Nat) (frame : Option Nat) : Nat → Nat → List Byte → State → State
  | 0, _, _, s => s
  | n + 1, a, bs, s =>
    if bs = [] then s
    else
      let c := 256 - a % 256
      let p := { Pkt.blank with kind := 3, op := 2, addr := BitVec.ofNat 32 a, data := BitVec.ofNat 32 (min c bs.length)
                                flits := bs.take c }
      bayBlocks k j qos frame n (a + c) (bs.drop c) (baySend k j qos frame p s)

/-- A word written to the bay's tile by FAR_WRITE. -/
def bayWord (k j qos : Nat) (frame : Option Nat) (a : Nat) (v : Nat) (s : State) : State :=
  baySend k j qos frame { Pkt.blank with kind := 1, op := 2, addr := BitVec.ofNat 32 a, data := BitVec.ofNat 32 v } s

/-- What a landing has written into half h of bay j. -/
def bayAt (s : State) (k j h : Nat) : Bay := lookup ⟨0, 0, 1⟩ (s.netSt k).bays (2 * j + h)
def setBay (k j h : Nat) (b : Bay) (s : State) : State :=
  s.modNetSt k fun n => { n with bays := put ⟨0, 0, 1⟩ n.bays (2 * j + h) b }

/-- The header of a half with COUNT 0 and NEXT 1 (R689, R690). -/
def bayHeader (k m j : Nat) (s : State) : State :=
  let h := m % 2
  let bs := le 0 4 ++ le 1 4 ++ le m 8
  bayBlocks k j 0 none 2 (halfBase s k j h) bs (setBay k j h ⟨0, 0, 1⟩ s)

/-- Words 0 and 1 of a half's header (R690). -/
def bayCounts (k j h qos : Nat) (frame : Option Nat) (s : State) : State :=
  let b := bayAt s k j h
  let a := halfBase s k j h
  bayWord k j qos frame (a + 4) b.next (bayWord k j qos frame a (b.count + b.dropped % 65536 * 65536) s)

/-- A record: its header and its frame, padded (R690). -/
def recordBytes (k : Nat) (f : HeldFrame) : List Byte :=
  le (f.bytes.length + f.port * 65536 + k * 2 ^ 24) 4 ++ le f.seq 4 ++ List.replicate 8 0 ++ pad16 f.bytes

/-- A held frame written into its bay, or dropped where the half has no room (R691). -/
def deliverFrame (k : Nat) (s : State) (f : HeldFrame) : State :=
  let qos := flowGet s k f.flow NETLF.FLOW_QOS
  match bayOf s k (flowGet s k f.flow NETLF.FLOW_DEST) with
  | none => bayLost k (some f.seq) s
  | some j =>
    let h := f.crossing % 2
    let b := bayAt s k j h
    let r := recordBytes k f
    if b.count = 65535 ∨ halfLength s k j < b.next * 16 + r.length then
      bayCounts k j h qos none (countLanding k 1 (setBay k j h { b with dropped := min (b.dropped + 1) 65535 } s))
    else
      let s := bayBlocks k j qos (some f.seq) 8 (halfBase s k j h + b.next * 16) r s
      bayCounts k j h qos none (setBay k j h ⟨b.count + 1, b.dropped, b.next + r.length / 16⟩ s)

/-- The frames of released crossings leave the hold buffer in order of acceptance. -/
def deliverHeld (k : Nat) (s : State) : State :=
  let n := s.netSt k
  let due := fun (f : HeldFrame) => match n.released with
    | some m => f.crossing == m || noPlus f.crossing 1 == m
    | none => false
  pauseCheck k ((n.hold.filter due).foldl (deliverFrame k) (s.setNetSt k { n with hold := n.hold.filter fun f => !due f }))

/-- The halves of a crossing released: their headers, then the frames held for it (R689). -/
def bayRelease (k : Nat) (s : State) : State :=
  match nextRelease s k with
  | none => s
  | some m =>
    let s := (validBays s k).foldl (fun s j => bayHeader k m j s) s
    deliverHeld k (s.modNetSt k fun n => { n with released := some m, lostSeqs := [] })

/-- BAY_RELEASE: the landing writes the headers and the held frames of the next crossing whose halves are free (R689). -/
def execBayRelease (k : NetId) (s : State) : Out := ifLanding k.val (bayRelease k.val) s

/-! ### Frames received (R681 to R687, R694) -/

/-- CRC-32 of IEEE 802.3. -/
def crc32 (bs : List Byte) : Word := bs.foldl (fun c b => crcByte 1 0 0 c (b.setWidth 32)) 0xFFFFFFFF ^^^ 0xFFFFFFFF

/-- A number from bytes, the first transmitted highest. -/
def beNat (bs : List Byte) : Nat := bs.foldl (fun n b => n * 256 + b.toNat) 0

/-- Byte i of a frame. -/
def byteAt (bs : List Byte) (i : Nat) : Nat := (bs.getD i 0).toNat

/-- The frame meets R681: its length and its FCS. -/
def frameGood (bs : List Byte) : Bool :=
  decide (64 ≤ bs.length) && decide (bs.length ≤ 1522) &&
    bs.drop (bs.length - 4) == le (crc32 (bs.take (bs.length - 4))).toNat 4

/-- VID of a frame (R681). -/
def vidOf (bs : List Byte) : Nat :=
  if byteAt bs 12 = 0x81 ∧ byteAt bs 13 = 0 then (byteAt bs 14 * 256 + byteAt bs 15) % 4096 else 0

/-- A flow whose frames are dropped: its berth is suspended or a replay berth, or its destination is a tile of a replay berth (R344,
R350, R687); the slots are those that the next opening latches. -/
def flowBarred (s : State) (k j : Nat) : Bool :=
  let b := flowGet s k j NETLF.FLOW_BERTH
  s.m.x.suspended.contains b || berthGet s b BERTH.DESC_REPLAY == 1 ||
    (liveSlots s).any fun l => l.replay && l.holds (flowGet s k j NETLF.FLOW_DEST)

/-- An accepted frame classified and held (R684, R687, R690, R694). -/
def classify (k p : Nat) (bs : List Byte) (s : State) : State :=
  let s := countPort k p 0 s
  match flowFor s k p (vidOf bs) (beNat (bs.take 6)) with
  | none => countPort k p 2 s
  | some j =>
    if flowBarred s k j then countLanding k 2 s
    else
      let n := s.netSt k
      let body := bs.take (bs.length - 4)
      if 4194304 < holdBytes n + body.length then countLanding k 0 s
      else
        let m := frameCrossing s
        let q := lookup 0 n.seqs m
        deliverHeld k (s.setNetSt k { n with seqs := put 0 n.seqs m (q + 1), hold := n.hold ++ [⟨m, j, p, q, body⟩] })

/-- The FEC codewords that a frame's arrival closes: those corrected and those past correction (R681, R713). -/
def countFec (k p corr uncorr : Nat) (s : State) : State :=
  countPort k p 7 (countPort k p 6 s corr) uncorr

/-- A frame received by a port. -/
def netFrameRx (k p : Nat) (bs : List Byte) (corr uncorr : Nat) (s : State) : State :=
  if !pstat s k p 0 then s
  else
    let s := countFec k p corr uncorr s
    if uncorr ≠ 0 ∨ frameGood bs = false then countPort k p 1 s
    else if byteAt bs 12 = 0x88 ∧ byteAt bs 13 = 0x08 then
      macControl k p (byteAt bs 14 * 256 + byteAt bs 15) (byteAt bs 16 * 256 + byteAt bs 17) s
    else classify k p bs s

/-- NET_FRAME_RX: a frame, FCS included, arrives at a port (R681, R684). -/
def execNetFrameRx (k : NetId) (p : Fin 2) (frame : List Byte) (corr : Nat) (s : State) (uncorr : Nat := 0) : Out :=
  ifLanding k.val (netFrameRx k.val p.val frame corr uncorr) s

/-! ### Egress (R696 to R700) -/

/-- What a berth-world frame is sent with in front (R697). -/
def egressHead (s : State) (k j : Nat) : List Byte :=
  let p := flowGet s k j NETLF.FLOW_PORT
  macBytes (flowGet s k j NETLF.FLOW_RDMAC_LO + flowGet s k j NETLF.FLOW_RDMAC_HI * 2 ^ 32) ++ macBytes (pmac s k p) ++
    (if flowGet s k j NETLF.FLOW_RTAG = 1 then
      [0x81, 0x00] ++ (bytesOf (flowGet s k j NETLF.FLOW_RVID) 2).reverse else [])

/-- A whole frame judged: refused for a reason of R698, for a full buffer, or accepted. -/
inductive Egress
  | refused | full
  | accepted (f : EgFrame)
deriving DecidableEq, Repr

/-- The judgement of a frame that has arrived (R698). -/
def judgeEgress (s : State) (k : Nat) (berth : Bool) (part : EgPart) : Egress :=
  let h := part.handle
  let j := h % 2048
  let lid := lidOf s (part.src / 512) (part.src % 512)
  let n := part.bytes.length
  let dest := flowGet s k j NETLF.FLOW_DEST
  let inSpan := match lid with
    | some l => decide (dest ≤ l) && decide (l ≤ dest + flowGet s k j NETLF.FLOW_SPAN)
    | none => false
  if bits h 11 1 ≠ 0 ∨ 65536 ≤ h ∨ h / 4096 ≠ k ∨ 2016 ≤ j ∨ flowGet s k j NETLF.FLOW_VALID ≠ 1 ∨ n ≠ part.length then
    .refused
  else if berth ∧ (n < 2 ∨ 1502 < n ∨ !inSpan) then .refused
  else if !berth ∧ (n < 14 ∨ 1518 < n) then .refused
  else
    let bs := pad60 (if berth then egressHead s k j ++ part.bytes else part.bytes)
    if 8388608 < egressBytes (s.netSt k) + bs.length then .full
    else .accepted ⟨lid, berth, flowGet s k j NETLF.FLOW_PORT, bs⟩

/-- An EGRESS packet that a net landing takes: true when it answers ACK, false for ERROR. A packet with offset 0 begins a
frame, and one that does not follow the frame of its source so far drops it. -/
def egressPacket (k : Nat) (p : Pkt) (s : State) : State × Bool :=
  let n := s.netSt k
  let src := tileKey p.srcField p.srcTile
  let len := p.data.toNat % 65536
  let off := p.data.toNat / 65536
  let others := n.parts.filter fun q => q.src != src
  let mine := n.parts.find? fun q => q.src == src
  let cur := if off = 0 then some ⟨src, p.addr.toNat, len, []⟩
    else mine.bind fun q =>
      if q.handle = p.addr.toNat ∧ q.length = len ∧ q.bytes.length = off * 16 then some q else none
  match cur with
  | none => (countLanding k 4 (s.setNetSt k { n with parts := others }), false)
  | some q =>
    let q := { q with bytes := q.bytes ++ p.flits }
    if q.bytes.length < len then (s.setNetSt k { n with parts := others ++ [q] }, true)
    else
      let s := s.setNetSt k { n with parts := others }
      match judgeEgress s k p.world q with
      | .refused => (countLanding k 4 s, false)
      | .full => (countLanding k 5 s, false)
      | .accepted f => (s.modNetSt k fun n => { n with egress := n.egress ++ [f] }, true)

/-- EGRESS packets at a landing: a store landing refuses them (R698). -/
def egressArrives (i : Nat) (s : State) : State :=
  match arrived 6 i s with
  | none => s
  | some p =>
    let s := consume i p s
    let q := if p.dstField = 63 ∧ p.dstTile < 8 then egressPacket p.dstTile p s else (s, false)
    answer p (if q.2 then 9 else 11) 0 [] q.1

/-- EGRESS: a packet of an outbound frame reaches its landing (R698). -/
def execEgress (i : Nat) (s : State) : Out := .next (egressArrives i s)

/-- An escalation on its way names a tile of a berth as a party to a lost packet: the berth is damaged already (R339, R340). -/
def lossPending (s : State) (l : Latched) : Bool :=
  s.m.x.escs.any fun e => match e with
    | .linkBroken _ _ _ _ parties => parties.any l.holds
    | _ => false

/-- The frames of an identifier are withheld: its berth is damaged or ends OVERRUN, STALLED, FAULTED or SUSPENDED (R39, R318,
R330). -/
def withheld (s : State) (lid : Option Nat) : Bool :=
  match lid.bind (berthOfLid s) with
  | some b => lossPending s b.slot || b.damaged || b.faulted || b.overrun || b.stalled || b.tileLost || b.endSuspended
  | none => false

/-- A landing's frames released at the edge on which stage 4 became empty (R318). -/
def releaseEgress (s : State) (k : Nat) : State :=
  let n := s.netSt k
  let go := n.egress.filter fun g => !withheld s g.lid
  let s := s.setNetSt k { n with egress := [], sending := n.sending ++ go, since := some s.m.wtime }
  sendPort k 1 (sendPort k 0 s)

/-- A port's frames discarded after EGRESS_TIMEOUT ms from that edge; WTIME runs to the timeout (R700). -/
def egressTimeout (k p : Nat) (s : State) : State :=
  let n := s.netSt k
  let mine := (n.sending.filter fun g => g.port == p).length
  match n.since with
  | some w =>
    if mine = 0 then s
    else
      let s := s.atTime (max s.m.wtime (w + s.get (pgLanding k 0) NETL.NCTL_EGRESS_TIMEOUT * 1200000))
      setError (pgLanding k 0) 16 (countPort k p 5
        (s.modNetSt k fun n => { n with sending := n.sending.filter fun g => g.port != p }) mine)
  | none => s

/-- EGRESS_TIMEOUT: a port has held frames for too long (R700). -/
def execEgressTimeout (k : NetId) (p : Fin 2) (s : State) : Out := ifLanding k.val (egressTimeout k.val p.val) s

end Sys2Proof.Machine
end

