-- ==== Sys2Proof/Machine/Staging.lean ====
section
/-! DEFINITION. Staging of RW-S fields: shadows, discards and the application of a page (R236 to R244, R259), and halts (R231,
R538 to R540, R563, R564). -/
namespace Sys2Proof.Machine
open Sys2Proof

/-! ### Shadows -/

/-- The bits of the word at an address that are RW-S. -/
def stageMask (a : Nat) : Word :=
  match storeKind a with
  | some k => attrMask k (offOf a) .rwS
  | none => 0

/-- The addresses of a page whose live or shadow word is listed. -/
def pageWords (s : State) (p : Nat) : List Nat :=
  let own := fun (m : List (Nat × Word)) => (m.filter fun e => pageOf e.1 == p).map Prod.fst
  own s.live ++ (own s.shadow).filter fun a => !(own s.live).contains a

/-- A word with the bits of a mask taken from another. -/
def overlay (m new old : Word) : Word := (new &&& m) ||| (old &&& ~~~m)

/-- The live word as its page would hold it after a hoist. -/
def stagedWord (s : State) (a : Nat) : Word := overlay (stageMask a) (s.shadowWord a) (s.word a)

/-- The shadow of a word follows its live value (R236, R238). -/
def followLive (s : State) (a : Nat) : State :=
  if stageMask a = 0 then s else s.setShadow a (overlay (stageMask a) (s.word a) (resetWord a))

/-- Every shadow value of a page made live (R259 step 3). -/
def makeLive (p : Nat) (s : State) : State :=
  (pageWords s p).foldl (fun t a => if stageMask a = 0 then t else t.setWord a (stagedWord s a)) s

/-- A page applied by a hoist (R259 step 3). -/
def applyPage (p : Nat) (s : State) : State :=
  (((makeLive p s).set p HDR.STAGE_STATUS_DIRTY 0).set p HDR.STAGE_STATUS_LOCKED 0).bump p HDR.PAGE_GENERATION_GEN

/-- A DISCARD (R238). -/
def discardPage (p : Nat) (s : State) : State :=
  ((((pageWords s p).foldl followLive s).set p HDR.STAGE_STATUS_DIRTY 0).set p HDR.STAGE_STATUS_VERDICT 0).set p
    HDR.STAGE_STATUS_FIRST_RULE 0

/-- A DISCARD as a command: a locked page ignores it (R238, R244). -/
def discard (p : Nat) (s : State) : State :=
  if s.on p HDR.STAGE_STATUS_LOCKED then setError p 2 s else discardPage p s

/-- DISCARD: a write of 1 to STAGE_CONTROL.DISCARD (R238). -/
def execDiscard (page : BitVec 40) (s : State) : Out :=
  let p := pageOf page.toNat
  .next (if s.power.standby && (standbyPage p || awake s) && reachable s p then discard p s else s)

/-! ### Halts -/

/-- The rig has nothing that keeps it from its next bundle's boundary (R538). -/
def atBoundary (s : State) (k : Nat) : Bool :=
  !waits s k (bundleOf (nextBundle s k)) && !budgetSpent s k && !cxdoneWaits s k

/-- HALT_REQ of a rig written with 1: a rig that does not run is at its halt point at once (R538, R540; of a rig stopped by
an overrun or the drain limit DESIGN CHOICE, log 68). -/
def haltRig (k : Nat) (s : State) : State :=
  let s := s.set (p0 k) HDR.PAGE_CONTROL_HALT_REQ 1
  if (s.rig k).run = .running then s else s.set (p0 k) HDR.PAGE_STATUS_HALTED 1

/-- HALT_REQ of a rig written with 0: it resumes, or starts if an opening has left it held; a rig never opened, or in
escalated stop, stays halted (R231, R534, R539, R540). -/
def releaseRig (k : Nat) (s : State) : State :=
  let s := s.set (p0 k) HDR.PAGE_CONTROL_HALT_REQ 0
  let r := s.rig k
  if r.run = .fresh ∨ r.run = .escalated then s
  else (s.setRig k { r with startHeld := false }).set (p0 k) HDR.PAGE_STATUS_HALTED 0

/-- A write of HALT_REQ to a page whose block has a halt point: the rig's or the tile matrix's (R227, R231); a matrix released serves
the writes of IFS and IFL that wait for it (R563). -/
def haltReq (p : Nat) (request : Bool) (s : State) : State :=
  match kindOf p with
  | some .tile0 =>
    let k := tileKey (fieldOf p) (tileOf p)
    if request then haltRig k s else releaseRig k s
  | some .tile1 =>
    let k := tileKey (fieldOf p) (tileOf p)
    let s := s.set p HDR.PAGE_CONTROL_HALT_REQ (bit request)
    if request then s else drainIf k (ifWaits s k).length (s.set p HDR.PAGE_STATUS_HALTED 0)
  | _ => s

/-- HALT_REQ: PAGE_CONTROL.HALT_REQ is written (R231). -/
def execHaltReq (page : BitVec 40) (request : Bool) (s : State) : Out :=
  ifReach (pageOf page.toNat) (haltReq (pageOf page.toNat) request) s

/-- A block with a halt requested reaches its halt point: the rig at its next bundle's boundary, the tile matrix when no burst
holds a path (R231, R538, R563). -/
def haltPoint (p : Nat) (s : State) : State :=
  if !s.on p HDR.PAGE_CONTROL_HALT_REQ then s
  else match kindOf p with
  | some .tile0 =>
    let k := tileKey (fieldOf p) (tileOf p)
    if (s.rig k).run = .running ∧ !atBoundary s k then s else s.set p HDR.PAGE_STATUS_HALTED 1
  | some .tile1 => s.set p HDR.PAGE_STATUS_HALTED 1
  | _ => s

/-- HALT_POINT_REACHED (R231). -/
def execHaltPointReached (page : BitVec 40) (s : State) : Out :=
  ifReach (pageOf page.toNat) (haltPoint (pageOf page.toNat)) s

end Sys2Proof.Machine
end

