-- ==== Sys2Proof/Machine/Checker.lean ====
section
/-! DEFINITION. The consistency checker's rules (R246 to R249): CSEQ (R312), berths (R42, R324), landings (R686, R688, R713 to
R715), Hawser (R649, R650, R661, R662, R677), tiles (R316, R546, R580, R601, R719). -/
namespace Sys2Proof.Machine
open Sys2Proof

/-- An offence against a page: the offset of its first register, its rule code and its DETAIL. -/
structure Offence where
  off : Nat
  rule : Nat
  detail : Nat := 0
deriving DecidableEq, Repr

/-- An offence where a condition holds. -/
def offend (b : Bool) (off rule : Nat) (detail : Nat := 0) : List Offence := if b then [⟨off, rule, detail⟩] else []

/-- A value outside a range. -/
def outside (lo hi v : Nat) : Bool := decide (v < lo) || decide (hi < v)

/-- Two ranges of numbers, each by its first and its length, share a number. -/
def overlaps (a n b m : Nat) : Bool := decide (a < b + m) && decide (b < a + n)

/-! ### The crossing sequencer and berths -/

/-- CSEQ (R312). -/
def cseqOffences (s : State) : List Offence :=
  offend (outside 1200000 72000000000 (s.get2 pgCseq CSEQ.CROSS_LEN_LO_LEN CSEQ.CROSS_LEN_HI_LEN)) 0x048 0x07 ++
  offend (outside 12000 1200000000 (s.get pgCseq CSEQ.DRAIN_LIMIT_CYCLES)) 0x050 0x02 ++
  offend (s.get pgCseq CSEQ.RECROSS_LIMIT_LIMIT == 0) 0x054 0x01

/-- The identifiers of a berth's tiles. -/
def Latched.lids (l : Latched) : List Nat := (List.range l.count).map (l.base + ·)

/-- A keeper tile in use holds the identifier: a tile in use that belongs to no berth (R42). -/
def isKeeper (s : State) (slots : List Latched) (lid : Nat) : Bool :=
  (tileOfLid s lid).isSome && !slots.any (·.holds lid)

/-- Pages of a berth's holder area (R336). -/
def Latched.area (l : Latched) : Nat := l.count * l.snapPages

/-- One used slot (R324, R350): a replay berth ignores HOLDER. The register that an entry names where an offence spans several, and
its DETAIL where several others overlap, are DESIGN CHOICE (log 52). -/
def slotOffences (s : State) (slots : List Latched) (l : Latched) : List Offence :=
  let off := 0x40 + 64 * (l.berth % 48)
  let others := slots.filter fun o => o.berth != l.berth
  let shared := others.find? fun o => overlaps l.base l.count o.base o.count
  offend shared.isSome off 0x05 ((shared.map Latched.berth).getD 0) ++
  offend (decide (16 < l.count)) off 0x05 ++
  offend (l.lids.any fun i => match tileOfLid s i with | some k => !isSplit s k | none => false) off 0x06 ++
  offend (l.lids.any fun i => (tileOfLid s i).isNone) off 0x02 ++
  offend (l.budget == 0) (off + 0x04) 0x02 ++
  offend (!l.replay && !isKeeper s slots l.holder) (off + 0x0C) 0x02 ++
  offend (!l.replay && others.any fun o => !o.replay && o.holder == l.holder &&
    overlaps l.holdBase l.area o.holdBase o.area) (off + 0x0C) 0x02 ++
  offend (decide (64 < l.snapBase + l.snapPages) || decide (64 < l.holdBase + l.area) || outside 1 32 l.snapPages)
    (off + 0x10) 0x02 ++
  offend (!isKeeper s slots l.sink) (off + 0x1C) 0x02

/-- A BERTH page. -/
def berthOffences (s : State) (p : Nat) : List Offence :=
  let slots := liveSlots s
  (slots.filter fun l => l.berth / 48 + 8 == pageNoOf p).flatMap (slotOffences s slots)

/-! ### Landings -/

/-- The valid bay entries of every net landing, as landing and entry. -/
def allBays (s : State) : List (Nat × Nat) := (List.range 8).flatMap fun k => (validBays s k).map fun j => (k, j)

/-- One valid bay entry (R686, R688). -/
def bayOffences (s : State) (k j : Nat) : List Offence :=
  let off := 0x40 + 4 * (j % 1008)
  let lid := bayGet s k j NETLB.BAY_LID
  let base := bayGet s k j NETLB.BAY_BASE
  let n := 2 * bayGet s k j NETLB.BAY_PAGES
  let post := match tileOfLid s lid with
    | some t => overlaps base n (s.get (p0 t) TP0.POST_BAY_BASE) (2 * s.get (p0 t) TP0.POST_BAY_PAGES)
    | none => false
  offend ((allBays s).any fun b => b.1 != k && bayGet s b.1 b.2 NETLB.BAY_LID == lid) off 0x02 ++
  offend (decide (64 < base + n) || outside 1 16 (n / 2)) off 0x02 ++
  offend (post || (liveSlots s).any fun l => l.holds lid && overlaps base n l.snapBase l.snapPages) off 0x02

/-- The key of a flow entry (R684). -/
def flowKey (s : State) (k j : Nat) : Nat × Nat × Nat :=
  (flowGet s k j NETLF.FLOW_PORT, flowGet s k j NETLF.FLOW_VID,
    flowGet s k j NETLF.FLOW_DMAC_LO + flowGet s k j NETLF.FLOW_DMAC_HI * 2 ^ 32)

/-- One valid flow entry (R686). -/
def flowOffences (s : State) (k j : Nat) : List Offence :=
  let off := 0x40 + 32 * (j % 126)
  offend ((validFlows s k).any fun i => i != j && flowKey s k i == flowKey s k j) off 0x02 ++
  offend (bayOf s k (flowGet s k j NETLF.FLOW_DEST)).isNone (off + 8) 0x02

/-- A flow entry whose BERTH is out of range, valid or not (R686). -/
def flowBerthOffences (s : State) (k j : Nat) : List Offence :=
  offend (decide (24191 < flowGet s k j NETLF.FLOW_BERTH)) (0x40 + 32 * (j % 126) + 8) 0x02

/-! ### Tiles -/

/-- The role of a tile does not fit its PMODE (R42). -/
def roleWrong (s : State) (k : Nat) : Bool :=
  match lidOf s (k / 512) (k % 512) with
  | some lid => tileInUse s (k / 512) (k % 512) && (liveSlots s).any (·.holds lid) != isSplit s k
  | none => false

/-- The enabled regions of a tile. -/
def regions (s : State) (k : Nat) : List Nat := (List.range 8).filter fun i => s.on (p0 k) (TP0.REGION_B_EN.at i)

def regionStart (s : State) (k i : Nat) : Nat := s.get (p0 k) (TP0.REGION_A_START.at i)
def regionEnd (s : State) (k i : Nat) : Nat := s.get (p0 k) (TP0.REGION_A_END.at i)

/-- One enabled region (R719). -/
def regionOffences (s : State) (k i : Nat) : List Offence :=
  offend ((regions s k).any fun j => j != i && decide (regionStart s k i ≤ regionEnd s k j) &&
    decide (regionStart s k j ≤ regionEnd s k i) && decide (regionStart s k i ≤ regionEnd s k i) &&
    decide (regionStart s k j ≤ regionEnd s k j)) (0x240 + 8 * i) 0x08 ++
  offend (decide (regionEnd s k i < regionStart s k i)) (0x240 + 8 * i) 0x02 ++
  offend (decide (15 < s.get (p0 k) (TP0.REGION_B_H.at i))) (0x244 + 8 * i) 0x08

/-- Tile page 0 (R42, R316, R719). -/
def tile0Offences (s : State) (k : Nat) : List Offence :=
  let n := s.get (p0 k) TP0.POST_BAY_PAGES
  offend (roleWrong s k) 0x100 0x06 ++ offend (n != 0 && outside 3 16 n) 0x21C 0x02 ++
    (regions s k).flatMap (regionOffences s k)

/-- The share of master m on target t in a configuration. -/
def shareAt (s : State) (k m t : Nat) : Nat :=
  let F := match m with
    | 0 => TP1.GUAR_LO_M0 | 1 => TP1.GUAR_LO_M1 | 2 => TP1.GUAR_LO_M2 | 3 => TP1.GUAR_LO_M3 | _ => TP1.GUAR_HI_M4
  s.get (pgTk k 1) (F.at t)

/-- The shares of one target (R580). -/
def targetOffences (s : State) (k t : Nat) : List Offence :=
  let sh := (List.range 5).map fun m => shareAt s k m t
  let bad := fun (x : Nat) => decide (100 < x) ||
    (x != 0 && decide (t < 8) && !bitAt (s.get (p0 k) TP0.BANK_STATUS_IN_SERVICE) t)
  offend (decide (100 < total sh)) (0x300 + 8 * t) 0x03 t ++
  offend ((sh.take 4).any bad) (0x300 + 8 * t) 0x02 ++ offend (bad (sh.getD 4 0)) (0x304 + 8 * t) 0x02

/-- A master has a path to a target (R556). -/
def hasPath (m t : Nat) : Bool := bitAt (pathBits m) t

/-- PARK of one target (R580). -/
def parkOffences (s : State) (k t : Nat) : List Offence :=
  let v := if t < 8 then bits (s.get (pgTk k 1) TP1.PARK_LO) (4 * t) 3
    else bits (s.get (pgTk k 1) TP1.PARK_HI) (4 * (t - 8)) 3
  offend (!hasPath v t) (if t < 8 then 0x070 else 0x074) 0x02

/-- The enabled windows of a tile; the base and the size of one. -/
def windows (s : State) (k : Nat) : List Nat := (List.range 8).filter fun n => s.on (pgTk k 1) (TP1.WIN_CTRL_EN.at n)
def windowBase (s : State) (k n : Nat) : Nat := s.get (pgTk k 1) (TP1.WIN_BASE_BASE.at n) * 4096
def windowSize (s : State) (k n : Nat) : Nat := 2 ^ s.get (pgTk k 1) (TP1.WIN_CTRL_SIZE.at n)

/-- One enabled window (R580). -/
def windowOffences (s : State) (k n : Nat) : List Offence :=
  let p := pgTk k 1
  let b := windowBase s k n
  let kind := s.get p (TP1.WIN_CTRL_KIND.at n)
  let hit := (windows s k).find? fun m => decide (n < m) &&
    overlaps b (windowSize s k n) (windowBase s k m) (windowSize s k m)
  offend hit.isSome (0x100 + 16 * n) 0x04 (hit.getD 0) ++
  offend (b % windowSize s k n != 0 || decide (b < 0x40000)) (0x100 + 16 * n) 0x02 ++
  offend (decide (2 ≤ kind)) (0x104 + 16 * n) 0x01 ++
  offend (decide (s.get p (TP1.WIN_CTRL_SIZE.at n) < 12)) (0x104 + 16 * n) 0x02 ++
  offend (kind == 1 && (tileOfLid s (s.get p (TP1.WIN_TILE_TILE.at n))).isNone) (0x10C + 16 * n) 0x09

/-- Tile page 1 (R580). -/
def tile1Offences (s : State) (k : Nat) : List Offence :=
  (List.range 11).flatMap (parkOffences s k) ++ (windows s k).flatMap (windowOffences s k) ++
    (List.range 11).flatMap (targetOffences s k)

/-- Tile page 2: an identifier that two tiles in use hold (R601), and the tile's role. -/
def tile2Offences (s : State) (k : Nat) : List Offence :=
  let m := lidMap s
  let twice := m.any fun a => a.2 == k && m.any fun b => b.2 != k && b.1 == a.1
  offend twice 0x800 0x02 ++ offend (roleWrong s k) 0x800 0x06

/-- One enabled gate descriptor of a tile in gated mode (R546). -/
def gateOffends (s : State) (k i : Nat) : Bool :=
  let p := p3 k
  let e := s.get p (TP3.GATE_ENTRY.at i)
  s.on p (TP3.GATE_EN.at i) &&
    ((List.range (s.get p (TP3.GATE_TARGET.at i) + 1)).any (fun l => bitAt (s.get p (TP3.GATE_ALLOW.at i)) l) ||
      !(regions s k).any fun r => decide (regionStart s k r ≤ e) && decide (e ≤ regionEnd s k r))

/-- Tile page 3 (R546). -/
def tile3Offences (s : State) (k : Nat) : List Offence :=
  if isSplit s k then [] else (List.range 64).flatMap fun i => offend (gateOffends s k i) (0x400 + 16 * i) 0x0A

/-! ### Channel ends -/

/-- A HAWS page of an end that exists (R649, R650, R661, R662). -/
def hawsOffences (s : State) (f e : Nat) : List Offence :=
  let p := pgHaws f e
  let x := s.get p HAWS.XOFF_THRESH_BYTES
  if !endExists f e then []
  else
    offend (outside 1200 1200000 (s.get p HAWS.ACK_TIMEOUT_CYCLES)) 0x058 0x02 ++
    offend (outside 12000 120000000 (s.get p HAWS.CREDIT_TIMEOUT_CYCLES)) 0x05C 0x02 ++
    offend (x % 16 != 0 || outside (if isStay f e then 2560 else 1536) 8192 x) 0x060 0x02 ++
    offend (s.get p HAWS.REPLAY_LIMIT_COUNT == 0) 0x064 0x02

/-! ### A page, in the order of R248 -/

/-- The offences that a page takes part in. -/
def rawOffences (s : State) (p : Nat) : List Offence :=
  let f := fieldOf p; let k := tileKey f (tileOf p); let n := pageNoOf p
  match kindOf p with
  | some .cseq => cseqOffences s
  | some .berth => berthOffences s p
  | some .netl => offend (outside 1 10000 (s.get p NETL.NCTL_EGRESS_TIMEOUT)) 0x040 0x02
  | some .netlBay => ((validBays s f).filter fun j => j / 1008 + 8 == n).flatMap (bayOffences s f)
  | some .netlFlow =>
    ((validFlows s f).filter fun j => j / 126 + 16 == n).flatMap (flowOffences s f) ++
      (List.range 126).flatMap fun i => flowBerthOffences s f ((n - 16) * 126 + i)
  | some .strl => offend (outside 10 60000 (s.get p STRL.SCTL_XFER_TIMEOUT)) 0x040 0x02
  | some .haws => hawsOffences s f (n - 0x080)
  | some .tile0 => tile0Offences s k
  | some .tile1 => tile1Offences s k
  | some .tile2 => tile2Offences s k
  | some .tile3 => tile3Offences s k
  | _ => []

/-- An offence put in its place: by offset, then by rule. -/
def insertOffence (o : Offence) : List Offence → List Offence
  | [] => [o]
  | x :: r => if o.off < x.off ∨ (o.off = x.off ∧ o.rule ≤ x.rule) then o :: x :: r else x :: insertOffence o r

/-- The offences with each rule once, at its first register (R248). -/
def firstOfRule : List Nat → List Offence → List Offence
  | _, [] => []
  | seen, o :: r => if seen.contains o.rule then firstOfRule seen r else o :: firstOfRule (o.rule :: seen) r

/-- The offences of a page in the order of R248. -/
def pageOffences (s : State) (p : Nat) : List Offence := firstOfRule [] ((rawOffences s p).foldr insertOffence [])

/-- A FIFO entry (R249). -/
def fifoEntry (p : Nat) (o : Offence) : BitVec 64 := BitVec.ofNat 64 (o.rule * 2 ^ 56 + o.detail * 2 ^ 40 + (p + o.off))

/-- The entries of a check of a set, over the configuration that the hoist would produce (R246, R248). -/
def checkEntries (set : List Nat) (s : State) : List (BitVec 64) :=
  let t := set.foldl (fun t p => makeLive p t) s
  set.flatMap fun p => (pageOffences t p).map (fifoEntry p)

end Sys2Proof.Machine
end

