-- ==== Sys2Proof/Machine/Control.lean ====
section
/-! DEFINITION. The rows of the CU and of FRY (R440 to R445, R479 to R510, R532, R543 to R550): the tile issues its next
bundle when that bundle holds the row's trigger. -/
namespace Sys2Proof.Machine
open Sys2Proof

/-- CU jmp (R379, R479). -/
def execJmp (f : FieldId) (t : TileId) (s : State) : Out := unitRow (· == .jmp) f t s
/-- CU call: a jump that writes LNK (R380). -/
def execCall (f : FieldId) (t : TileId) (s : State) : Out := unitRow (· == .call) f t s
/-- CU ret: a jump to LNK (R479). -/
def execRet (f : FieldId) (t : TileId) (s : State) : Out := unitRow (· == .ret) f t s
/-- CU dbnz: LC counts down, and the transfer is taken while it is not 0 (R483, R484). -/
def execDbnz (f : FieldId) (t : TileId) (s : State) : Out := unitRow (· == .dbnz) f t s
/-- CU rpt: a repeat that holds events (R485, R491). -/
def execRpt (f : FieldId) (t : TileId) (s : State) : Out := unitRow (· == .rpt) f t s
/-- CU rpti: a repeat between whose iterations events are taken (R485, R490). -/
def execRpti (f : FieldId) (t : TileId) (s : State) : Out := unitRow (· == .rpti) f t s
/-- CU trap: a transfer into the handler (R499). -/
def execTrap (f : FieldId) (t : TileId) (s : State) : Out := unitRow (· == .trap) f t s
/-- CU gwcall (R503, R504). -/
def execGwcall (f : FieldId) (t : TileId) (s : State) : Out := unitRow (· == .gwcall) f t s
/-- CU gwret (R505). -/
def execGwret (f : FieldId) (t : TileId) (s : State) : Out := unitRow (· == .gwret) f t s
/-- CU slip (R548 to R550). -/
def execSlip (f : FieldId) (t : TileId) (s : State) : Out := unitRow (· == .slip) f t s
/-- CU eret (R532, R554). -/
def execEret (f : FieldId) (t : TileId) (s : State) : Out := unitRow (· == .eret) f t s
/-- A CU compare (R441). -/
def execCompare (f : FieldId) (t : TileId) (s : State) : Out :=
  unitRow (fun d => match d with | .compare _ _ => true | _ => false) f t s
/-- FRY kick: a descriptor queued with the current world and level (R443, R445). -/
def execKick (f : FieldId) (t : TileId) (s : State) : Out := unitRow (· == .kick) f t s

/-- The next bundle triggers gate, with an operand that names a return (64) or does not (R543). -/
def gateNext (s : State) (k : Nat) (ret : Bool) : Bool :=
  match triggerOf s k (bundleOf (nextBundle s k)) .cu with
  | some (.gate, t) => (t.toNat == 64) == ret
  | _ => false

/-- The tile issues its next bundle when it holds the gate trigger with such an operand. -/
def gateRow (ret : Bool) (k : Nat) (s : State) : State := issueWhere (fun t => gateNext t k ret) k s

/-- CU gate with an operand of 0 to 63: a gate call (R544). -/
def execGateCall (f : FieldId) (t : TileId) (s : State) : Out := .next (gateRow false (tileKey f.val t.val) s)
/-- CU gate with operand 64: a gate return (R545). -/
def execGateReturn (f : FieldId) (t : TileId) (s : State) : Out := .next (gateRow true (tileKey f.val t.val) s)

end Sys2Proof.Machine
end

