-- ==== Sys2Proof/Machine/Except.lean ====
section
/-! DEFINITION. Handler entry and escalated stop (R416, R490 to R493, R517 to R531, R534, R537, R722, R793), the release of a
stopped tile (R535), the timer and soft events (R520), and PMODE (R514). -/
namespace Sys2Proof.Machine
open Sys2Proof

/-! ### Which exception is taken (R523) -/

/-- The BUS_ERRORs that wait to be taken. -/
def busErrors (r : Rig) : List Raised := r.raised.filter fun q => q.code == 0x09

/-- The first of some faults in trigger order; of one issue slot, the LSU's before the IOU's before the FOLD's. -/
def firstRaised : List Raised → Option Raised
  | [] => none
  | q :: rest => match firstRaised rest with
    | some x => if q.slot < x.slot ∨ (q.slot = x.slot ∧ q.info ≤ x.info) then some q else some x
    | none => some q

/-- The exception that the rig takes at this boundary, if any: steps 1 to 3 of R523, only step 3 where the bundle at
ENTRY is due (R793). -/
def choose (s : State) (k : Nat) : Option Choice :=
  let r := s.rig k
  let early : Option Choice :=
    if r.entryFresh then none
    else match firstRaised r.raised with
      | some q => some (if q.code = 0x09 then .bus none else .arith q)
      | none => match r.trapDue with
        | some (n, b) => some (.trap n b)
        | none => if eventHeld r then none else (takeableEvent s k).map fun e => .event e.1 e.2
  match early with
  | some c => some c
  | none => if waits s k (bundleOf (nextBundle s k)) then none else (issueFault s k).map .issue

/-- The fixed level of a fault, or the level of an event (R518). -/
def Choice.level : Choice → Nat
  | .bus _ => 6
  | .arith _ => 4
  | .trap _ _ => 2
  | .event _ l => l
  | .issue e => e.level

/-- An asynchronous event. -/
def Choice.async : Choice → Bool
  | .event _ _ => true
  | _ => false

/-- CAUSE's CODE and INFO (R518, R528). -/
def Choice.cause (r : Rig) : Choice → Nat × Nat
  | .bus _ => (0x09, match firstRaised (busErrors r) with | some q => q.info | none => 0)
  | .arith q => (q.code, q.info)
  | .trap n _ => (0x01, n)
  | .event src _ =>
    match src, r.arithRec with
    | 0, some q => (q.code, q.info)
    | n, _ => (0x0F + n, 0)
  | .issue e => (e.code, e.info)

/-- The trigger that ETRIG names: its bundle and its issue slot (R518, R527 to R529). -/
def Choice.trig (r : Rig) : Choice → Option (Nat × Nat)
  | .bus _ => (firstRaised (busErrors r)).map fun q => (q.bundle, q.slot)
  | .arith q => some (q.bundle, q.slot)
  | .event 0 _ => r.arithRec.map fun q => (q.bundle, q.slot)
  | _ => none

/-- What EADDR takes (R518, R527, R553). -/
def Choice.addr (r : Rig) : Choice → Word
  | .bus _ => match firstRaised (busErrors r) with | some q => q.addr | none => 0
  | .issue e => e.addr
  | _ => 0

/-! ### The continuation (R525) -/

/-- The bundle that a transfer in effect fixes for a later position, else the one in sequence. -/
def fixedNext (r : Rig) (i before : Nat) : Nat :=
  match r.pend.find? fun q => q.due == r.pos + i && !q.kind.handler with
  | some q => q.target
  | none => (before + 1) % 4096

/-- EBA, ERA0, ERA1 and ERA2. -/
def Choice.continuation (r : Rig) : Choice → Nat × Nat × Nat × Nat
  | .trap _ b => (b, (b + 3) % 4096, (b + 4) % 4096, (b + 5) % 4096)
  | .bus (some b) => ((b + 3) % 4096, (b + 3) % 4096, (b + 4) % 4096, (b + 5) % 4096)
  | _ =>
    let e1 := fixedNext r 1 r.pc
    (r.pc, r.pc, e1, fixedNext r 2 e1)

/-- A handler transfer that the entry cancels, or the trap that it replaces (R524 step 1, R531). -/
def Choice.xferLost (r : Rig) : Choice → Bool
  | .trap _ _ => false
  | .bus (some _) => true
  | _ => r.trapDue.isSome || r.pend.any fun q => q.kind.handler

/-! ### Entry (R524) -/

/-- A FOLD in flight stopped at its last checkpoint (R416). -/
def stopFold (r : Rig) : Rig :=
  if r.fold.busy then
    { r with fold := { r.fold with busy := false, resume := true, sent := false }
             socks := writeSocks r.socks [(0x074, r.fold.facc), (0x075, r.fold.fptr), (0x076, r.fold.frem)] }
  else r

/-- The faults that stay to be taken. -/
def Choice.rest (r : Rig) : Choice → List Raised
  | .bus _ => r.raised.filter fun q => q.code != 0x09
  | .arith q => r.raised.erase q
  | _ => r.raised

/-- The rig at ENTRY. -/
def enterRig (entry : Nat) (c : Choice) (r : Rig) : Rig :=
  stopFold { r with
    pc := entry, pend := [], trapDue := none, entryFresh := true, atTarget := false
    rptc := if inRepeatDelay r then 0 else r.rptc
    rpt := none, taking := none, raised := c.rest r
    arithRec := (match c with | .event 0 _ => none | _ => r.arithRec)
    arithMulti := (match c with | .event 0 _ => false | _ => r.arithMulti) }

/-- CAUSE, EBA, ERA, ETRIG and EADDR written in the bank of the current world (R524 step 2). -/
def writeBank (k : Nat) (c : Choice) (s : State) : State :=
  let r := s.rig k
  let cause := c.cause r
  let era := c.continuation r
  let put := fun (s : State) (w : Fld × Nat) => bankSet s k w.1 w.2
  let imprecise := match c with | .event 0 _ => true | _ => false
  let multi := match c with
    | .bus _ => decide (1 < (busErrors r).length)
    | .event 0 _ => r.arithMulti
    | _ => false
  let s := [(TP0.X_CAUSE_CODE, cause.1), (TP0.X_CAUSE_INFO, cause.2), (TP0.X_CAUSE_IMPRECISE, bit imprecise),
    (TP0.X_CAUSE_MULTI, bit multi), (TP0.X_EBA_BUNDLE, era.1), (TP0.X_ERA_A_ERA0, era.2.1),
    (TP0.X_ERA_A_ERA1, era.2.2.1), (TP0.X_ERA_B_ERA2, era.2.2.2)].foldl put s
  let trig := match c.trig r with
    | some (b, n) => (b, min (r.slot - n) 0xFFFF)
    | none => (0, 0)
  [(TP0.X_ETRIG_BUNDLE, trig.1), (TP0.X_ETRIG_SLOTS, trig.2), (TP0.X_EADDR_ADDR, (c.addr r).toNat)].foldl put s

/-- ESTAT written in the bank of the current world (R524 step 2). -/
def writeEstat (k : Nat) (c : Choice) (s : State) : State :=
  let r := s.rig k
  let inRpt := inRepeat r && !(match c with | .trap _ _ => true | _ => false)
  let ni := inRpt && (match r.rpt with | some q => q.nonInt | none => false)
  [(TP0.X_ESTAT_IN_REPEAT, bit inRpt), (TP0.X_ESTAT_RPT_NI, bit ni), (TP0.X_ESTAT_FOLD, bit r.fold.busy),
    (TP0.X_ESTAT_ASYNC, bit c.async), (TP0.X_ESTAT_XFER_LOST, bit (c.xferLost r)), (TP0.X_ESTAT_PLEVEL, curLevel s k),
    (TP0.X_ESTAT_PMLEVEL, curMask s k)].foldl (fun s w => bankSet s k w.1 w.2) s

/-- What a fault at issue records besides the bank: XB (R508), GW_STATE.REASON (R503), RS_FAULTS and REEF (R730, R732). -/
def faultMarks (k : Nat) (c : Choice) (s : State) : State :=
  match c with
  | .issue e =>
    if e.code = 0x06 then s.set (p0 k) TP0.GW_STATE_REASON e.info
    else if e.code = 0x04 then setError (p0 k) 19 (s.bumpSat (p0 k) TP0.RS_FAULTS_COUNT)
    else s
  | _ => s

/-- XB0 to XB3 take the bundle of a reserved-encoding trap (R508). -/
def writeXb (k : Nat) (c : Choice) (s : State) : State :=
  match c with
  | .issue e =>
    if e.code = 0x02 then
      let w := (nextBundle s k).toNat
      (List.range 4).foldl (fun s i => s.set (p0 k) (TP0.XB.at i) (bits w (32 * i) 32)) s
    else s
  | _ => s

/-- Taking an event clears its pending bit (R521). -/
def clearPending (k : Nat) (c : Choice) (s : State) : State :=
  match c with
  | .event src _ =>
    s.set (p0 k) (match src with
      | 0 => TP0.EVENTS_ARITH | 1 => TP0.EVENTS_FERRY | 2 => TP0.EVENTS_TIMER | _ => TP0.EVENTS_SOFT) 0
  | _ => s

/-- HIST saved for the world of the handler and cleared (R722). -/
def saveHist (k : Nat) (s : State) : State :=
  (s.set (p0 k) (if bankIx s k = 1 then TP0.REEF_SAVE_B_HIST else TP0.REEF_SAVE_K_HIST)
    (s.get (p0 k) TP0.REEF_HIST_HIST)).set (p0 k) TP0.REEF_HIST_HIST 0

/-- Handler entry (R524 steps 2 to 4). -/
def enterHandler (k : Nat) (c : Choice) (s : State) : State :=
  let s := faultMarks k c (writeXb k c s)
  let s := writeEstat k c (writeBank k c s)
  let s := saveHist k (clearPending k c s)
  let s := bankSet (setPriv s k 0 (inBerth s k)) k TP0.X_MLEVEL_LEVEL c.level
  s.modRig k (enterRig (s.get (p0 k) TP0.ENTRY_BUNDLE) c)

/-! ### Stops (R321, R327, R328, R534, R537) -/

/-- A rig stopped at a bundle boundary for the rest of its crossing; its ferry engine follows no NEXT (R622). -/
def stopTile (k : Nat) (s : State) : State :=
  closeFerry k (s.modRig k fun r => if r.run = .running then { r with run := .stopped } else r)

/-- Stage 1 of a drain is empty: every rig has ended its work or has been stopped (R317). -/
def stageOneEmpty (s : State) : Bool := s.m.rigs.all fun e => e.2.run != .running

/-- A re-crossing whose stage 1 has become empty drains (R306, R342). -/
def toDraining (s : State) : State :=
  if cseqState s = 4 ∧ stageOneEmpty s then s.set pgCseq CSEQ.CSEQ_STATUS_STATE 2 else s

/-- The tiles of a berth, by tile key. -/
def berthTiles (s : State) (l : Latched) : List Nat :=
  (lidMap s).filterMap fun p => if l.holds p.1 then some p.2 else none

/-- The other tiles of a berth stopped (R327, R328). -/
def stopBerth (l : Latched) (but : Nat) (s : State) : State :=
  ((berthTiles s l).filter (· != but)).foldl (fun s k => stopTile k s) s

/-- FCTL's registers that show its FIFO (R536). -/
def showReports (f : Nat) (s : State) : State :=
  let q := lookup [] s.m.reports f
  let h := match q with
    | [] => 0
    | x :: _ => x.toNat
  let p := pgFctl f
  (((s.set p FCTL.ESC_LEVEL_LEVEL q.length).set p FCTL.ESC_HEAD0_WORD h).set p FCTL.ESC_HEAD1_WORD
    (h / 2 ^ 32)).set p FCTL.ESC_HEAD2_WORD (h / 2 ^ 64)

/-- The reports of a field set. -/
def setReports (f : Nat) (q : List (BitVec 96)) (s : State) : State :=
  showReports f { s with m := { s.m with reports := put [] s.m.reports f q } }

/-- A report pushed, or lost from a full FIFO (R537). -/
def pushReport (f : Nat) (x : BitVec 96) (s : State) : State :=
  let p := pgFctl f
  let q := lookup [] s.m.reports f
  let s := s.bumpSat p FCTL.ESC_COUNTS_TOTAL
  if q.length < 16 then pageEvent p (setReports f (q ++ [x]) s)
  else setError p 16 (s.bumpSat p FCTL.ESC_COUNTS_LOST)

/-- The report of an escalated stop (R537). -/
def reportOf (s : State) (k : Nat) (c : Choice) : BitVec 96 :=
  let r := s.rig k
  BitVec.ofNat 96 (s.m.wtime % 2 ^ 32 * 2 ^ 64 + bit (inBerth s k) * 2 ^ 56 + curLevel s k * 2 ^ 52 +
    curMask s k * 2 ^ 48 + c.level * 2 ^ 44 + (c.continuation r).1 * 2 ^ 32 + (c.cause r).2 % 256 * 2 ^ 24 +
    (c.cause r).1 * 2 ^ 16 + k % 512)

/-- An escalated stop (R534): the rig stops at once, the report is pushed, the escalation leaves for the roster and the
berth ends FAULTED. -/
def escalate (k : Nat) (c : Choice) (s : State) : State :=
  let f := k / 512
  let s := faultMarks k c s
  let s := match c with
    | .issue e => if e.code = 0x0C then alertError (p0 k) 17 (countImem k (s.rig k).pc true s) else s
    | _ => s
  let x := reportOf s k c
  let s := pushReport f x s
  let s := s.modRig k fun r =>
    { r with run := .escalated, raised := [], trapDue := none, taking := none, fold := { r.fold with busy := false, sent := false } }
  let s := (closeFerry k s).set (p0 k) HDR.PAGE_STATUS_HALTED 1
  let s := s.modX fun y => { y with escs := y.escs ++ [.stop (fin 56 f) (fin 468 (k % 512)) x] }
  toDraining <| match lidOf s f (k % 512) with
  | none => s
  | some lid => match berthOfLid s lid with
    | none => s
    | some b => stopBerth b.slot k
        (modBerths (fun r => r.slot.berth == b.slot.berth) (fun r => { r with faulted := true }) s)

/-- The exception whose entry is due: one that waits for outstanding accesses, or what R523 chooses at this boundary. -/
def due (s : State) (k : Nat) : Option Choice :=
  match (s.rig k).taking with
  | some c => some c
  | none => choose s k

/-- The entry that step 1 of R524 leaves: one for a BUS_ERROR where an outstanding access has received an error response. -/
def afterAccesses (r : Rig) (c : Choice) : Choice :=
  if (busErrors r).isEmpty then c
  else match c with
    | .trap _ b => .bus (some b)
    | .bus t => .bus t
    | _ => .bus none

/-- The rig takes the exception that is due: an escalated stop at once (R519, R534), an entry once no LSU or IOU access is outstanding,
until when the choice stands and nothing issues (R524 step 1). -/
def handlerEntry (k : Nat) (s : State) : State :=
  let s := settleRig k s
  if !canRun s k || budgetSpent s k || cxdoneWaits s k then s
  else match due s k with
    | none => s
    | some c =>
      let t := s.atTime (readyCycle s k [])
      let c' := if (s.rig k).taking.isSome then afterAccesses (s.rig k) c else c
      if !c'.async && decide (c'.level ≤ curMask s k) then escalate k c' t
      else if (s.rig k).lsuQ.isEmpty && (s.rig k).iouQ.isEmpty then enterHandler k c' t
      else t.modRig k fun r => { r with taking := some c }

/-- HANDLER_ENTRY: the rig takes the exception that is due at its bundle boundary (R523, R524). -/
def execHandlerEntry (f : FieldId) (t : TileId) (s : State) : Out := .next (handlerEntry (tileKey f.val t.val) s)

/-! ### Events (R520) -/

/-- The timer's edge: WTIME[31:0] equals TIMER_CMP. -/
def timerEvent (k : Nat) (s : State) : State :=
  if s.on (p0 k) TP0.TILE_CTL_TIMER_ARM then
    let d := (s.get (p0 k) TP0.TIMER_CMP_CMP + 2 ^ 32 - s.m.wtime % 2 ^ 32) % 2 ^ 32
    ((s.atTime (s.m.wtime + d)).set (p0 k) TP0.TILE_CTL_TIMER_ARM 0).set (p0 k) TP0.EVENTS_TIMER 1
  else s

/-- TIMER_EVENT: the edge on which an armed timer matches; WTIME runs to it (R520). -/
def execTimerEvent (f : FieldId) (t : TileId) (s : State) : Out := ifTile f t (timerEvent (tileKey f.val t.val)) s

/-- RAISE: SOFT becomes pending (R520). -/
def execRaise (f : FieldId) (t : TileId) (s : State) : Out :=
  ifTile f t (fun s => s.set (p0 (tileKey f.val t.val)) TP0.EVENTS_SOFT 1) s

/-! ### PMODE (R511, R514, R234) -/

/-- The whole of GW_STATE set to 0 (R514). -/
def clearGwState (k : Nat) (s : State) : State := s.setWord (p0 k + TP0.GW_STATE_ACTIVE.off) 0

/-- A write of PMODE: ignored with WHILE_RUNNING unless the rig is halted; a change resets level, gates, slip and
gangway. -/
def pmodeWrite (k : Nat) (split : Bool) (s : State) : State :=
  let p := p0 k
  if !s.on p HDR.PAGE_STATUS_HALTED then setError p 0 s
  else if isSplit s k = split then s
  else
    let s := setPriv (s.set p TP0.PMODE_MODE (bit split)) k 0 false
    clearGwState k ((s.set p TP0.GSTACK_B_DEPTH 0).set p TP0.SLIP_VALID 0)

/-- PMODE_WRITE: PMODE is written (R514). -/
def execPmodeWrite (f : FieldId) (t : TileId) (split : Bool) (s : State) : Out :=
  ifTile f t (pmodeWrite (tileKey f.val t.val) split) s

/-! ### Release (R535, R536) -/

/-- A tile in escalated stop released: it waits for the next opening. -/
def releaseTile (k : Nat) (s : State) : State :=
  if (s.rig k).run = .escalated then
    let s := s.modRig k fun r => { r with run := .idle }
    let s := s.set (p0 k) HDR.PAGE_STATUS_HALTED (bit (s.on (p0 k) HDR.PAGE_CONTROL_HALT_REQ))
    if tileState s (k / 512) (k % 512) = 8 then setTileState (k / 512) (k % 512) (usedState s (k / 512) (k % 512)) s else s
  else s

/-- A write of ESC_RELEASE with GO = 1: at once while CSEQ is stopped, else at the next slack water. -/
def escRelease (k : Nat) (s : State) : State :=
  if (s.rig k).run ≠ .escalated then s
  else if cseqStopped s then onRoster (releaseTile k) s
  else if s.m.releases.contains k then s
  else { s with m := { s.m with releases := s.m.releases ++ [k] } }

/-- ESC_RELEASE: release of a tile in escalated stop is requested (R535). -/
def execEscRelease (f : FieldId) (t : Nat) (s : State) : Out :=
  ifReach (pgFctl f.val) (if t < 468 then escRelease (tileKey f.val t) else id) s

/-- A read of ESC_HEAD2 removes the head report (R536). -/
def popReport (f : Nat) (s : State) : State := setReports f (lookup [] s.m.reports f).tail s

/-- ESC_HEAD2_READ: the head report leaves the FIFO (R536). -/
def execEscHead2Read (f : FieldId) (s : State) : Out := ifReach (pgFctl f.val) (popReport f.val) s

end Sys2Proof.Machine
end

