-- ==== Sys2Proof/Machine/Hawser.lean ====
section
/-! DEFINITION. The commands of the Hawser link layer (R626 to R678): an item decoded at a channel end, a timer of an end,
and training. -/
namespace Sys2Proof.Machine
open Sys2Proof

/-- A command at a channel end that exists, on an awake wafer: `g`, before which the partner has sent what it may, and after which
the end transmits the commands that are pending. -/
def atEnd (h : HostId) (e : EndId) (g : State → State) (s : State) : Out :=
  ifAwake (fun s =>
    if endExists h.val e.val then
      let p := partnerEnd h.val e.val
      transmit h.val e.val (g (settleEnd p.1 p.2 s))
    else s) s

/-- The same, for a command before which the end's own replays are over too. -/
def atEndNow (h : HostId) (e : EndId) (g : State → State) (s : State) : Out :=
  atEnd h e (fun s => g (settleEnd h.val e.val s)) s

/-- A link-format item with good parity takes an end from UP_WAIT to UP (R667). -/
def linkItem (h e : Nat) (s : State) : State := if linkState s h e = 5 then enterUp h e s else s

/-- An item decoded in link traffic: nothing unless the end is UP, or is UP_WAIT and so comes UP. -/
def inUp (h e : Nat) (g : State → State) (s : State) : State :=
  let s := linkItem h e s
  if linkState s h e = 6 then g s else s

/-! ### DATA packets (R635 to R638, R644, R658) -/

/-- A field from two copies: the first, or the second where the first has a parity error; none where both have one, or where good
copies disagree (R635, R637). -/
def copyOf (a b : Nat) (badA badB : Bool) : Option Nat :=
  if (badA && badB) || (!badA && !badB && a != b) then none else some (if badA then b else a)

/-- LEN and VC of a header by its bytes 1 and 6 (R636, R637). -/
def headerLenVc (hd : Nat) (bad1 bad6 : Bool) : Option (Nat × Nat) :=
  (copyOf (bits hd 9 7) (bits hd 49 7) bad1 bad6).map fun b => (b / 2, b % 2)

/-- The header of a packet as its transmitter sends it (R636). -/
def sentHeader (v q : Nat) (p : Pkt) : BitVec 64 :=
  BitVec.ofNat 8 0x96 ++ BitVec.ofNat 6 p.units ++ BitVec.ofNat 1 v ++ (0 : BitVec 13) ++ BitVec.ofNat 12 q ++ (0 : BitVec 8) ++
    BitVec.ofNat 6 p.units ++ BitVec.ofNat 1 v ++ (0 : BitVec 1) ++ BitVec.ofNat 8 0x96

/-! ### What a direction's lanes carry (R628 to R634, R639) -/

/-- A lane word: data bits 0 to 7 and the parity bit that makes the number of ones even (R628). -/
def laneWord (b : Byte) : List Bool :=
  let l := (List.range 8).map b.getLsbD
  l ++ [l.foldl Bool.xor false]

/-- A lane word has good parity; nine ones, which an undriven lane reads, have not (R628, R629). -/
def laneGood (l : List Bool) : Bool := !l.foldl Bool.xor false

/-- What every spare lane carries in each word time (R630). -/
def spareByte : Byte := 0x55

/-- The word times that a DATA packet of n bytes takes on `a` active positions (R632). -/
def packetTimes (a n : Nat) : Nat := (n + a - 1) / a

/-- The byte on a position in a word time of a DATA packet; 0 where no byte fills it (R632). -/
def packetByte (a : Nat) (bs : List Byte) (time pos : Nat) : Byte := bs.getD (time * a + pos) 0

/-- The eight bytes of a command: TYPE 0x69, or 0x3C for a training command (R639, R665). -/
def commandWord (type code : Byte) (w : Word) : BitVec 64 := type ++ code ++ w ++ code ++ type

/-- The byte of a command on a position (R633). -/
def commandByte (c : BitVec 64) (pos : Nat) : Byte := c.extractLsb' (8 * (pos % 8)) 8

/-- A packet delivered from the partner's replay buffer, of as many units as the header says: to the router or the landing, or held
in the receive buffer, as it is behind one that the buffer holds (R600, R644, R658). -/
def deliver (h e v q len : Nat) (taken : Bool) (s : State) : State :=
  let p := partnerEnd h e
  match (((s.haw p.1 p.2).vc v).held.find? fun x => x.1 == q).map Prod.snd with
  | none => s
  | some pk =>
    let pk := { pk with path := pk.path.drop 1, cls := 1, flits := pk.flits.take (16 * (len - 1)) }
    if taken && !s.m.net.any (fun x => x.buf == some (endKey h e, v)) then toRouter h e pk s
    else flowCheck h e v (s.modNet fun n => n ++ [{ pk with buf := some (endKey h e, v) }])

/-- A packet of some units handled by its sequence number in UP, or discarded for a parity error (R644, R645). -/
def seqIn (h e v q len : Nat) (parity taken : Bool) (s : State) : State :=
  let ex := s.get (pgEnd h e) (expField v)
  let sent := bitAt (s.get (pgEnd h e) HAWS.FLOW_NAK_SENT) v
  if parity then
    let s := if ((s.haw h e).vc v).nakked then s else sendNak h e v 1 none s
    setNakSent h e v true (s.modVc h e v fun c => { c with nakked := false })
  else if q = ex then
    if bufUsed s h e v + 16 * (len + 1) ≤ 16384 then
      let s := (setNakSent h e v false (s.set (pgEnd h e) (expField v) (ex + 1))).bumpSat (pgEnd h e)
        HAWS.CNT_PKT_RX_COUNT
      let s := s.modVc h e v fun c => { c with fresh := c.fresh + 1, freshFrom := some (c.freshFrom.getD s.m.wtime) }
      let s := if ((s.haw h e).vc v).fresh = 8 then sendAck h e v s else s
      deliver h e v q len taken s
    else if sent then s else setNakSent h e v true (sendNak h e v 3 none s)
  else if (ex + 4096 - q) % 4096 ≤ 48 then sendAck h e v s
  else if sent then s else setNakSent h e v true (sendNak h e v 2 none s)

/-- A DATA packet received in UP: bytes on a RETIRING lane count as parity errors (R653); TYPE, LEN and VC come from their copies
(R635, R637); a malformed packet is answered and breaks the link (R638). An item of another TYPE is none of this row. -/
def dataIn (h e : Nat) (hd bad : Nat) (parity taken : Bool) (s : State) : State :=
  let bad := fun i => bitAt bad i || retiringByte s h e i
  match copyOf (bits hd 0 8) (bits hd 56 8) (bad 0) (bad 7) with
  | none => breakLink h e 4 s
  | some type =>
    if type = 0x69 ∨ type = 0 then s
    else if type ≠ 0x96 then breakLink h e 5 s
    else match headerLenVc hd (bad 1) (bad 6) with
      | none => breakLink h e 4 s
      | some (len, v) =>
        if len = 0 ∨ 32 < len then breakLink h e 1 (transmit h e (sendNak h e v 5 none s))
        else
          let any' := (List.range (8 + 16 * len)).any fun i => if i < 8 then bad i else retiringByte s h e i
          seqIn h e v (bits hd 24 12) len (parity || any') taken s

/-- The bytes of a header whose parity is bad, as a set of bits: the copies of TYPE (bytes 0 and 7) and those of LEN and VC (bytes 1
and 6), a first copy by bit 0 and a second by bit 1 (R636). -/
def badBytes (badType badLen : BitVec 2) : Nat :=
  bit (badType.getLsbD 0) + bit (badType.getLsbD 1) * 128 + bit (badLen.getLsbD 0) * 2 + bit (badLen.getLsbD 1) * 64

/-- DATA_PACKET: a DATA packet is received and handled (R644); one with a parity error does not take an end from UP_WAIT to UP. -/
def execDataPacket (h : HostId) (e : EndId) (hd : BitVec 64) (parity : Bool) (badType badLen : BitVec 2) (taken : Bool) (s : State) :
    Out :=
  atEndNow h e (fun s =>
    let bad := badBytes badType badLen
    if linkState s h.val e.val = 5 ∧ (bad ≠ 0 ∨ parity = true) then s
    else inUp h.val e.val (dataIn h.val e.val hd.toNat bad parity taken) s) s

/-! ### Commands (R639 to R641, R645 to R647, R654, R655) -/

/-- HAWSER_ACK: an ACK releases packets through ASEQ (R645, R646). -/
def execHawserAck (h : HostId) (e : EndId) (w : Word) (s : State) : Out :=
  atEndNow h e (fun s => inUp h.val e.val (fun s =>
    let s := received h.val e.val 1 w s
    let v := bits w.toNat 24 1
    let n := (bits w.toNat 0 12 + 1 + 4096 - oldest s h.val e.val v) % 4096
    if n ≤ ((s.haw h.val e.val).vc v).held.length then pumpEnd h.val e.val (release h.val e.val v n s)
    else breakLink h.val e.val 5 s) s) s

/-- A lane that a NAK names is shed or dropped from the transmit direction, and reported (R654). -/
def nakLane (h e n : Nat) (s : State) : State :=
  let x := s.haw h e
  if bitAt x.txSpare n then
    let s := s.setHaw h e { x with txSpare := putBit x.txSpare n false }
    reportLane h e n (showLanes h e (if laneState s h e n = 2 then setLane h e n 0 s else s))
  else if bitAt x.txActive n then shedTx h e n (reportLane h e n s)
  else s

/-- The timer of a virtual channel that expires on this edge restarts (R651). -/
def holdTimer (h e v : Nat) (s : State) : State :=
  let d := s.get (pgEnd h e) HAWS.ACK_TIMEOUT_CYCLES
  let again := fun (t : Nat) => if t + d ≤ s.m.wtime then s.m.wtime else t
  s.modVc h e v fun c => { c with timer := c.timer.map again }

/-- NAK: released and replayed by its reason, and its lane shed (R641, R646, R647, R651, R654). It cuts a replay of its virtual
channel off after the packets that have been sent. -/
def nakIn (h e : Nat) (w sent : Nat) (s : State) : State :=
  let v := bits w 24 1; let reason := bits w 12 4
  let s := (replayed h e v sent s).bumpSat (pgEnd h e) HAWS.CNT_RECOVER_NAK_RX
  let n := (bits w 0 12 + 4096 - oldest s h e v) % 4096
  if reason = 5 then breakLink h e 1 s
  else if reason = 0 ∨ 5 < reason ∨ ((s.haw h e).vc v).held.length < n then breakLink h e 5 s
  else
    let s := holdTimer h e v (release h e v n s)
    let s := if bits w 23 1 = 1 then nakLane h e (bits w 16 7) s else s
    if linkState s h e ≠ 6 then s
    else pumpEnd h e (if reason = 4 then s else replay h e v s)

/-- NAK: the transmitter handles a NAK (R647). -/
def execNak (h : HostId) (e : EndId) (w : Word) (s : State) (sent : Nat := 0) : Out :=
  atEnd h e (fun s => inUp h.val e.val (fun s => nakIn h.val e.val w.toNat sent (received h.val e.val 2 w s)) s) s

/-- LANE applied to the receive direction (R655, R656). -/
def laneIn (h e : Nat) (w : Nat) (s : State) : State :=
  let shed := bits w 0 7; let add := bits w 8 7
  let g := (s.get (pgEnd h e) HAWS.LINK_GEN_RX + 1) % 16
  let shedOk := bits w 7 1 = 0 ∨ laneState s h e shed = 1 ∨ laneState s h e shed = 3
  let addOk := bits w 15 1 = 0 ∨ laneState s h e add = 2
  if bits w 16 4 = g ∧ shedOk ∧ addOk then
    let s := if bits w 7 1 = 1 then setLane h e shed 0 s else s
    let s := if bits w 15 1 = 1 then setLane h e add 1 s else s
    let s := showLanes h e (s.set (pgEnd h e) HAWS.LINK_GEN_RX g)
    if s.get (pgEnd h e) HAWS.LINK_ACTIVE < 8 then breakLink h e 7 s else s
  else breakLink h e 5 s

/-- LANE: a LANE command sheds and adds lanes of the receive direction (R655). -/
def execLane (h : HostId) (e : EndId) (w : Word) (s : State) : Out :=
  atEndNow h e (fun s => inUp h.val e.val (fun s => laneIn h.val e.val w.toNat (received h.val e.val 3 w s)) s) s

/-- One virtual channel's bit of a FLOW taken (R660, R662): a replay that runs pauses after the packets that have been sent, and goes
on from there once the channel is XON. -/
def flowIn (h e v sent : Nat) (off : Bool) (s : State) : State :=
  let was := peerXoff s h e v
  let s := if off then replayed h e v sent s else s
  let s := s.setBit (pgEnd h e) HAWS.FLOW_PEER_XOFF v off
  s.modVc h e v fun c => { c with xoffFrom := if off then (if was then c.xoffFrom else some s.m.wtime) else none }

/-- FLOW: the partner's XOFF or XON of both virtual channels takes effect (R660). -/
def execFlow (h : HostId) (e : EndId) (w : Word) (s : State) (sent0 : Nat := 0) (sent1 : Nat := 0) : Out :=
  atEnd h e (fun s => inUp h.val e.val (fun s =>
    let s := received h.val e.val 4 w s
    pumpEnd h.val e.val (flowIn h.val e.val 1 sent1 (w.getLsbD 1) (flowIn h.val e.val 0 sent0 (w.getLsbD 0) s))) s) s

/-- UNKNOWN_ITEM_TYPE: a TYPE or command that R635 or R640 does not allow breaks the link; for FRAMING where the copies
of TYPE or of a command byte fail, else for PROTOCOL. -/
def execUnknownItemType (h : HostId) (e : EndId) (framing : Bool) (s : State) : Out :=
  atEndNow h e (fun s => if linkState s h.val e.val = 6 then breakLink h.val e.val (if framing then 4 else 5) s else s) s

/-! ### Training (R664 to R670) -/

/-- A TRAIN MASK taken (R667): a segment of the partner's lanes; the last of them ends EXCHANGE. -/
def maskIn (h e : Nat) (w : Nat) (s : State) : State :=
  let s := if linkState s h e = 2 then enterExchange h e s else s
  if linkState s h e ≠ 3 then s
  else
    let seg := bits w 2 2
    let s := s.modHaw h e fun x => { x with mask := x.mask ||| bits w 4 24 * 2 ^ (24 * seg), segs := putBit x.segs seg true }
    let all := if isStay h e then 15 else 3
    if (s.haw h e).segs &&& all = all then exchanged h e s else s

/-- TRAIN_MASK: a TRAIN MASK command is decoded (R667); in UP it breaks the link (R668). -/
def execTrainMask (h : HostId) (e : EndId) (w : Word) (s : State) : Out :=
  atEnd h e (fun s =>
    let s := received h.val e.val 5 w s
    if linkState s h.val e.val = 6 then breakLink h.val e.val 5 s else maskIn h.val e.val w.toNat s) s

/-- A TRAIN READY taken (R667, R668), in the link format or the training format. -/
def readyIn (h e : Nat) (w : Nat) (link : Bool) (s : State) : State :=
  match linkState s h e with
  | 2 => if link then s else enterExchange h e s
  | 4 =>
    if w = readyW (s.haw h e).usable then sendTrain h e (readyW (s.haw h e).usable) (setLink h e 5 s)
    else failAttempt h e s
  | 5 => if link then enterUp h e s else s
  | 6 => if link then s else breakLink h e 5 s
  | _ => s

/-- TRAIN_READY: a TRAIN READY command is decoded (R667). -/
def execTrainReady (h : HostId) (e : EndId) (w : Word) (link : Bool) (s : State) : Out :=
  atEnd h e (fun s => readyIn h.val e.val w.toNat link (received h.val e.val 5 w s)) s

/-- LANE_JUDGED_GOOD: 16 correct probe pairs judge a lane good (R666). -/
def execLaneJudgedGood (h : HostId) (e : EndId) (lane : Nat) (s : State) : Out :=
  atEnd h e (fun s =>
    let x := s.haw h.val e.val
    let st := linkState s h.val e.val
    if (st = 2 ∨ st = 3) ∧ lane < laneCount h.val e.val ∧ bitAt x.gone lane = false then
      s.setHaw h.val e.val { x with good := putBit x.good lane true
                                    firstGood := some (x.firstGood.getD s.m.wtime) }
    else s) s

/-- PROBE_WINDOW_END: 256 cycles after its first good lane an end goes to EXCHANGE (R667). -/
def execProbeWindowEnd (h : HostId) (e : EndId) (s : State) : Out :=
  atEnd h e (fun s =>
    match (s.haw h.val e.val).firstGood with
    | some t =>
      if linkState s h.val e.val = 2 then
        enterExchange h.val e.val { s with m := { s.m with wtime := max s.m.wtime (t + 256) } }
      else s
    | none => s) s

/-- TRAINING_ATTEMPT_TIMEOUT: 1 ms into an attempt that has not reached UP it fails; the Mast reports the channel fenced
(R157, R667, R670). -/
def execTrainingAttemptTimeout (h : HostId) (e : EndId) (s : State) : Out :=
  atEnd h e (fun s =>
    let st := linkState s h.val e.val
    if 2 ≤ st ∧ st ≤ 5 then
      let s := { s with m := { s.m with wtime := max s.m.wtime ((s.haw h.val e.val).since + 1200000) } }
      let s := failAttempt h.val e.val s
      if h.val < 56 ∧ e.val < 92 ∧ chanFenced s h.val e.val = false then
        startRoutes (onRoster (setChan h.val e.val false true) s)
      else s
    else s) s

/-- UP_WAIT_READY_INTERVAL: an end in UP_WAIT sends a link-format READY every 64 cycles (R667). -/
def execUpWaitReadyInterval (h : HostId) (e : EndId) (s : State) : Out :=
  atEnd h e (fun s =>
    if linkState s h.val e.val = 5 then sendTrain h.val e.val (readyW (s.haw h.val e.val).usable) s else s) s

/-- QUIET_END: 12,000 cycles of QUIET end in PROBE (R667). -/
def execQuietEnd (h : HostId) (e : EndId) (s : State) : Out :=
  atEnd h e (fun s =>
    if linkState s h.val e.val = 7 then
      enterProbe h.val e.val { s with m := { s.m with wtime := max s.m.wtime ((s.haw h.val e.val).since + 12000) } }
    else s) s

/-- A write of 1 to CONTROL.BREAK; an end in DOWN or QUIET has no link to break. -/
def breakEnd (h e : Nat) (s : State) : State :=
  if 2 ≤ linkState s h e ∧ linkState s h e ≤ 6 then breakLink h e 8 s else s

/-- BREAK: CONTROL.BREAK declares the link broken for OPERATOR (R671). -/
def execLinkBreak (h : HostId) (e : EndId) (s : State) : Out := atEndNow h e (breakEnd h.val e.val) s

/-! ### Lane errors, timers and flow control -/

/-- One lane found bad by the receiver (R652): RETIRING, or out at once for a spare. -/
def badLane (h e n : Nat) (s : State) : State :=
  let st := laneState s h e n
  let s := setLane h e n (if st = 1 then 3 else 0) s
  let s := if st = 2 then s.modHaw h e fun x => { x with txSpare := putBit x.txSpare n false } else s
  reportLane h e n (s.bumpSat (pgEnd h e) HAWS.CNT_ERR_PARITY)

/-- The NAKs of a word time's bad lanes (R652): the first active lane inside a DATA packet is named by NAK PARITY, each
other lane by a NAK LANE. -/
def nakLanes (h e : Nat) (inside : Option (Fin 2)) (active spare : List Nat) (s : State) : State :=
  match inside, active with
  | some v, n :: rest =>
    let s := (sendNak h e v.val 1 (some n) s).modVc h e v.val fun c => { c with nakked := true }
    (rest ++ spare).foldl (fun s n => sendNak h e v.val 4 (some n) s) s
  | _, _ => (active ++ spare).foldl (fun s n => sendNak h e ((inside.map Fin.val).getD 0) 4 (some n) s) s

/-- Lanes with parity errors in one word time (R652 to R654). A lane that is RETIRING or out names nothing further. -/
def parityErrors (h e : Nat) (lanes : List Nat) (inside : Option (Fin 2)) (s : State) : State :=
  let l := (List.range (laneCount h e)).filter fun n => lanes.contains n
  let active := l.filter fun n => laneState s h e n == 1
  let spare := l.filter fun n => laneState s h e n == 2
  if 4 < active.length + spare.length then breakLink h e 6 s
  else
    let s := (active ++ spare).foldl (fun s n => badLane h e n s) s
    let s := nakLanes h e inside active spare (showLanes h e s)
    active.foldl (fun s n => shedTx h e n s) s

/-- LANE_PARITY_ERROR: a receiver finds lane parity errors in one word time (R652). -/
def execLaneParityError (h : HostId) (e : EndId) (lanes : List Nat) (inside : Option (Fin 2)) (s : State) : Out :=
  atEndNow h e (fun s =>
    let st := linkState s h.val e.val
    if st = 5 ∨ st = 6 then parityErrors h.val e.val lanes inside s else s) s

/-- ACK_TIMER_EXPIRY: the ACK timer of a virtual channel expires: a replay from the oldest packet, or a broken link past
REPLAY_LIMIT (R648 to R650). -/
def execAckTimerExpiry (h : HostId) (e : EndId) (v : Fin 2) (s : State) : Out :=
  atEndNow h e (fun s =>
    match ((s.haw h.val e.val).vc v.val).timer with
    | none => s
    | some t =>
      if linkState s h.val e.val ≠ 6 then s
      else
        let p := pgEnd h.val e.val
        let w := max s.m.wtime (t + s.get p HAWS.ACK_TIMEOUT_CYCLES)
        let s := ({ s with m := { s.m with wtime := w } }).bumpSat p HAWS.CNT_RECOVER_TIMEOUT
        let s := s.modVc h.val e.val v.val fun c => { c with expiries := c.expiries + 1, timer := some w }
        if s.get p HAWS.REPLAY_LIMIT_COUNT < ((s.haw h.val e.val).vc v.val).expiries then breakLink h.val e.val 3 s
        else replay h.val e.val v.val s) s

/-- The first item boundary from a cycle on (R628). -/
def wordTime (c : Nat) : Nat := (c + 8) / 9 * 9

/-- ACK_DUE: the first item boundary after 128 cycles since the first delivery that is not covered sends an ACK (R645); by then the
buffers' packets have been taken. -/
def execAckDue (h : HostId) (e : EndId) (v : Fin 2) (s : State) : Out :=
  atEndNow h e (fun s =>
    if linkState s h.val e.val = 6 then
      match ((s.haw h.val e.val).vc v.val).freshFrom with
      | none => takeBuffered h.val e.val s
      | some c => sendAck h.val e.val v.val (takeBuffered h.val e.val
          { s with m := { s.m with wtime := max s.m.wtime (wordTime (c + 128)) } })
    else s) s

/-- FLOW_REFRESH: FLOW is sent at least every 256 cycles (R660). -/
def execFlowRefresh (h : HostId) (e : EndId) (s : State) : Out :=
  atEndNow h e (fun s =>
    if linkState s h.val e.val = 6 then sendFlow h.val e.val (takeBuffered h.val e.val s) else s) s

/-- CREDIT_TIMEOUT: XOFF held past CREDIT_TIMEOUT breaks the link (R662). -/
def execCreditTimeout (h : HostId) (e : EndId) (v : Fin 2) (s : State) : Out :=
  atEndNow h e (fun s =>
    match ((s.haw h.val e.val).vc v.val).xoffFrom with
    | some t =>
      if linkState s h.val e.val = 6 then
        breakLink h.val e.val 2 { s with m := { s.m with
          wtime := max s.m.wtime (t + s.get (pgEnd h.val e.val) HAWS.CREDIT_TIMEOUT_CYCLES + 1) } }
      else s
    | none => s) s

end Sys2Proof.Machine
end

