-- ==== Sys2Proof/Machine/Retire.lean ====
section
/-! DEFINITION. What leaves service (R49, R209 to R215, R465, R466, R586, R657, R664), what a field's power takes with it,
and escalations that reach the roster (R35, R176, R208, R339 to R341). -/
namespace Sys2Proof.Machine
open Sys2Proof

/-! ### Tiles that leave use -/

/-- The rig and the ferry engine of a tile end with it. -/
def deadRig (k : Nat) (s : State) : State :=
  let s := (s.setRig k { Rig.reset with run := .stopped }).setFerry k Ferry.reset
  s.modX fun x => { x with copies := x.copies.filter fun c => c.tile != k }

/-- An identifier whose tile leaves use at slack water: its berth is suspended, and a berth that it holds loses its holder
(R341). The crossing's ending stays as it is (DEDUCED, log 23). -/
def loseUse (lid : Nat) (s : State) : State :=
  let s := modBerths (fun r => r.slot.holds lid && !r.slot.replay) (fun r => { r with suspendAsked := true }) s
  suspendGone lid (loseHolder lid s)

/-- A seam or stay channel reported fenced, unless it is so already (R157). -/
def fenceEnd (h e : Nat) (s : State) : State :=
  if h < 56 ∧ e < 92 ∧ !chanFenced s h e then setChan h e false true s else s

/-- The ends of a field whose tile router is not in routes return to DOWN, and their channels are reported fenced (R157,
R664). -/
def dropDead (f : Nat) (s : State) : State :=
  (List.range 96).foldl (fun s e =>
    if endExists f e && !routerIn s f (endTile f e) then fenceEnd f e (dropEnd f e s) else s) s

/-- A tile becomes RETIRED, and a spare of its row is promoted (R211); a tile that has no power, or has failed, keeps its
entry (R168). -/
def retireTile (f t : Nat) (s : State) : State :=
  if tileState s f t = 0 ∨ tileState s f t = 5 ∨ tileState s f t = 6 then s
  else
    let s := match lidOf s f t with
      | some l => if tileReady s f t then loseUse l s else s
      | none => s
    dropDead f (promoteRow f (tileRow t) (setTileState f t 6 (deadRig (tileKey f t) s)))

/-! ### Banks (R465, R466, R586) -/

/-- An area of some pages from a page on lies in part in a bank. -/
def areaInBank (base pages b : Nat) : Bool :=
  decide (0 < pages) && decide (base < 8 * b + 8) && decide (8 * b < base + pages)

/-- R466: the berth has its snapshot region, a post bay or its holder area in bank b of tile k. -/
def berthInBank (s : State) (k b : Nat) (l : Latched) : Bool :=
  match lidOf s (k / 512) (k % 512) with
  | none => false
  | some lid =>
    (l.holds lid && (areaInBank l.snapBase l.snapPages b ||
      areaInBank (s.get (p0 k) TP0.POST_BAY_BASE) (2 * s.get (p0 k) TP0.POST_BAY_PAGES) b)) ||
    (!l.replay && l.holder == lid && areaInBank l.holdBase (l.count * l.snapPages) b)

/-- Every share on a bank that has left service becomes 0, with the credits of the running window (R586). -/
def scaleShares (k b : Nat) (s : State) : State :=
  let p := pgTk k 1
  let some' := (List.range 5).any fun m => shareOf s k m b != 0
  let s := (List.range 5).foldl (fun s m => s.set p ((guarOf m).at b) 0) s
  let c := (List.range 5).foldl (fun c m => erase ((5 * k + m) * 16 + b) c) s.m.credits
  let s := { s with m := { s.m with credits := c } }
  let s := if s.on p HDR.STAGE_STATUS_DIRTY then s
    else (s.setShadow (p + 0x300 + 8 * b) (s.word (p + 0x300 + 8 * b))).setShadow (p + 0x304 + 8 * b)
      (s.word (p + 0x304 + 8 * b))
  if some' then alertError p 16 s else s

/-- A bank leaves service: its shares, its tile's state, and the berths that have an area in it (R465, R466, R586). -/
def retireBank (f t b : Nat) (s : State) : State :=
  let k := tileKey f t
  let p := p0 k
  if !bitAt (s.get p TP0.BANK_STATUS_IN_SERVICE) b then s
  else
    let s := (s.setBit p TP0.BANK_STATUS_IN_SERVICE b false).setBit p TP0.BANK_STATUS_RETIRE_PENDING b false
    let s := scaleShares k b s
    let s := if tileState s f t = 2 then setTileState f t 3 s else s
    let bs := (s.m.x.berths.filter fun r => berthInBank s k b r.slot).map fun r => r.slot.berth
    if cseqStopped s then bs.foldl (fun s b => suspendBerth b s) s
    else modBerths (fun r => bs.contains r.slot.berth) (fun r => { r with suspendAsked := true }) s

/-! ### Lanes (R656, R657) -/

/-- A lane leaves service at an end: out for good, and shed from its transmit direction under R654; while the link trains, a spare
is out at once and an active lane is shed as it comes UP (R657; log 70). -/
def retireLaneEnd (h e n : Nat) (s : State) : State :=
  if !endExists h e then s
  else
    let s := s.modHaw h e fun x => { x with gone := putBit x.gone n true }
    let x := s.haw h e
    if linkState s h e < 4 ∨ linkState s h e = 7 then s
    else if bitAt x.txSpare n then
      showLanes h e ((if laneState s h e n = 2 then setLane h e n 0 s else s).modHaw h e fun x =>
        { x with txSpare := putBit x.txSpare n false })
    else transmit h e (shedTx h e n s)

/-- An operator's lane retirement takes effect at both ends (R657). -/
def retireLane (f ctype cindex n : Nat) (s : State) : State :=
  let e := endOfCode ctype cindex
  let p := partnerEnd f e
  retireLaneEnd p.1 p.2 n (retireLaneEnd f e n s)

/-! ### Fields -/

/-- The identifiers of the tiles in use of a field. -/
def fieldLids (s : State) (f : Nat) : List Nat := ((lidMap s).filter fun p => p.2 / 512 == f).map Prod.fst

/-- The packets of a field's tiles and ends are lost with it: their parties are marked when the field was lost, and each
unit elsewhere gets its error response. -/
def dropPackets (f : Nat) (mark : Bool) (s : State) : State :=
  let here := fun (p : Pkt) => p.path.isEmpty && (p.dstField == f || match p.buf with | some b => b.1 / 128 == f | none => false)
  let lost := s.m.net.filter here
  lost.foldl (fun s p => lose p (if mark then (p.parties s).foldl (fun s l => markParty l s) s else s))
    (s.modNet fun n => n.filter fun p => !here p)

/-- Everything that the pages, tiles and ends of a field hold, gone with its clock or its rail (R126, R154). -/
def clearField (f : Nat) (s : State) : State :=
  let page := fun (a : Nat) => !((clsOf a == 4 || clsOf a == 8) && fieldOf a == f)
  let by' := fun {α : Type} (per : Nat) (m : List (Nat × α)) => keep (fun a => a / per / 512 != f) m
  let m := s.m
  { s with
    live := keep page s.live, shadow := keep page s.shadow
    m := { m with
      rigs := by' 1 m.rigs, dmem := by' 262144 m.dmem, imem := by' 4096 m.imem, dmemErr := by' 262144 m.dmemErr
      imemErr := by' 4096 m.imemErr, inject := by' 1 m.inject, fry := by' 1 m.fry, patrol := by' 8 m.patrol
      credits := by' 80 m.credits, granted := by' 16 m.granted, waits := by' 5 m.waits, ifWaits := by' 1 m.ifWaits
      haws := keep (fun a => a / 128 != f) m.haws
      reports := keep (· != f) m.reports, bistStart := keep (· != f) m.bistStart
      droopUntil := keep (· != f) m.droopUntil, releases := m.releases.filter fun k => k / 512 != f
      retire := m.retire.filter fun r => match r with
        | .tile g _ | .bank g _ _ | .field g => g != f
        | .lane _ _ _ _ => true
      x := { m.x with copies := m.x.copies.filter fun c => c.tile / 512 != f
                      collect := by' 1 m.x.collect, postSeq := by' 1 m.x.postSeq } } }

/-- BIST_CYCLES of a field whose self-test ends in its first final state (R165). -/
def bistCycles (f : Nat) (s : State) : State :=
  s.set (pgRostf f) ROSTF.BIST_CYCLES_CYCLES (min (s.m.wtime - lookup 0 s.m.bistStart f) (2 ^ 32 - 1))

/-- A field leaves the roster with its tiles: to a field state, its tiles to a tile state. Where it was lost (a trip, a lost
rail) its tiles are lost tiles (R339, R341); where it leaves at slack water they leave use. -/
def removeField (f fieldTo tileTo : Nat) (lost : Bool) (s : State) : State :=
  let was := fieldReady s f || fieldState s f == 8
  let s := if fieldState s f = 2 ∧ (fieldTo = 5 ∨ fieldTo = 6) then bistCycles f s else s
  let lids := fieldLids s f
  let s := lids.foldl (fun s l => if lost then markLost l s else loseUse l s) s
  let s := setAllTiles f tileTo (setFieldState f fieldTo s)
  let s := if was then dropDead f s else s
  let s := clearField f (dropPackets f lost s)
  if was then startRoutes s else s

/-! ### Retirements (R49, R213 to R215, R608) -/

/-- A retirement takes effect. -/
def applyRetire (r : Retire) (s : State) : State :=
  match r with
  | .tile f t => retireTile f t s
  | .bank f t b =>
    if tileState s f t = 0 ∨ tileState s f t = 5 ∨ tileState s f t = 6 then s else retireBank f t b s
  | .lane f c i n => retireLane f c i n s
  | .field f => if fieldState s f = 7 then s else removeField f 7 6 false s

/-- Everything that waits for slack water takes effect. -/
def applyRetirements (s : State) : State :=
  s.m.retire.foldl (fun s r => applyRetire r s) { s with m := { s.m with retire := [] } }

/-- A retirement in service: at the next slack water, or at once while CSEQ is stopped (R215, R465); a bank awaits it with
its RETIRE_PENDING bit set. The routers that it takes out of routes lose their ends at once (R157, R603, R664), and new routes are
computed for a tile, a lane or a field (R608). -/
def requestRetire (r : Retire) (s : State) : State :=
  let s := if cseqStopped s then applyRetire r s
    else
      let s := match r with
        | .bank f t b => s.setBit (pgTile f t 0) TP0.BANK_STATUS_RETIRE_PENDING b true
        | _ => s
      if s.m.retire.contains r then s else { s with m := { s.m with retire := s.m.retire ++ [r] } }
  match r with
  | .bank _ _ _ => s
  | .tile f _ | .field f => startRoutes (dropDead f s)
  | .lane _ _ _ _ => startRoutes s

/-- The retirement that a record means. -/
def retireOf (kind field loc : Nat) : Retire :=
  match kind with
  | 1 => .tile field (tileAt (bits loc 13 5) (bits loc 8 5))
  | 2 => .bank field (tileAt (bits loc 13 5) (bits loc 8 5)) (bits loc 0 3)
  | 3 => .lane field (bits loc 16 2) (bits loc 10 6) (bits loc 0 7)
  | _ => .field field

/-! ### Escalations at the roster (R35, R176, R208) -/

/-- The places of the mesh whose packets are lost with a tile: those at the tile, and among the places that the report names those in
the tile's field, which its router held on their way (R339; log 25). -/
def routerHolds (f t : Nat) (inRouter : List Nat) (i : Nat) (p : Pkt) : Bool :=
  p.path.isEmpty && p.buf.isNone && p.dstField == f && (p.dstTile == t || inRouter.contains i)

/-- A request to a tile that is lost, wherever it is, completes at once at the unit that issued it (R457). -/
def failRequest (f t : Nat) (p : Pkt) : Bool := p.vc == 0 && p.dstField == f && p.dstTile == t && !p.dead

/-- A packet held by the end with a key has not been delivered by the partner, which still expects its SEQ or an earlier one (R644). -/
def undelivered (s : State) (key v q : Nat) : Bool :=
  let p := partnerEnd (key / 128) (key % 128)
  decide ((q + 4096 - s.get (pgEnd p.1 p.2) (expField v)) % 4096 < 2048)

/-- The requests to a lost tile that channels and receive buffers still hold, each with its error response and each marked so that it
gets no second answer (R457). -/
def failRequests (f t : Nat) (s : State) : State :=
  let mark := fun (p : Pkt) => if failRequest f t p then { p with dead := true } else p
  let vc := fun (c : HVc) => { c with held := c.held.map fun e => (e.1, mark e.2), wait := c.wait.map mark }
  let sent := fun (key v : Nat) (c : HVc) => (c.held.filter fun e => undelivered s key v e.1).map Prod.snd
  let held := s.m.haws.flatMap fun e => sent e.1 0 e.2.v0 ++ sent e.1 1 e.2.v1 ++ e.2.v0.wait ++ e.2.v1.wait
  let open' := (s.m.net ++ held).filter (failRequest f t)
  let s := { s with m := { s.m with
    net := s.m.net.map mark, haws := s.m.haws.map fun e => (e.1, { e.2 with v0 := vc e.2.v0, v1 := vc e.2.v1 }) } }
  open'.foldl (fun s p => lose p s) s

/-- A tile is LOST (R176, R339): its router's packets are lost, its channel ends go down, every access to it that is outstanding
completes with an error (R457), and it is retired at the next slack water. -/
def loseTile (f t : Nat) (inRouter : List Nat) (s : State) : State :=
  let v := tileState s f t
  if !(v == 2 || v == 3 || v == 4 || v == 8) then s
  else
    let here := s.m.net.zipIdx.filter fun e => routerHolds f t inRouter e.2 e.1
    let s := here.foldl (fun s e => (e.1.parties s).foldl (fun s l => markParty l s) s) s
    let s := match lidOf s f t with
      | some l => markLost l s
      | none => s
    let s := setTileState f t 7 (deadRig (tileKey f t) s)
    let s := here.foldl (fun s e => lose e.1 s)
      (s.modNet fun n => (n.zipIdx.filter fun e => !routerHolds f t inRouter e.2 e.1).map Prod.fst)
    toDraining (requestRetire (.tile f t) (dropDead f (failRequests f t s)))

/-- An escalation's effect on the roster, the defect map and the logbook. -/
def escalation (e : Escalation) (s : State) : State :=
  match e with
  | .stop f t x =>
    let s := raiseEvent { code := 0x4001, field := f.val, tile := t.val, arg0 := x.toNat % 2 ^ 32,
                          arg1 := x.toNat / 2 ^ 32 % 2 ^ 32 } s
    let v := tileState s f.val t.val
    if (v = 2 ∨ v = 3) ∧ (s.rig (tileKey f.val t.val)).run = .escalated then setTileState f.val t.val 8 s else s
  | .tileLost f t inRouter =>
    loseTile f.val t.val inRouter (raiseEntry { code := 0x4002, field := f.val, tile := t.val }
      { kind := 1, source := 2, field := f.val, locator := tileLoc t.val } s).1
  | .bankUe f t b a =>
    requestRetire (.bank f.val t.val b.val)
      (raiseEntry { code := 0x4003, field := f.val, tile := t.val, arg0 := b.val, arg1 := a }
        { kind := 2, source := 2, field := f.val, locator := bankLoc t.val b.val } s).1
  | .laneRetired f e n =>
    let r := recordEnd f.val e.val
    let c := channelCode r.2
    startRoutes (raiseEntry { code := 0x4004, field := f.val, arg0 := e.val, arg1 := n }
      { kind := 3, source := 2, field := r.1, locator := laneLoc c.1 c.2 n } s).1
  | .linkBroken f e reason lost parties =>
    let s := raiseEvent { code := 0x4005, field := f.val, arg0 := e.val, arg1 := reason % 16 + lost % 65536 * 65536 } s
    startRoutes (fenceEnd f.val e.val (parties.foldl (fun s l => markParty l s) s))

/-- The field records that R198 adds at the end of an edge take effect as retirements of their own (R195). -/
def newFieldRecords (s0 s : State) : State :=
  let s := fieldRecords s
  ((retiredFields (retiredRecs s)).filter fun f => !fieldRetired s0 f && fieldState s f != 7).foldl
    (fun s f => requestRetire (.field f) s) s

/-- An escalation reaches the roster: one that has been raised, or the loss of a tile, which its surroundings report. -/
def reachRoster (e : Escalation) (s : State) : State :=
  let fresh := match e with
    | .tileLost _ _ _ => true
    | _ => s.m.x.escs.contains e
  if !fresh then s
  else
    let s1 := s.modX fun x => { x with escs := x.escs.erase e }
    settle s (newFieldRecords s (escalation e s1))

/-- ESCALATION_REACHES_ROSTER: an escalation reaches the roster (R35, R176, R208). -/
def execEscalationReachesRoster (e : Escalation) (s : State) : Out := ifAwake (reachRoster e) s

end Sys2Proof.Machine
end

