-- ==== Sys2Proof/Machine/Store.lean ====
section
/-! DEFINITION. The store landings (R311, R624, R625, R702 to R712, R714 to R716): ports, transfers and the drives'
requests. A store landing is named by its landing number, 8 to 11. -/
namespace Sys2Proof.Machine
open Sys2Proof

/-! ### Registers -/

def State.storeSt (s : State) (k : Nat) : StoreSt := lookup StoreSt.reset s.m.stores k
def State.setStoreSt (s : State) (k : Nat) (n : StoreSt) : State :=
  { s with m := { s.m with stores := put StoreSt.reset s.m.stores k n } }
def State.modStoreSt (s : State) (k : Nat) (g : StoreSt → StoreSt) : State := s.setStoreSt k (g (s.storeSt k))

/-- A field of PORT_STAT of a port. -/
def portStat (s : State) (k p : Nat) (F : Fld) : Nat := s.get (pgLanding k 0) (F.at p)
def setPortStat (k p : Nat) (F : Fld) (v : Nat) (s : State) : State := s.set (pgLanding k 0) (F.at p) v

/-- The port is up (R704). -/
def storeUp (s : State) (k p : Nat) : Bool := portStat s k p STRL.PORT_STAT_UP == 1
/-- The port's data link layer is active. -/
def storeLink (s : State) (k p : Nat) : Bool := portStat s k p STRL.PORT_STAT_LINK == 1

/-- Counter i of a port (R714). -/
def countStore (k p i : Nat) (s : State) : State :=
  s.bumpSat (pgLanding k 0) ((match p with
    | 0 => STRL.SCNT0 | 1 => STRL.SCNT1 | 2 => STRL.SCNT2 | _ => STRL.SCNT3).at i)

/-- A field of transfer slot i. -/
def slotGet (s : State) (k i : Nat) (F : Fld) : Nat := s.get (pgLanding k 1) (F.at i)
def slotSet (k i : Nat) (F : Fld) (v : Nat) (s : State) : State := s.set (pgLanding k 1) (F.at i) v

/-- A command of a port that the landing's mode uses (R714). -/
def ifStorePort (k : StoreId) (p : Fin 4) (g : State → State) (s : State) : Out :=
  ifLanding (8 + k.val) (fun s => if p.val < landingPorts s (8 + k.val) then g s else s) s

/-! ### Transfers (R707 to R710) -/

/-- The transfers changed where a slot is theirs. -/
def modXfer (k i : Nat) (g : Xfer → Xfer) (s : State) : State :=
  s.modStoreSt k fun n => { n with xfers := n.xfers.map fun x => if x.slot = i then g x else x }

/-- The transfer of a slot that waits or runs. -/
def xferOf (s : State) (k i : Nat) : Option Xfer := (s.storeSt k).xfers.find? fun x => x.slot == i

/-- The transfer that its port works on: the oldest that runs (R707). -/
def atHead (s : State) (k : Nat) (x : Xfer) : Bool :=
  ((s.storeSt k).xfers.find? fun y => y.port == x.port && y.start.isSome).map Xfer.slot == some x.slot

/-- A tile passed over by a transfer (R625), or its failure with COUNT 1 (R710). -/
def skipTile (k i lid : Nat) (s : State) : State :=
  match xferOf s k i with
  | none => s
  | some x =>
    if x.count = 1 then modXfer k i (fun x => { x with result := some (x.result.getD 0x06) }) s
    else if x.skipped.contains lid then s
    else
      let s := modXfer k i (fun x => { x with skipped := x.skipped ++ [lid] }) s
      s.bumpSat (pgLanding k 1) (STRLX.XSTAT_SKIPPED.at i)

/-- A request of a transfer to a tile (R624); TAG is the tile's place in the range (DESIGN CHOICE, log 40). -/
def xferSend (k i : Nat) (x : Xfer) (lid : Nat) (p : Pkt) (s : State) : State :=
  let q := landingSend k lid { p with unit := .xfer i, tag := (lid - x.base) % 65536 } s
  if q.2 then modXfer k i (fun x => { x with open' := x.open' + 1 }) q.1 else skipTile k i lid q.1

/-- One block written to every tile of the range in ascending order (R625). -/
def xferBlock (k i : Nat) (x : Xfer) (a : Nat) (bs : List Byte) (s : State) : State :=
  let p := if x.imem then { Pkt.blank with kind := 4, op := 2, addr := BitVec.ofNat 32 (a / 16), flits := bs
                                           data := BitVec.ofNat 32 bs.length }
    else { Pkt.blank with kind := 3, op := 2, addr := BitVec.ofNat 32 a, flits := bs, data := BitVec.ofNat 32 bs.length }
  (List.range x.count).foldl (fun s n => xferSend k i x ((x.base + n) % 65536) p s) s

/-- The destination of a transfer as a byte address: an IMEM bundle is 16 bytes. -/
def Xfer.at' (x : Xfer) : Nat := if x.imem then x.addr * 16 else x.addr

/-- Bytes from the drive written to the tiles, one aligned 256-byte block at a time. -/
def xferBlocks (k i : Nat) (x : Xfer) : Nat → Nat → List Byte → State → State
  | 0, _, _, s => s
  | n + 1, a, bs, s =>
    if bs = [] then s
    else
      let c := 256 - a % 256
      xferBlocks k i x n (a + c) (bs.drop c) (xferBlock k i x a (bs.take c) s)

/-- The BLOCK_READs of a transfer from tile to drive (R709). -/
def xferReads (k i : Nat) (x : Xfer) : Nat → Nat → State → State
  | 0, _, s => s
  | n + 1, o, s =>
    if x.len ≤ o then s
    else
      let c := min (256 - (x.addr + o) % 256) (x.len - o)
      let p := { Pkt.blank with kind := 7, op := 2, addr := BitVec.ofNat 32 (x.addr + o), data := BitVec.ofNat 32 c }
      xferReads k i x n (o + c) (xferSend k i x x.base p s)

/-! ### The commands of the drive (R705, R709) -/

/-- A port's NVMe controller. -/
def State.nvme (s : State) (k p : Nat) : Nvme := lookup Nvme.reset (s.storeSt k).nvme p
def modNvme (k p : Nat) (g : Nvme → Nvme) (s : State) : State :=
  s.modStoreSt k fun n => { n with nvme := put Nvme.reset n.nvme p (g (lookup Nvme.reset n.nvme p)) }

/-- Bytes that one command moves at most (DESIGN CHOICE, log 43). -/
def nvmeBytes : Nat := 65536

/-- The staging buffer of 16 MiB (DESIGN CHOICE, log 43): slot i has 512 KiB for its data, and 4 KiB for the PRP list of its command
for the n-th part of the transfer. -/
def stageData (i : Nat) : Nat := i * 0x80000
def stageList (i n : Nat) : Nat := 0x800000 + i * 0x10000 + n * 0x1000

/-- The I/O command of slot i for the n bytes from byte `at'` of its transfer on. -/
def nvmeCmd (i : Nat) (x : Xfer) (lbads at' n : Nat) : NvmeCmd :=
  let a := stageData i + at'
  let pages := (List.range ((n + 4095) / 4096)).map fun j => a + 4096 * j
  let part := at' / nvmeBytes
  { cid := 4 * i + part, slot := i, write := x.toDrive, fua := x.toDrive, lba := (x.lba + at' / 2 ^ lbads) % 2 ^ 64
    blocks := n / 2 ^ lbads, prp1 := a
    prp2 := if pages.length ≤ 1 then 0 else if pages.length = 2 then a + 4096 else stageList i part
    list := if pages.length ≤ 2 then [] else pages.drop 1
    data := if x.toDrive then (x.staged.drop at').take n else [] }

/-- The commands for the parts of a transfer between two bytes. -/
def nvmeCmds (i : Nat) (x : Xfer) (lbads : Nat) : Nat → Nat → Nat → List NvmeCmd
  | 0, _, _ => []
  | m + 1, at', upTo =>
    if upTo ≤ at' then []
    else nvmeCmd i x lbads at' (min nvmeBytes (upTo - at')) :: nvmeCmds i x lbads m (at' + nvmeBytes) upTo

/-- Commands put into the I/O submission queue of a transfer's port. -/
def submit (k : Nat) (x : Xfer) (at' upTo : Nat) (s : State) : State :=
  let l := nvmeCmds x.slot x (portStat s k x.port STRL.PORT_STAT_LBADS) 4 at' upTo
  if l = [] then s else modNvme k x.port (fun n => { n with io := n.io ++ l }) s

/-- The Writes of the parts that the tile's bytes have filled. -/
def submitWrites (k i : Nat) (s : State) : State :=
  match xferOf s k i with
  | none => s
  | some x =>
    let full := if x.staged.length = x.len then x.len else x.staged.length / nvmeBytes * nvmeBytes
    if !x.toDrive || x.result.isSome || decide (full ≤ x.issued) then s
    else modXfer k i (fun x => { x with issued := full }) (submit k x x.issued full s)

/-- The transfer at the head of its port begins: Reads of the drive, or BLOCK_READs of the tile. -/
def askTile (k : Nat) (s : State) (x : Xfer) : State :=
  if x.start.isSome && !x.asked && x.result.isNone && atHead s k x then
    let s := modXfer k x.slot (fun x => { x with asked := true }) s
    if x.toDrive then xferReads k x.slot x (x.len / 256 + 2) 0 s else submit k x 0 x.len s
  else s

/-- Every transfer that has come to the head of its port begins. -/
def askTiles (k : Nat) (s : State) : State := (s.storeSt k).xfers.foldl (askTile k) s

/-- A transfer ends with a result (R710, R716). -/
def endXfer (k i res : Nat) (s : State) : State :=
  match xferOf s k i with
  | none => s
  | some x =>
    let s := s.modStoreSt k fun n => { n with xfers := n.xfers.filter fun y => y.slot != i }
    let s := modNvme k x.port (fun n => { n with io := n.io.filter fun c => c.slot != i }) s
    let s := slotSet k i STRLX.XBYTES_BYTES x.moved (slotSet k i STRLX.XSTAT_RESULT res (slotSet k i STRLX.XSTAT_STATE 3 s))
    askTiles k (if res = 0 then s else setError (pgLanding k 0) 16 s)

/-- The result that a transfer has before it moves anything, if any: RANGE, or PORT_DOWN (R708). -/
def firstResult (s : State) (k : Nat) (x : Xfer) : Option Nat :=
  let n := x.blocks * 2 ^ portStat s k x.port STRL.PORT_STAT_LBADS
  if x.reserved ∨ x.blocks = 0 ∨ x.count = 0 ∨ 4096 < x.count ∨ (x.toDrive ∧ (x.count ≠ 1 ∨ x.imem)) then some 0x01
  else if !storeUp s k x.port then some 0x02
  else if 262144 < n ∨ (!x.imem ∧ 0x40000 < x.addr + n) ∨ (x.imem ∧ (n % 16 ≠ 0 ∨ 4096 < x.addr + n / 16)) then some 0x01
  else none

/-- A transfer starts (R311, R708, R709). -/
def startXferAt (k i : Nat) (inCrossing : Bool) (s : State) : State :=
  match xferOf s k i with
  | none => s
  | some x =>
    let n := x.blocks * 2 ^ portStat s k x.port STRL.PORT_STAT_LBADS
    let s := modXfer k i (fun x => { x with start := some s.m.wtime, inCrossing := inCrossing, len := n })
      (slotSet k i STRLX.XSTAT_STATE 2 s)
    match firstResult s k x with
    | some res => endXfer k i res s
    | none => askTiles k s

/-- The transfers that wait at a landing start at an opening (R311). -/
def startWaiting (s : State) (k : Nat) : State :=
  (((s.storeSt k).xfers.filter fun x => x.start.isNone).map Xfer.slot).foldl (fun s i => startXferAt k i true s) s

/-- A write of XCTL: the fields, then GO (R707, R715). -/
def xctlWrite (k i : Nat) (v : Word) (s : State) : State :=
  let x := v.toNat
  let s := slotSet k i STRLX.XCTL_PORT (bits x 8 2) (slotSet k i STRLX.XCTL_DKIND (bits x 5 1)
    (slotSet k i STRLX.XCTL_DIR (bits x 4 1) s))
  if !bitAt x 0 || (xferOf s k i).isSome then s
  else
    let xf : Xfer := { slot := i, port := bits x 8 2, toDrive := bitAt x 4, imem := bitAt x 5
                       base := slotGet s k i STRLX.TILES_BASE, count := slotGet s k i STRLX.TILES_COUNT
                       addr := slotGet s k i STRLX.TADDR_ADDR
                       lba := slotGet s k i STRLX.LBA_LO_LBA + slotGet s k i STRLX.LBA_HI_LBA * 2 ^ 32
                       blocks := slotGet s k i STRLX.BLOCKS_COUNT
                       reserved := (x &&& 0xFFFFFCCE) != 0, start := none, inCrossing := false, len := 0, asked := false, issued := 0
                       moved := 0, open' := 0, staged := [], skipped := [], result := none }
    let s := s.modStoreSt k fun n => { n with xfers := n.xfers ++ [xf] }
    let s := slotSet k i STRLX.XBYTES_BYTES 0 (slotSet k i STRLX.XSTAT_SKIPPED 0 (slotSet k i STRLX.XSTAT_RESULT 0
      (slotSet k i STRLX.XSTAT_STATE 1 s)))
    if cseqState s ≤ 1 then startXferAt k i (cseqState s == 1) s else s

/-- XCTL_GO: XCTL of a transfer slot is written (R707). -/
def execXctlGo (k : StoreId) (i : Fin 16) (v : Word) (s : State) : Out :=
  ifReach (pgLanding (8 + k.val) 1) (xctlWrite (8 + k.val) i.val v) s

/-- The oldest command of a slot that the drive has not completed. -/
def nextCmd (s : State) (k i : Nat) (x : Xfer) : Option NvmeCmd := (s.nvme k x.port).io.find? fun c => c.slot == i

/-- Bytes of a command. -/
def NvmeCmd.bytes (c : NvmeCmd) (lbads : Nat) : Nat := c.blocks * 2 ^ lbads

/-- The oldest command of a slot completes with a status (R705, R709, R710): a Read with the bytes that it has brought, which go to
the tiles. A transfer that has already failed moves nothing more. -/
def nvmeDone (k i status : Nat) (data : List Byte) (s : State) : State :=
  match xferOf s k i with
  | none => s
  | some x =>
    match nextCmd s k i x with
    | none => s
    | some c =>
      let n := c.bytes (portStat s k x.port STRL.PORT_STAT_LBADS)
      if status = 0 ∧ !c.write ∧ data.length ≠ n then s
      else
        let s := countStore k x.port (if status = 0 then 0 else 1)
          (modNvme k x.port (fun m => { m with io := m.io.erase c }) s)
        if x.result.isSome then s
        else if status ≠ 0 then modXfer k i (fun x => { x with result := some 0x03 }) s
        else
          let s := if c.write then s else xferBlocks k i x (n / 256 + 2) (x.at' + x.moved) data s
          slotSet k i STRLX.XBYTES_BYTES (x.moved + n) (modXfer k i (fun x => { x with moved := x.moved + n }) s)

/-- NVME_COMPLETION: a drive completes a command of a running transfer (R709). -/
def execNvmeCompletion (k : StoreId) (i : Fin 16) (status : Nat) (data : List Byte) (s : State) : Out :=
  ifLanding (8 + k.val) (nvmeDone (8 + k.val) i.val status data) s

/-- A running transfer ends once nothing of it is open, at its tiles or at the drive. -/
def xferComplete (k i : Nat) (s : State) : State :=
  match xferOf s k i with
  | none => s
  | some x =>
    if x.start.isSome && x.open' == 0 && (nextCmd s k i x).isNone && (x.result.isSome || x.moved == x.len) then
      endXfer k i (x.result.getD 0) s
    else s

/-- STORE_TRANSFER_COMPLETE: a store transfer completes with its result (R710). -/
def execStoreTransferComplete (k : StoreId) (i : Fin 16) (s : State) : Out :=
  ifLanding (8 + k.val) (xferComplete (8 + k.val) i.val) s

/-- A response to a transfer's request: an answer, an error, or block data, from which Writes follow. -/
def xferAnswer (k i tag : Nat) (ok : Bool) (bytes : List Byte) (s : State) : State :=
  match xferOf s k i with
  | none => s
  | some x =>
    let s := modXfer k i (fun x => { x with open' := x.open' - 1, staged := x.staged ++ bytes }) s
    if ok then submitWrites k i s else skipTile k i ((x.base + tag) % 65536) s

/-! ### Ports (R703, R704, R711) -/

/-- A port's running transfers end LINK_DOWN. -/
def endPort (k p : Nat) (s : State) : State :=
  (((s.storeSt k).xfers.filter fun x => x.port == p && x.start.isSome).map Xfer.slot).foldl
    (fun s i => endXfer k i 0x05 s) s

/-- A port loses its link: LINK_DOWN counted when it had one, its UP bit an alert event (R710, R716). -/
def portLost (k p : Nat) (s : State) : State :=
  let was := storeUp s k p
  let s := if storeLink s k p then countStore k p 3 s else s
  let s := [STRL.PORT_STAT_UP, STRL.PORT_STAT_LINK, STRL.PORT_STAT_GEN, STRL.PORT_STAT_WIDTH, STRL.PORT_STAT_LBADS].foldl
    (fun s F => setPortStat k p F 0 s) s
  let s := modNvme k p (fun _ => .reset) (endPort k p s)
  if was then pageEvent (pgLanding k 0) (onRoster (setPort k p false) s) else s

/-- The PE_PERST_N outputs of a port: all four carry the state of the one x16 port (R68). -/
def perstPins (s : State) (k p : Nat) : List Nat := if landingPorts s k = 1 then [0, 1, 2, 3] else [p]

/-- PE_PERST_N of a port goes low. -/
def lowerPerst (k p : Nat) (s : State) : State :=
  s.modStoreSt k fun n => { n with perst := (perstPins s k p).foldl (fun l q => insert q s.m.wtime l) n.perst }

/-- PE_PERST_N of a port is low. -/
def inReset (s : State) (k p : Nat) : Bool := (s.storeSt k).perst.any fun q => q.1 == p

/-- A port reset: PE_PERST_N goes low (R703). -/
def resetPort (k p : Nat) (s : State) : State := lowerPerst k p (portLost k p s)

/-- Every port of a landing reset: at the rise of its rail, and on a change of MODE or MAX_GEN (R703). -/
def resetPorts (k : Nat) (s : State) : State := (List.range 4).foldl (fun s p => resetPort k p s) s

/-- A transfer that has run for more than XFER_TIMEOUT ms: WTIME runs to that edge, the transfer ends TIMEOUT, and its port
is reset (R711). -/
def xferTimeout (k i : Nat) (s : State) : State :=
  match (xferOf s k i).bind fun x => x.start.map fun w => (x.port, w) with
  | some (p, w) =>
    let s := s.atTime (max s.m.wtime (w + s.get (pgLanding k 0) STRL.SCTL_XFER_TIMEOUT * 1200000))
    resetPort k p (endXfer k i 0x04 s)
  | none => s

/-- XFER_TIMEOUT: a transfer runs past its timeout (R711). -/
def execXferTimeout (k : StoreId) (i : Fin 16) (s : State) : Out :=
  ifLanding (8 + k.val) (xferTimeout (8 + k.val) i.val) s

/-- A port's reset ends, 100 ms after it began or later. -/
def releasePerst (k p : Nat) (s : State) : State :=
  match (s.storeSt k).perst.find? fun q => q.1 == p with
  | none => s
  | some q =>
    let pins := perstPins s k p
    (s.atTime (max s.m.wtime (q.2 + 120000000))).modStoreSt k fun n =>
      { n with perst := n.perst.filter fun q => !pins.contains q.1 }

/-- PE_PERST_N_RELEASE: a port's reset period ends (R68, R703). -/
def execPePerstNRelease (k : StoreId) (p : Fin 4) (s : State) : Out :=
  ifLanding (8 + k.val) (releasePerst (8 + k.val) p.val) s

/-- The lanes of a port (R702). -/
def portLanes (s : State) (k : Nat) : Nat := if landingPorts s k = 1 then 16 else 4

/-- A link comes up with a rate, at most MAX_GEN, and a width, at most that of the port (R702, R704). -/
def storeLinkUp (k p gen width : Nat) (s : State) : State :=
  if inReset s k p || storeLink s k p || decide (s.get (pgLanding k 0) STRL.SCTL_MAX_GEN < gen) ||
    decide (portLanes s k < width) || width == 0 then s
  else modNvme k p (fun n => { n with upAt := s.m.wtime }) (setPortStat k p STRL.PORT_STAT_WIDTH width
    (setPortStat k p STRL.PORT_STAT_GEN gen (setPortStat k p STRL.PORT_STAT_LINK 1 s)))

/-- STORE_LINK_UP: a port's PCI Express link comes up (R704). -/
def execStoreLinkUp (k : StoreId) (p : Fin 4) (gen width : Nat) (s : State) : Out :=
  ifStorePort k p (storeLinkUp (8 + k.val) p.val gen width) s

/-- The admin commands that bring a controller up (R704, R705): Identify of the controller and of namespace 1, and the I/O queue pair
of 64 entries. -/
def bringUp : List NvmeAdmin := [.identify 1 0, .identify 0 1, .createCq 1 64, .createSq 1 64 1]

/-- The controller is ready with a namespace of 512-byte or 4,096-byte blocks (R704). -/
def storePortUp (k p lbads : Nat) (s : State) : State :=
  if storeLink s k p && !storeUp s k p && (lbads == 9 || lbads == 12) then
    let s := modNvme k p (fun n => { n with admin := bringUp }) s
    let s := setPortStat k p STRL.PORT_STAT_LBADS lbads (setPortStat k p STRL.PORT_STAT_UP 1 s)
    pageEvent (pgLanding k 0) (onRoster (setPort k p true) s)
  else s

/-- STORE_PORT_UP: a store port is up (R704). -/
def execStorePortUp (k : StoreId) (p : Fin 4) (lbads : Nat) (s : State) : Out :=
  ifStorePort k p (storePortUp (8 + k.val) p.val lbads) s

/-- A device is not ready 2 s after link-up. -/
def deviceLate (k p : Nat) (s : State) : State :=
  if storeLink s k p && !storeUp s k p then
    resetPort k p (s.atTime (max s.m.wtime ((s.nvme k p).upAt + 2400000000)))
  else s

/-- DEVICE_READY_TIMEOUT: a device not ready 2 s after link-up has its port reset (R704). -/
def execDeviceReadyTimeout (k : StoreId) (p : Fin 4) (s : State) : Out :=
  ifStorePort k p (deviceLate (8 + k.val) p.val) s

/-- STORE_LINK_DOWN: a store port goes down (R710). -/
def execStoreLinkDown (k : StoreId) (p : Fin 4) (s : State) : Out :=
  ifStorePort k p (fun s => if storeLink s (8 + k.val) p.val then portLost (8 + k.val) p.val s else s) s

/-! ### The drives' requests (R702, R706) -/

/-- An inbound request: to the staging-buffer region of a transfer slot, to the MSI-X address, or elsewhere. -/
def inboundRequest (k p : Nat) (target : Inbound) (s : State) : State :=
  match target with
  | .msix => countStore k p 4 s
  | .staging i =>
    if (s.storeSt k).xfers.any fun x => x.slot == i.val && x.port == p && x.start.isSome then s else countStore k p 2 s
  | .other => countStore k p 2 s

/-- INBOUND_REQUEST: a device's request is taken, or gets Unsupported Request (R706). -/
def execInboundRequest (k : StoreId) (p : Fin 4) (target : Inbound) (s : State) : Out :=
  ifStorePort k p (fun s => if storeLink s (8 + k.val) p.val then inboundRequest (8 + k.val) p.val target s else s) s

/-- INT_DROP: an INTx or MSI message is dropped and counted (R702). -/
def execIntDrop (k : StoreId) (p : Fin 4) (s : State) : Out := ifStorePort k p (countStore (8 + k.val) p.val 7) s

/-- AER_ERROR: an AER error counted as correctable or uncorrectable (R702). -/
def execAerError (k : StoreId) (p : Fin 4) (uncorrectable : Bool) (s : State) : Out :=
  ifStorePort k p (countStore (8 + k.val) p.val (if uncorrectable then 6 else 5)) s

end Sys2Proof.Machine
end

