-- ==== Sys2Proof/Machine/Hoist.lean ====
section
/-! DEFINITION. The hoist (R242 to R261): its commands, the course of a check, the error FIFO and the hoist instant. -/
namespace Sys2Proof.Machine
open Sys2Proof

/-- The state with the hoist sequencer's own part changed. -/
def State.modH (s : State) (g : HoistSt → HoistSt) : State := { s with m := { s.m with hoist := g s.m.hoist } }

/-- HOIST_STATUS.STATE: 0 IDLE, 1 CHECKING, 2 ARMED. -/
def hoistState (s : State) : Nat := s.get pgHoist HOIST.HOIST_STATUS_STATE
def setHoistState (v : Nat) (s : State) : State := s.set pgHoist HOIST.HOIST_STATUS_STATE v

/-! ### CHECK, ARM, DISARM and ABORT (R242 to R245, R253, R254) -/

/-- The dirty pages, ascending (R242). -/
def dirtyPages (s : State) : List Nat :=
  (s.live.filter fun e => decide (offOf e.1 = 0x018) && e.2.getLsbD 0).map fun e => pageOf e.1

/-- Every page of the set locked or unlocked. -/
def lockSet (b : Bool) (s : State) : State :=
  s.m.hoist.set.foldl (fun s p => s.set p HDR.STAGE_STATUS_LOCKED (bit b)) s

/-- A check starts (R242, R243, R245, R253). -/
def startCheck (arming : Bool) (s : State) : State :=
  if hoistState s ≠ 0 then s.set pgHoist HOIST.HOIST_STATUS_REFUSED 1
  else
    let set := dirtyPages s
    let s := s.modH fun _ => { HoistSt.reset with set := set, arming := arming, checkStart := s.m.wtime }
    let s := (setHoistState 1 (lockSet true s)).set pgHoist HOIST.SET_PAGES_COUNT set.length
    (s.set pgHoist HOIST.OFFENCES_COUNT 0).set pgHoist HOIST.HOIST_STATUS_PAUSED 0

/-- STATE returns to IDLE and the set is unlocked. -/
def toIdle (s : State) : State :=
  let s := setHoistState 0 ((lockSet false s).set pgHoist HOIST.HOIST_STATUS_PAUSED 0)
  s.modH fun h => { h with armed := none, todo := [], judged := false }

/-- CHECK: the set is formed and locked and the checker runs (R253). -/
def execCheck (s : State) : Out := ifAwake (startCheck false) s
/-- ARM: as CHECK; on a pass the hoist is armed (R253). -/
def execArm (s : State) : Out := ifAwake (startCheck true) s

/-- A DISARM in a state (R253). -/
def disarm (s : State) : State := if hoistState s = 2 then toIdle s else s
/-- DISARM: an armed hoist returns to IDLE; its pages stay dirty (R253). -/
def execDisarm (s : State) : Out := ifAwake disarm s

/-- An ABORT in a state (R253); the pages' VERDICT and FIRST_RULE stay as they are (DESIGN CHOICE, log 51). -/
def abort (s : State) : State := if hoistState s = 1 then (toIdle s).set pgHoist HOIST.HOIST_STATUS_VERDICT 4 else s
/-- ABORT: a running check stops; what is in the FIFO stays (R253). -/
def execAbort (s : State) : Out := ifAwake abort s

/-! ### The check (R247 to R251, R255, R256) -/

/-- An entry put in the FIFO, with its marks on its page (R247). -/
def pushEntry (s : State) (x : BitVec 64) : State :=
  let a := x.toNat % 2 ^ 40
  let p := pageOf a
  let rule := x.toNat / 2 ^ 56
  let first := s.get p HDR.STAGE_STATUS_FIRST_RULE
  let s := (s.set p HDR.STAGE_STATUS_VERDICT 2).set p HDR.STAGE_STATUS_FIRST_RULE
    (if first = 0 then rule else min first rule)
  let s := setError p 1 (s.bumpSat pgHoist HOIST.OFFENCES_COUNT)
  s.modH fun h => { h with fifo := h.fifo ++ [x] }

/-- The checker puts entries in the FIFO as far as it has room; PAUSED while some are left (R250). -/
def pushEntries (s : State) : State :=
  let h := s.m.hoist
  let n := 64 - h.fifo.length
  let was := s.on pgHoist HOIST.HOIST_STATUS_PAUSED
  let s := (h.todo.take n).foldl pushEntry (s.modH fun h => { h with todo := h.todo.drop n })
  let now := decide (n < h.todo.length)
  let s := s.set pgHoist HOIST.HOIST_STATUS_PAUSED (bit now)
  s.modH fun h =>
    if now && !was then { h with pausedAt := s.m.wtime }
    else if was && !now then { h with checkStart := h.checkStart + (s.m.wtime - h.pausedAt) } else h

/-- The checker has worked out its offences; the pages of the set begin with no verdict. -/
def judgeSet (s : State) : State :=
  let es := checkEntries s.m.hoist.set s
  let s := s.m.hoist.set.foldl (fun s p =>
    (s.set p HDR.STAGE_STATUS_VERDICT 0).set p HDR.STAGE_STATUS_FIRST_RULE 0) s
  pushEntries (s.modH fun h => { h with judged := true, todo := es })

/-- HOIST_WTIME. -/
def hoistWtime (s : State) : Nat := s.get2 pgHoist HOIST.HOIST_WTIME_LO_WTIME HOIST.HOIST_WTIME_HI_WTIME

/-- A check that has passed arms its hoist, unless its instant is late (R255, R256). -/
def armPassed (s : State) : State :=
  let slack := s.on pgHoist HOIST.HOIST_WHEN_MODE
  if !slack && decide (hoistWtime s < s.m.wtime + 64) then
    (toIdle s).set pgHoist HOIST.HOIST_STATUS_VERDICT 3
  else
    let a : HoistArm := ⟨slack, hoistWtime s, s.m.wtime⟩
    (setHoistState 2 s).modH fun h => { h with armed := some a }

/-- The verdicts of a check whose entries are all in the FIFO (R247, R251, R253). -/
def finishCheck (s : State) : State :=
  let h := s.m.hoist
  let s := s.set pgHoist HOIST.CHECK_CYCLES_CYCLES (min (s.m.wtime - h.checkStart) (240000 + 8 * h.set.length))
  let s := h.set.foldl (fun s p =>
    if s.get p HDR.STAGE_STATUS_VERDICT = 2 then s else s.set p HDR.STAGE_STATUS_VERDICT 1) s
  if s.get pgHoist HOIST.OFFENCES_COUNT ≠ 0 then (toIdle s).set pgHoist HOIST.HOIST_STATUS_VERDICT 2
  else
    let s := s.set pgHoist HOIST.HOIST_STATUS_VERDICT 1
    if h.arming then armPassed s else toIdle s

/-- The end of a check, or its pause on a full FIFO (R247, R250). -/
def checkEnd (s : State) : State :=
  if hoistState s ≠ 1 then s
  else
    let s := if s.m.hoist.judged then s else judgeSet s
    if s.m.hoist.todo = [] then finishCheck s else s

/-- CHECK_END: the checker completes, or pauses while its FIFO is full (R247, R250). -/
def execCheckEnd (s : State) : Out := ifAwake checkEnd s

/-- A read of FIFO_HI removes the head; a paused checker goes on (R250). -/
def popFifo (s : State) : State :=
  let s := s.modH fun h => { h with fifo := h.fifo.tail }
  if hoistState s = 1 then pushEntries s else s

/-- FIFO_HI_READ (R250). -/
def execFifoHiRead (s : State) : Out := ifAwake popFifo s

/-! ### The hoist instant (R257 to R260) -/

/-- The shares of a tile matrix page just applied, scaled for its banks out of service (R259 step 4, R586). -/
def scaleApplied (p : Nat) (s : State) : State :=
  if kindOf p ≠ some .tile1 then s
  else
    let k := tileKey (fieldOf p) (tileOf p)
    ((List.range 8).filter fun b => !bitAt (s.get (p0 k) TP0.BANK_STATUS_IN_SERVICE) b).foldl
      (fun s b => if (List.range 5).any (fun m => shareOf s k m b != 0) then scaleShares k b s else s) s

/-- Bay entries that have become live or changed get their header (R689); `old` is the state before the instant. -/
def headerChanged (old : State) (p : Nat) (s : State) : State :=
  if kindOf p ≠ some .netlBay then s
  else
    let k := fieldOf p
    let js := (validBays s k).filter fun j => decide (j / 1008 + 8 = pageNoOf p) &&
      s.word (p + 0x40 + 4 * (j % 1008)) != old.word (p + 0x40 + 4 * (j % 1008))
    match (s.netSt k).released with
    | some m => js.foldl (fun s j => bayHeader k m j s) s
    | none => s

/-- MODE or MAX_GEN of a store landing has changed: its ports are reset (R703). -/
def resetChanged (old : State) (p : Nat) (s : State) : State :=
  if kindOf p = some .strl ∧ (s.get p STRL.SCTL_MODE ≠ old.get p STRL.SCTL_MODE ∨
      s.get p STRL.SCTL_MAX_GEN ≠ old.get p STRL.SCTL_MAX_GEN) then resetPorts (fieldOf p) s
  else s

/-- A page that cannot be reached is dropped from the set (R259 step 2). -/
def dropPage (p : Nat) (s : State) : State := (discardPage p s).set p HDR.STAGE_STATUS_LOCKED 0

/-- The hoist takes effect on this edge (R259, steps 2 to 4). -/
def hoistNow (old : State) : State :=
  let set := old.m.hoist.set
  let gone := set.filter fun p => !reachable old p
  let stay := set.filter (reachable old)
  let s := stay.foldl (fun s p => applyPage p s) (gone.foldl (fun s p => dropPage p s) old)
  let s := stay.foldl (fun s p => resetChanged old p (headerChanged old p (scaleApplied p s))) s
  let s := s.set2 pgHoist HOIST.LAST_INSTANT_LO_WTIME HOIST.LAST_INSTANT_HI_WTIME s.m.wtime
  let s := (s.bump pgHoist HOIST.HOIST_COUNT_COUNT).set pgHoist HOIST.MISSED_COUNT gone.length
  setHoistState 0 (s.modH fun h => { h with set := [], armed := none })

/-- What of an armed hoist falls on a final slack-water edge: one armed for slack water, and one whose WTIME has come within
the boundary, which is deferred (R257, R258). -/
def hoistAtSlack (s : State) : State :=
  match s.m.hoist.armed with
  | none => s
  | some a =>
    if a.slack then hoistNow s
    else if a.wtime ≤ s.m.wtime then hoistNow (s.set pgHoist HOIST.HOIST_STATUS_DEFERRED 1)
    else s

/-- An armed hoist's instant outside a final slack-water edge: 64 cycles after a pass while CSEQ is stopped, or at its WTIME;
one within a boundary is deferred (R257, R258). -/
def hoistInstant (s : State) : State :=
  match s.m.hoist.armed with
  | none => s
  | some a =>
    let st := cseqState s
    if a.slack then
      if st = 0 ∧ !s.m.x.openReq then hoistNow (s.atTime (max s.m.wtime (a.passAt + 64))) else s
    else if st = 0 ∨ (st = 1 ∧ max s.m.wtime a.wtime < s.m.x.closeAt) then
      if st = 0 ∧ s.m.x.openReq ∧ s.m.wtime < a.wtime then s
      else hoistNow (s.atTime (max s.m.wtime a.wtime))
    else if 2 ≤ st ∧ !s.m.x.openReq then
      (s.atTime (max s.m.wtime a.wtime)).set pgHoist HOIST.HOIST_STATUS_DEFERRED 1 |>.modH
        fun h => { h with armed := some { a with slack := true } }
    else s

/-- HOIST_INSTANT: every shadow of the set is applied on one edge (R257 to R259). -/
def execHoistInstant (s : State) : Out := ifAwake (onRoster hoistInstant) s

end Sys2Proof.Machine
end

