-- ==== Sys2Proof/Machine/Logbook.lean ====
section
/-! DEFINITION. The logbook's commands (R748 to R762). -/
namespace Sys2Proof.Machine
open Sys2Proof

/-- The slot of a sequence number (R749). -/
def logSlot (s : State) (seq : Nat) : BitVec 256 := lookup 0 s.log.ring (seq % 8192)

/-- The slot's CHECK is right. -/
def checkRight (b : BitVec 256) : Bool := b.toNat / 2 ^ 224 == eventCheck (b.toNat % 2 ^ 224)

/-- A slot holds an event that ACK_SEQ has not passed (R752). -/
def slotUnsaved (s : State) (old : BitVec 256) : Bool :=
  old != 0 && checkRight old &&
    decide ((old.toNat % 2 ^ 32 + 2 ^ 32 - s.get pgLogb LOGB.ACK_SEQ_SEQ) % 2 ^ 32 < unsaved s)

/-- A slot written with an event, or with what a cut-off write left of it. -/
def setSlot (s : State) (seq : Nat) (b : BitVec 256) : State :=
  { s with log := { s.log with ring := put 0 s.log.ring (seq % 8192) b } }

/-- The slot of the queue's head written (R751, R752, R761). -/
def logbookWrite (s : State) : State :=
  match s.log.queue with
  | [] => s
  | e :: rest =>
    let old := logSlot s (e.toNat % 2 ^ 32)
    let s := setSlot { s with log := { s.log with queue := rest } } (e.toNat % 2 ^ 32) e
    if slotUnsaved s old then
      let s := s.bumpSat pgLogb LOGB.COUNTS_OVERWRITTEN
      if (s.word (pgLogb + 0x00C)).getLsbD 17 then s else logAlert 17 s
    else s

/-- LOGBOOK_WRITE: the Mast writes the oldest queued event into its slot (R751). -/
def execLogbookWrite (s : State) : Out := ifStandby logbookWrite s

/-- The eight READ_WORDs and READ_STATUS set (R759). -/
def setReadWindow (st : Nat) (b : BitVec 256) (s : State) : State :=
  (List.range 8).foldl (fun s i => s.set pgLogb (LOGB.READ_WORD_WORD.at i) (bits b.toNat (32 * i) 32))
    (s.set pgLogb LOGB.READ_STATUS_STATE st)

/-- A write of READ_SEQ (R759). -/
def readSeq (v : Word) (s : State) : State :=
  let s := s.set pgLogb LOGB.READ_SEQ_SEQ v.toNat
  let b := logSlot s v.toNat
  if b = 0 then setReadWindow 1 0 s
  else if !checkRight b then setReadWindow 2 0 (s.bumpSat pgLogb LOGB.TORN_COUNT)
  else if b.toNat % 2 ^ 32 = v.toNat then setReadWindow 0 b s
  else setReadWindow 1 0 s

/-- READ_SEQ: the selected slot is copied into READ_STATUS and READ_WORD (R759). -/
def execReadSeq (v : Word) (s : State) : Out := ifStandby (readSeq v) s

/-- A write of ACK_SEQ (R760): bit [18] of PAGE_ERROR is BAD_ACK. -/
def ackSeq (v : Word) (s : State) : State :=
  if (v.toNat + 2 ^ 32 - s.get pgLogb LOGB.ACK_SEQ_SEQ) % 2 ^ 32 ≤ unsaved s then s.set pgLogb LOGB.ACK_SEQ_SEQ v.toNat
  else setError pgLogb 18 s

/-- ACK_SEQ: the saved point moves forward, or the write is refused (R760). -/
def execAckSeq (v : Word) (s : State) : Out := ifStandby (ackSeq v) s

/-- A write of SERVICE_MARK (R762). -/
def serviceMark (v : Word) (s : State) : State :=
  if s.on pgLogb LOGB.SERVICE_REASON_MARKED then s else s.set pgLogb LOGB.SERVICE_MARK_REFERENCE v.toNat

/-- SERVICE_MARK: the return reference is stored while no mark exists (R762). -/
def execServiceMark (v : Word) (s : State) : Out := ifStandby (serviceMark v) s

/-- A write of SERVICE_REASON (R762). -/
def serviceReason (reason : Byte) (s : State) : State :=
  if s.on pgLogb LOGB.SERVICE_REASON_MARKED then s
  else
    let s := (s.set pgLogb LOGB.SERVICE_REASON_REASON reason.toNat).set pgLogb LOGB.SERVICE_REASON_MARKED 1
    raiseEvent { code := 0x5002, arg0 := s.get pgLogb LOGB.SERVICE_MARK_REFERENCE, arg1 := reason.toNat } s

/-- SERVICE_REASON: the mark is set, with its event (R762). -/
def execServiceReason (reason : Byte) (s : State) : Out := ifStandby (serviceReason reason) s

end Sys2Proof.Machine
end

