-- ==== Sys2Proof/Machine/Port.lean ====
section
/-! DEFINITION. Frames of the management port: their judgement, rejection, the status record and the command in progress (R269
to R290). -/
namespace Sys2Proof.Machine
open Sys2Proof

/-- The CRC of the port, CRC-16/CCITT (R276). -/
def portCrc (bs : List Byte) : Nat := (crc16 bs &&& 0xFFFF).toNat

/-- N of a command code, and the number of bytes its CRC covers; none for an unknown command (R274). -/
def frameShape (code : Nat) : Option (Nat × Nat) :=
  match code with
  | 0x01 => some (20, 2)
  | 0x10 => some (9, 7)
  | 0x11 => some (13, 11)
  | 0x20 | 0x21 => some (4, 2)
  | _ => none

/-- What R277 makes of a frame. -/
inductive Judgement
  | noFrame
  | rejected (reason : Nat)
  | taken
deriving DecidableEq, Repr

def frameByte (f : Frame) (i : Nat) : Nat := (f.bytes.getD i 0).toNat

/-- The number that some bytes spell, least significant byte first (R275). -/
def lsbFirst (bs : List Byte) : Nat := bs.foldr (fun b n => b.toNat + 256 * n) 0

/-- ADDRESS, bytes 2 to 6, and DATA, bytes 7 to 10, of a frame (R274, R275). -/
def frameAddress (f : Frame) : Nat := lsbFirst ((f.bytes.drop 2).take 5)
def frameData (f : Frame) : Word := BitVec.ofNat 32 (lsbFirst ((f.bytes.drop 7).take 4))

/-- Bytes with their CRC after them, most significant byte first (R275, R276). -/
def withCrc (bs : List Byte) : List Byte := bs ++ [BitVec.ofNat 8 (portCrc bs / 256), BitVec.ofNat 8 (portCrc bs)]

/-- The frame that a controller sends on SPI_MOSI for a command (R274, R275). -/
def wholeFrame (bs : List Byte) : Frame := ⟨8 * bs.length, bs⟩
def sendStatus (tag : Byte) : Frame := wholeFrame (withCrc [0x01, tag] ++ List.replicate 16 0)
def sendRead (tag : Byte) (a : BitVec 40) : Frame := wholeFrame (withCrc ([0x10, tag] ++ bytesOf a.toNat 5))
def sendWrite (tag : Byte) (a : BitVec 40) (v : Word) : Frame :=
  wholeFrame (withCrc ([0x11, tag] ++ bytesOf a.toNat 5 ++ bytesOf v.toNat 4))
def sendMoor (tag : Byte) : Frame := wholeFrame (withCrc [0x20, tag])
def sendWake (tag : Byte) : Frame := wholeFrame (withCrc [0x21, tag])

/-- The judgement of a frame (R277): reasons 1 CRC, 2 FRAME_ABORT, 3 FRAME_LENGTH, 4 UNKNOWN_COMMAND, 5 BUSY, 6 RESET. -/
def judge (s : State) (f : Frame) : Judgement :=
  if f.edges = 0 then .noFrame
  else if f.edges < 8 then .rejected 2
  else match frameShape (frameByte f 0) with
    | none => .rejected 4
    | some (n, c) =>
      if f.edges < 8 * n then .rejected 2
      else if 8 * n < f.edges then .rejected 3
      else if portCrc (f.bytes.take c) ≠ frameByte f c * 256 + frameByte f (c + 1) then .rejected 1
      else if frameByte f 0 ≠ 1 ∧ s.port.cmd.isSome then .rejected 5
      else .taken

/-- The counter of a rejection's reason. -/
def rejectCounter (reason : Nat) : Fld :=
  match reason with
  | 1 => MAST.CNT_CRC_COUNT
  | 3 => MAST.CNT_LENGTH_COUNT
  | 4 => MAST.CNT_UNKNOWN_COUNT
  | 5 => MAST.CNT_BUSY_COUNT
  | _ => MAST.CNT_ABORT_COUNT

/-- The status record, bytes 4 to 17 of a STATUS frame (R288). -/
def statusRecord (s : State) : List Byte :=
  let p := s.port
  let st := pwrState s + 8 * bit (alertDriven s) + 16 * bit (!s.pins.resetN && !s.tap.extest)
  [p.lastTag, p.lastResult] ++ bytesOf p.lastData.toNat 4 ++ [p.rejTag, p.rejReason, p.rejSeq, BitVec.ofNat 8 st] ++
    bytesOf (s.get pgMast MAST.ALERT_CAUSE) 4

/-- What a STATUS frame sends on SPI_MISO (R274). -/
def statusBytes (s : State) : List Byte :=
  let r := statusRecord s
  let c := portCrc r
  [0xFF, 0xFF, 0xFF, 0xFF] ++ r ++ [BitVec.ofNat 8 (c / 256), BitVec.ofNat 8 c]

/-- The bytes on SPI_MISO of a frame of some whole bytes with a command code (R274). -/
def misoBytes (s : State) (code n : Nat) : List Byte :=
  let b := if code = 1 then statusBytes s else []
  (b ++ List.replicate (n - b.length) 0xFF).take n

/-- A frame rejected for a reason (R278, R279, R288). -/
def rejectFrame (f : Frame) (reason : Nat) (s : State) : State :=
  let tagged := decide (16 ≤ f.edges)
  let miso := misoBytes s (frameByte f 0) (f.edges / 8)
  (s.bumpSat pgMast (rejectCounter reason)) |> fun s =>
    { s with port := { s.port with
        rejTag := if tagged then BitVec.ofNat 8 (frameByte f 1) else 0
        rejReason := BitVec.ofNat 8 (reason + 128 * bit tagged)
        rejSeq := s.port.rejSeq + 1, miso := miso } }

/-- The functional logic sees SPI_CS_N: the standby domain is ready and EXTEST is not in effect (R271, R304). -/
def portOpen (s : State) : Bool := s.power.standby && !s.tap.extest

/-- A STATUS frame taken: the status record is sent (R281). -/
def statusFrame (s : State) : State := { s with port := { s.port with miso := misoBytes s 1 20 } }

/-- STATUS: the status record is sent; nothing else changes (R281). -/
def execStatus (_tag : Byte) (s : State) : Out :=
  .next (if portOpen s then statusFrame s else s)

/-- A frame of n bytes taken, whose command is in progress from then on (R280). -/
def takeCommand (tag : Byte) (c : PendCmd) (n : Nat) (s : State) : State :=
  { s with port := { s.port with cmd := some c, lastTag := tag, lastResult := 1, lastData := 0, miso := List.replicate n 0xFF } }

/-- A frame of a command other than STATUS taken, or rejected with BUSY while a command is in progress (R277 step 7). -/
def ifFree (code : Nat) (tag : Byte) (n : Nat) (g : State → State) (s : State) : Out :=
  .next (if !portOpen s then s
    else if s.port.cmd.isSome then rejectFrame ⟨8 * n, [BitVec.ofNat 8 code, tag]⟩ 5 s
    else g s)

/-- The command in progress completes with a result and, for a READ, its data; an error response is counted (R280, R284, R285). -/
def answerCommand (result : Nat) (data : Word) (s : State) : State :=
  let s := { s with port := { s.port with cmd := none, lastResult := BitVec.ofNat 8 result, lastData := data } }
  if 0x80 ≤ result then s.bumpSat pgMast MAST.CNT_ERRRESP_COUNT else s

/-- The six frame counters set to 0 (R297). -/
def clearCounters (s : State) : State :=
  [MAST.CNT_ABORT_COUNT, MAST.CNT_LENGTH_COUNT, MAST.CNT_CRC_COUNT, MAST.CNT_UNKNOWN_COUNT, MAST.CNT_BUSY_COUNT,
    MAST.CNT_ERRRESP_COUNT].foldl (fun s F => s.set pgMast F 0) s

/-- CNT_CLEAR: the six counters are cleared (R297, R298). -/
def execCntClear (s : State) : Out := ifStandby clearCounters s

/-- ALERT_HELD_LOW: another agent has held the line low for 1 ms, which sets HELD_LOW where the Mast has not driven it; or, with
`low` false, has let it go (R295, R297; log 14). -/
def execAlertHeldLow (s : State) (low : Bool := true) : Out :=
  ifStandby (fun s =>
    let s := { s with pins := { s.pins with alertPulledLow := low } }
    if low && !alertDriven s then s.set pgMast MAST.ALERT_PIN_HELD_LOW 1 else s) s

end Sys2Proof.Machine
end

