-- ==== Sys2Proof/Machine/Power.lean ====
section
/-! DEFINITION. Rails, regulators and the PMBus sideband (R91 to R112), the wake and mooring (R95, R129 to R143, R178 to R183,
R791), and what a rail takes with it. -/
namespace Sys2Proof.Machine
open Sys2Proof

/-! ### Rails (R91, R93) -/

/-- The place of a rail's regulator in ascending address order: fields, then landings, then the Mast main rail. -/
def railIx : Rail → Nat
  | .field f => f.val
  | .landing k => 56 + k.val
  | .main => 68

/-- The rail at a place. -/
def railAt (i : Nat) : Rail := if i < 56 then .field (fin 56 i) else if i < 68 then .landing (fin 12 (i - 56)) else .main

/-- The address of a rail's regulator (R93). -/
def railAddr (r : Rail) : Nat :=
  let i := railIx r
  if i < 24 then 0x10 + i else if i < 38 then 0x29 + (i - 24) else 0x38 + (i - 38)

/-- A rail's number in events (R757). -/
def railNo : Rail → Nat
  | .field f => f.val
  | .landing k => 0x100 + k.val
  | .main => 0x200

/-- The nominal voltage of a rail in millivolts (R91). -/
def nominal : Rail → Nat
  | .field _ => 700
  | _ => 800

/-- A power event that asserts ALERT_N. -/
def powerAlert (code arg0 arg1 : Nat) (s : State) : State :=
  raiseEvent { code := code, arg0 := arg0, arg1 := arg1, alert := some acPower } s

def State.modP (s : State) (g : PowerSt → PowerSt) : State := { s with power := g s.power }

def sidebandAbsent (s : State) : Bool := s.on pgMpwr MPWR.SIDEBAND_SIDEBAND_ABSENT

/-- The rail's fault bit set (R104). -/
def setFault (r : Rail) (s : State) : State :=
  match r with
  | .field f => s.setBit2 pgMpwr MPWR.RAIL_FAULT_LO_FAULT MPWR.RAIL_FAULT_HI_FAULT f.val true
  | .landing k => s.setBit pgMpwr MPWR.LANDING_STATUS_LANDING_FAULT k.val true
  | .main => s.set pgMpwr MPWR.SIDEBAND_MAIN_RAIL_FAULT 1

/-- The rail's fault bit set on an edge of its own: while the roster is kept, BRINGUP follows LANDING_FAULT (R163). -/
def railFault (r : Rail) (s : State) : State := if mainUp s then onRoster (setFault r) s else setFault r s

/-- The Mast sends the rail's regulator something: SIDEBAND_ABSENT is clear, R105 has not marked it, EXTEST is not in
effect (R105, R110, R304). -/
def reachesRegulator (s : State) (r : Rail) : Bool :=
  !sidebandAbsent s && !s.power.silentRails.contains r && !s.tap.extest

/-- A write of OPERATION (R103), where the regulator is sent anything. -/
def operation (r : Rail) (v : Nat) (s : State) : State :=
  if reachesRegulator s r then s.modP fun p => { p with operation := insert (railIx r) v p.operation } else s

/-- The word of VOUT_COMMAND for a voltage: the nearest step of the regulator's exponent (R118). -/
def voutWord (s : State) (r : Rail) (mv : Nat) : Nat :=
  let n := 32 - lookup 0x14 s.power.voutMode (railIx r) % 32
  (2 * mv * 2 ^ n + 1000) / 2000

/-- A write of VOUT_COMMAND. -/
def voutCommand (r : Rail) (mv : Nat) (s : State) : State :=
  s.modP fun p => { p with vout := insert (railIx r) (voutWord s r mv) p.vout }

/-- What a command of R103 last wrote to a rail's regulator. -/
def sentTo (r : Rail) (code v : Nat) (s : State) : State :=
  s.modP fun p => { p with sent := insert (256 * railIx r + code) v p.sent }

/-- CLEAR_FAULTS sent to a rail's regulator (R103, R111). -/
def clearFaults (r : Rail) (s : State) : State :=
  sentTo r 0x03 (lookup 0 s.power.sent (256 * railIx r + 0x03) + 1) s

/-- VOUT_MAX of a rail in millivolts (R103). -/
def voutMax : Rail → Nat
  | .field _ => 800
  | _ => 840

/-- The writes of the probe (R103, R104): ON_OFF_CONFIG 0x18, VOUT_MAX in the regulator's encoding, VOUT_TRANSITION_RATE 1 mV/µs,
TON_RISE and TOFF_FALL 1.0 ms, in those units (log 64). -/
def configure (r : Rail) (s : State) : State :=
  sentTo r 0x65 1 (sentTo r 0x61 1 (sentTo r 0x27 1 (sentTo r 0x24 (voutWord s r (voutMax r)) (sentTo r 0x02 0x18 s))))

def fieldRail (s : State) (f : Nat) : Bool := s.bit2 pgMpwr MPWR.FIELD_RAIL_LO_RAIL MPWR.FIELD_RAIL_HI_RAIL f
def setFieldRail (f : Nat) (b : Bool) (s : State) : State :=
  s.setBit2 pgMpwr MPWR.FIELD_RAIL_LO_RAIL MPWR.FIELD_RAIL_HI_RAIL f b
def setFieldOn (f : Nat) (b : Bool) (s : State) : State :=
  s.setBit2 pgMpwr MPWR.FIELD_ON_LO_ON MPWR.FIELD_ON_HI_ON f b
def landingRail (s : State) (k : Nat) : Bool := bitAt (s.get pgMpwr MPWR.LANDING_STATUS_LANDING_RAIL) k
def setLandingRail (k : Nat) (b : Bool) (s : State) : State := s.setBit pgMpwr MPWR.LANDING_STATUS_LANDING_RAIL k b

/-- A rail that the Mast has switched on (R112). -/
def railOn (s : State) (r : Rail) : Bool :=
  s.power.railStep == some r ||
    (match r with
     | .field f => fieldRail s f.val
     | .landing k => landingRail s k.val
     | .main => lookup 0 s.power.operation 68 == 0x80)

/-! ### Transactions that wait (R105) -/

/-- An OPERATION write that switches a rail off waits for its retry. -/
def PmbWait.off (w : PmbWait) : Bool := w.purpose == .softOff || w.purpose == .tripOff

/-- A transaction with a rail's regulator waits for its retry; so does one that switches it off. -/
def waitsFor (s : State) (r : Rail) : Bool := s.power.pmbWaits.any fun w => w.rail == r
def offWaits (s : State) (r : Rail) : Bool := s.power.pmbWaits.any fun w => w.rail == r && w.off

/-- A transaction that was not acknowledged waits for its first retry. -/
def notAcked (r : Rail) (p : PmbPurpose) (s : State) : State :=
  if s.power.pmbWaits.any fun w => w.rail == r && w.purpose == p then s
  else s.modP fun q => { q with pmbWaits := q.pmbWaits ++ [⟨r, p, 0⟩] }

/-- The off command of a tripped field's rail cannot be carried: the field stays held with its rail on (R128). -/
def railKept (f : Nat) (s : State) : State :=
  let s := raiseEvent { code := 0x1008, field := f } s
  if pwrState s = 1 ∨ pwrState s = 2 then { s with m := { s.m with tripHeld := s.m.tripHeld ++ [f] } } else s

/-- Transactions that will not be repeated; a tripped field whose off command is among them keeps its rail (R105, R110, R128). -/
def dropWaits (p : PmbWait → Bool) (s : State) : State :=
  let gone := s.power.pmbWaits.filter p
  let s := s.modP fun q => { q with pmbWaits := q.pmbWaits.filter fun w => !p w }
  gone.foldl (fun s w => if w.purpose = .tripOff then railKept (railIx w.rail) s else s) s

/-- An OPERATION write that has switched a rail off. -/
def railOff (r : Rail) (v : Nat) (s : State) : State :=
  let s := operation r v s
  match r with
  | .field f => (setFieldRail f.val false s).set pgMpwr (MPWR.VSET_CODE.at f.val) 0
  | .landing k => setLandingRail k.val false s
  | .main => s

/-- A rail written off: it waits behind an earlier transaction that waits for its retry (R105), and while nothing is sent to the
regulator the rail stays as the regulator holds it (R110). -/
def switchOff (r : Rail) (v : Nat) (s : State) : State :=
  if !reachesRegulator s r then s
  else if waitsFor s r then notAcked r (if v = 0 then .tripOff else .softOff) s
  else railOff r v s

/-- A field's rail written off. -/
def fieldOff (f v : Nat) (s : State) : State := switchOff (railAt f) v s

/-! ### Mooring (R135 to R138, R142) -/

/-- What mooring, or the end of a wake that fails, does to the writing of copy B: an interrupted slot write leaves a torn slot, a whole copy is left unwritten
(R194). -/
def stopFlash (s : State) : State :=
  let s := match s.map.flashOp with
    | some (.slot _ _) => addSlotB .torn s
    | _ => s
  { s with map := { s.map with flashOp := none, bQueue := [], bWhole := none, following := false, syncDue := false } }

/-- The RESET event of a RESET_N that has been acted on (R179). -/
def resetLogged (s : State) : State :=
  match s.power.resetDue with
  | none => s
  | some frame => raiseEvent { code := 0x100C, arg0 := bit frame } (s.modP fun p => { p with resetDue := none })

/-- The wafer is moored again without having woken: its rails stay as they were left (R97, R105, R106, R130, R206). -/
def wakeFails (s : State) : State :=
  let s := stopFlash (s.modP fun p => { p with phase := .none, railStep := none, railQueue := [], probeAt := none
                                               pmbWaits := p.pmbWaits.filter PmbWait.off, moorPending := none })
  let s := s.set pgMpwr MPWR.PLL_STATUS_LOCKED 0
  let s := { s with live := keep standbyPage s.live, shadow := keep standbyPage s.shadow, m := MainSt.reset
                    port := s.port }.set pgMpwr MPWR.PWR_STATE_STATE 0
  resetLogged s

/-- OPERATION = 0x40 to each powered rail, in the order of R136; the Mast main rail last. -/
def railsOff (s : State) : State :=
  let s := (List.range 12).foldl (fun s i =>
    if landingRail s (11 - i) || s.power.railStep == some (railAt (56 + (11 - i))) then switchOff (railAt (56 + (11 - i))) 0x40 s
    else s) s
  let s := (List.range 56).foldl (fun s i =>
    if fieldRail s (55 - i) || s.power.railStep == some (railAt (55 - i)) then switchOff (railAt (55 - i)) 0x40 s else s) s
  switchOff .main 0x40 s

def moorCode : MoorCause → Nat
  | .request => 0 | .reset => 1 | .mainLost => 2

/-- Mooring ends when its OPERATION writes are made or given up: its event, a RESET event that waits for it, and PWR_STATE
(R105, R136, R179). -/
def moorEnd (s : State) : State :=
  match s.power.mooring with
  | none => s
  | some (c, lost) =>
    if !s.power.pmbWaits.isEmpty then s
    else
      let s := s.modP fun p => { p with mooring := none }
      let s := flushRepeat (raiseEvent { code := 0x100B, arg0 := moorCode c, arg1 := bit lost } s)
      resetLogged (s.set pgMpwr MPWR.PWR_STATE_STATE 0)

/-- The wafer moors, in the order of R136. -/
def moorNow (c : MoorCause) (s : State) : State :=
  let lost := awake s && !cseqStopped s
  let s := stopFlash (s.set pgMpwr MPWR.PWR_STATE_STATE 3)
  let s := railsOff s
  let s := s.modP fun p => { p with phase := .none, railStep := none, railQueue := [], probeAt := none, moorPending := none
                                    leaving := [], pmbWaits := p.pmbWaits.filter PmbWait.off, mooring := some (c, lost) }
  let s := (s.set pgMpwr MPWR.PLL_STATUS_LOCKED 0).set pgMpwr MPWR.PLL_STATUS_DISTRIBUTING 0
  let s := { s with live := keep standbyPage s.live, shadow := keep standbyPage s.shadow, m := MainSt.reset }
  let s := s.set pgDmap DMAP.SERVICE_EOS_NOW (s.get pgDmap DMAP.MAP_STATUS_MAP_FULL)
  moorEnd (mapRegs s)

/-- A mooring request (R135, R142): at once, or at the point of the wake that R142 names. -/
def requestMoor (c : MoorCause) (s : State) : State :=
  match pwrState s with
  | 2 => moorNow c s
  | 1 =>
    if s.power.railStep.isSome || s.power.probeAt.isSome || s.power.phase == .reconciling then
      s.modP fun p => { p with moorPending := some (p.moorPending.getD c) }
    else moorNow c s
  | _ => s

/-- A mooring request that has waited acts at its point; none: it has not. -/
def moorIfPending (s : State) : Option State := s.power.moorPending.map fun c => moorNow c s

/-! ### What a rail takes with it -/

/-- A landing leaves with its rail: its ports, its pages, its channels and what it holds. -/
def dropLanding (k : Nat) (s : State) : State :=
  let h := 56 + k
  let s := (List.range 4).foldl (fun s p => setPort k p false s) s
  let s := s.setBit pgRoster ROSTER.LANDING_READY_READY k false
  let s := (List.range 8).foldl (fun s e => dropEnd h e s) s
  let gone := fun (p : Pkt) => p.path.isEmpty && ((p.dstField == 63 && p.dstTile == k) ||
    match p.buf with | some b => b.1 / 128 == h | none => false)
  let lost := s.m.net.filter gone
  let s := lost.foldl (fun s p => lose p ((p.parties s).foldl (fun s l => markParty l s) s))
    (s.modNet fun n => n.filter fun p => !gone p)
  let page := fun (a : Nat) => !((clsOf a == 2 || clsOf a == 0xE) && fieldOf a == k)
  let m := s.m
  { s with live := keep page s.live, shadow := keep page s.shadow
           m := { m with nets := erase k m.nets, stores := erase k m.stores, haws := keep (fun a => a / 128 != h) m.haws
                         portWindow := m.portWindow.filter fun p => p / 4 != k
                         landingTested := m.landingTested.filter (· != k) } }

/-- A field's state in the roster before or after WCLK runs, with all that follows on its edge. -/
def rosterField (f v : Nat) (s : State) : State := onRoster (setFieldState f v) s

/-! ### Self-test (R149) -/

/-- A field's built-in self-test starts: tiles that are retired are RETIRED, banks that are retired are out of service,
every other tile is under test (R149, R154, R209). -/
def startBist (f : Nat) (s : State) : State :=
  let s := setAllTiles f 1 (setFieldState f 2 s)
  let s := ((s.set (pgRostf f) ROSTF.BIST_RESULT_PASSED 0).set (pgRostf f) ROSTF.BIST_RESULT_FAILED 0).set (pgRostf f)
    ROSTF.BIST_CYCLES_CYCLES 0
  let s := (retiredRecs s).foldl (fun s r =>
    if r.field ≠ f then s
    else match retireOf r.kind r.field r.locator with
      | .tile _ t => setTileState f t 6 s
      | .bank _ t b => s.setBit (pgTile f t 0) TP0.BANK_STATUS_IN_SERVICE b false
      | _ => s) s
  { s with m := { s.m with bistStart := insert f s.m.wtime s.m.bistStart } }

/-- Some tile of a field is under test. -/
def underTest (s : State) (f : Nat) : Bool :=
  (tileWords s).any fun w => w.1 == f && decide (0 < entries (· == 1) w.2)

/-- A field's self-test has ended: READY, or FAILED with its rail off; its channel ends start, those without a tile in routes
are fenced, and routes are computed (R146, R156, R157, R165, R182, R608). -/
def finishBist (f : Nat) (s : State) : State :=
  if fieldState s f ≠ 2 ∨ underTest s f then s
  else
    let s := bistCycles f s
    if s.get (pgRostf f) ROSTF.BIST_RESULT_PASSED = 0 then
      let s := raiseEvent { code := 0x2004, field := f, arg0 := 2, alert := some acTest } s
      fieldOff f 0x40 (clearField f (setFieldState f 4 s))
    else
      let s := setFieldState f 3 s
      startRoutes (startEnds f (dropDead f s))

/-! ### The rail step (R96 to R101) -/

/-- A rail step starts (R96). -/
def startStep (r : Rail) (s : State) : State :=
  let s := operation r 0x80 (voutCommand r (nominal r) s)
  s.modP fun p => { p with railStep := some r }

/-- A rail may be switched on: requested, not retired whole, its regulator usable (R98, R104, R105, R110). A wake takes its step
also for a rail that a mooring without OPERATION writes has left on (R95, R110). -/
def mayPower (s : State) (r : Rail) : Bool :=
  reachesRegulator s r && !s.power.badRails.contains r &&
    (match r with
     | .field f => fieldOn s f.val && !fieldRetired s f.val && fieldState s f.val != 7 &&
         (!fieldRail s f.val || s.m.tripHeld.contains f.val || s.power.phase == .rails) && !s.power.leaving.contains f.val
     | .landing k => landingOn s k.val && (!landingRail s k.val || s.power.phase == .rails)
     | .main => false)

/-- WCLK distribution starts: the wafer is awake, WTIME is 0 and every powered field is under test (R95, R133, R149). -/
def wclkStart (s : State) : State :=
  let s0 := { (s.set pgMpwr MPWR.PLL_STATUS_DISTRIBUTING 1).set pgMpwr MPWR.PWR_STATE_STATE 2 with
              m := { s.m with wtime := 0 }, power := { s.power with phase := .none } }
  onRoster (fun s =>
    let s := (List.range 56).foldl (fun s f => if fieldState s f = 1 then startBist f s else s) s
    (List.range 56).foldl (fun s f => finishBist f s) s) s0

/-- The next rail of the queue is switched on; a wake whose queue is empty ends in WCLK distribution. -/
def pumpRails : Nat → State → State
  | 0, s => s
  | n + 1, s =>
    if s.power.railStep.isSome then s
    else match s.power.railQueue with
      | [] =>
        if s.power.phase ≠ .rails then s
        else match moorIfPending s with
          | some s => s
          | none => wclkStart s
      | r :: rest =>
        if offWaits s r && reachesRegulator s r then s
        else
        let s := s.modP fun p => { p with railQueue := rest }
        if mayPower s r then startStep r s
        else
          let s := match r with
            | .field f =>
              if fieldOn s f.val && !fieldRetired s f.val && fieldState s f.val = 0 &&
                  (s.power.badRails.contains r || s.power.silentRails.contains r) then
                rosterField f.val 5 s
              else s
            | _ => s
          pumpRails n s

/-- The rail queue carried on. -/
def nextRail (s : State) : State :=
  match moorIfPending s with
  | some s => s
  | none => pumpRails (s.power.railQueue.length + 1) s

/-- A rail asked for (R99, R101). -/
def queueRail (r : Rail) (s : State) : State :=
  if s.power.railQueue.contains r ∨ s.power.railStep = some r then s
  else pumpRails (s.power.railQueue.length + 2) (s.modP fun p => { p with railQueue := p.railQueue ++ [r] })

/-- A rail that its step has found good (R96): a field is POWERED, its FPWR page at its reset values (R123), and joins where WCLK
runs (R134, R182); a landing's ports are reset (R703), and the Mast main rail is followed by PLL lock. -/
def railGood (r : Rail) (deskewOk : Bool) (s : State) : State :=
  let s := s.modP fun p => { p with railStep := none }
  match r with
  | .main =>
    match moorIfPending s with
    | some s => s
    | none => s.modP fun p => { p with phase := .pll }
  | .landing k =>
    let s := setLandingRail k.val true s
    let s := if 8 ≤ k.val then resetPorts k.val s else s
    nextRail (onRoster (fun s => if landingOn s k.val then s
      else switchOff r 0x40 s) s)
  | .field f =>
    let s := (setFieldRail f.val true s).set pgMpwr (MPWR.VSET_CODE.at f.val) 20
    let s := { s with m := { s.m with tripHeld := s.m.tripHeld.filter (· != f.val)
                                      droopUntil := erase f.val s.m.droopUntil }
                      live := keep (fun a => pageOf a != pgFpwr f.val) s.live }
    let s := rosterField f.val 1 s
    let s := if !fieldOn s f.val then fieldOff f.val 0x40 (rosterField f.val 0 s)
      else if !clocked s then s
      else if deskewOk then onRoster (fun s => finishBist f.val (startBist f.val s)) s
      else fieldOff f.val 0x40 (raiseEvent { code := 0x2004, field := f.val, arg0 := 1, alert := some acTest }
        (rosterField f.val 4 s))
    nextRail s

/-- A rail step that has failed: the next rail follows; without the Mast main rail the wake fails (R97, R105). -/
def stepFailed (r : Rail) (s : State) : State :=
  let s := s.modP fun p => { p with railStep := none }
  match r with
  | .main => wakeFails s
  | .field f => nextRail (rosterField f.val 5 s)
  | .landing _ => nextRail (onRoster id s)

/-- A rail lost (R112). While the wafer is moored or mooring no field runs, and the loss of the Mast main rail only leaves its
event. -/
def railLost (r : Rail) (w : Nat) (s : State) : State :=
  let up := pwrState s == 1 || pwrState s == 2
  let s := if r = .main && !up then s else railFault r s
  let stepping := s.power.railStep == some r
  let s := powerAlert 0x1006 (railNo r) w s
  match r with
  | .main => if up then moorNow .mainLost s else s
  | .field f =>
    let s := setFieldRail f.val false (setFieldOn f.val false s)
    let s := s.set pgMpwr (MPWR.VSET_CODE.at f.val) 0
    if !up then s else
    let s := onRoster (removeField f.val 5 0 true) (s.modP fun p => { p with leaving := p.leaving.erase f.val })
    if stepping then nextRail (s.modP fun p => { p with railStep := none }) else s
  | .landing k =>
    let s := setLandingRail k.val false (s.setBit pgMpwr MPWR.LANDING_ON_ON k.val false)
    if !up then s else
    let s := onRoster (fun s => startRoutes (dropLanding k.val s)) s
    if stepping then nextRail (s.modP fun p => { p with railStep := none }) else s

/-- STATUS_WORD shows OFF = 1; POWER_GOOD# = 0 (PMBus 1.3, R25). -/
def statusOff (w : BitVec 16) : Bool := w.getLsbD 6
def statusGood (w : BitVec 16) : Bool := !w.getLsbD 11

/-- STATUS_WORD shows a fault: a bit other than POWER_GOOD#, OFF and BUSY (PMBus 1.3, R25, R103). -/
def showsFault (w : BitVec 16) : Bool := (w &&& 0xF73F) != 0

/-- What a poll of STATUS_WORD in a rail step finds (R96, R103, R112). -/
def polled (r : Rail) (w : BitVec 16) (deskewOk : Bool) (s : State) : State :=
  let s := if showsFault w then clearFaults r s else s
  if statusOff w then railLost r w.toNat s
  else if statusGood w then railGood r deskewOk s
  else s

/-- RAIL_STATUS_POLL: the poll of STATUS_WORD in a rail step (R96, R112). -/
def execRailStatusPoll (reply : StatusReply) (deskewOk : Bool) (s : State) : Out :=
  ifStandby (fun s =>
    match s.power.railStep with
    | none => s
    | some r =>
      if waitsFor s r then s
      else match reply with
        | .noAck => notAcked r .railStep s
        | .word w => polled r w deskewOk s) s

/-- POWER_GOOD_TIMEOUT: a rail step has not found power good at 5.0 ms (R97); while a poll waits for its retry R105 decides. -/
def execPowerGoodTimeout (s : State) : Out :=
  ifStandby (fun s =>
    match s.power.railStep with
    | none => s
    | some r =>
      if waitsFor s r then s
      else stepFailed r (powerAlert 0x1001 (railNo r) 0 (setFault r (operation r 0x00 s)))) s

/-! ### The probe (R104 to R106) -/

/-- The readings meet R94. -/
def compatible (rev cap mode : Byte) : Bool :=
  decide (0x33 ≤ rev.toNat) && bits cap.toNat 5 3 == 6 && bits mode.toNat 5 3 == 0 && decide (16 ≤ mode.toNat % 32) &&
    decide (mode.toNat % 32 ≤ 23)

/-- A regulator's readings taken and its settings written (R104). -/
def probeRead (r : Rail) (rev cap mode : Byte) (s : State) : State :=
  let s := configure r (s.modP fun p => { p with probeAcked := true, voutMode := insert (railIx r) mode.toNat p.voutMode })
  if compatible rev cap mode then s
  else
    let s := s.modP fun p => { p with badRails := p.badRails ++ [r] }
    powerAlert 0x1002 (railNo r) (rev.toNat + cap.toNat * 2 ^ 8 + mode.toNat * 2 ^ 16) (railFault r s)

/-- The answer of the regulator at a place; a regulator that is not listed answers with readings that R94 accepts. -/
def replyAt (ans : ProbeAnswers) (i : Nat) : RegReply :=
  match ans.find? fun a => a.1 == i with
  | some a => a.2
  | none => .readings 0x33 0xC0 0x14

/-- The end of a probe: a mooring request that has waited acts (R142); SIDEBAND_ABSENT when none has acknowledged; in a wake, the
Mast main rail next (R95, R104 to R106). -/
def endProbe (s : State) : State :=
  let s := s.modP fun p => { p with probeAt := none }
  let waking := s.power.phase == .probing
  match moorIfPending s with
  | some s => s
  | none =>
    if !s.power.probeAcked then
      let s := powerAlert 0x1004 0 (bit (s.on pgMpwr MPWR.SIDEBAND_SDA_STUCK)) (s.set pgMpwr MPWR.SIDEBAND_SIDEBAND_ABSENT 1)
      let s := dropWaits (fun _ => true) s
      if waking then wakeFails s else s
    else if !waking then s
    else if s.power.badRails.contains .main || s.power.silentRails.contains .main then wakeFails s
    else startStep .main (s.modP fun p => { p with phase := .mainRail })

/-- The probe from a place on, until a regulator does not acknowledge. -/
def probeFrom (ans : ProbeAnswers) : Nat → Nat → State → State
  | 0, _, s => endProbe s
  | n + 1, i, s =>
    match moorIfPending s with
    | some s => s
    | none =>
      match replyAt ans i with
      | .noAck => notAcked (railAt i) .probe (s.modP fun p => { p with probeAt := some i })
      | .readings a b c => probeFrom ans n (i + 1) (probeRead (railAt i) a b c s)

/-- A probe of every regulator begins: the bits and marks of R104 to R107 are cleared, to be judged again (R95, R110). OPERATION
writes that wait for a retry go on waiting. -/
def beginProbe (s : State) : State :=
  let s := (s.set pgMpwr MPWR.SIDEBAND_SIDEBAND_ABSENT 0).set pgMpwr MPWR.SIDEBAND_SDA_STUCK 0
  s.modP fun p => { p with badRails := [], silentRails := [], probeAcked := false, probeAt := some 0
                           pmbWaits := p.pmbWaits.filter PmbWait.off }

/-- A probe of every regulator (R95, R110). -/
def startProbe (ans : ProbeAnswers) (s : State) : State := probeFrom ans 69 0 (beginProbe s)

/-- A probe that SIDEBAND_RETRY has asked for and whose answers have still to come (R110, log 47). -/
def probeAsked (s : State) : Bool := s.power.probeAt == some 0 && !s.power.pmbWaits.any fun w => w.purpose == .probe

/-- A write of 1 to SIDEBAND_RETRY (R110, R304): the probe is repeated; a probe that runs goes on as it is. -/
def askProbe (s : State) : State := if s.tap.extest || s.power.probeAt.isSome then s else beginProbe s

/-- What follows when the third retry was not acknowledged, by what the transaction was for (R105, R128). -/
def giveUp (w : PmbWait) (probe : ProbeAnswers) (s : State) : State :=
  let s := s.modP fun p => { p with silentRails := p.silentRails ++ [w.rail] }
  let s := powerAlert 0x1003 (railNo w.rail) (railAddr w.rail) (railFault w.rail s)
  let s := dropWaits (fun x => x.rail == w.rail) s
  match w.purpose with
  | .probe => let i := railIx w.rail; probeFrom probe (68 - i) (i + 1) s
  | .railStep => stepFailed w.rail s
  | .tripOff => nextRail (railKept (railIx w.rail) s)
  | _ => if w.rail = .main ∧ pwrState s = 1 then wakeFails s else nextRail s

/-- STATUS_WORD read from the regulator that drives PMB_ALERT_N (R111, R112). -/
def alertRead (r : Rail) (w : BitVec 16) (s : State) : State :=
  let s := clearFaults r (raiseEvent { code := 0x1005, arg0 := railAddr r, arg1 := w.toNat } s)
  if statusOff w && railOn s r then railLost r w.toNat s else s

/-- The Mast's visit of a field: the rail reaches VDEMAND in its steps (R118). -/
def visit (f : Nat) (s : State) : State :=
  let v := s.get (pgFpwr f) FPWR.LOOP_STATUS_VDEMAND
  (voutCommand (railAt f) (600 + 5 * v) s).set pgMpwr (MPWR.VSET_CODE.at f) v

/-- A retry that was acknowledged: the transaction completes. -/
def retried (w : PmbWait) (reply : RetryReply) (probe : ProbeAnswers) (s : State) : State :=
  match w.purpose, reply with
  | .probe, .readings a b c => let i := railIx w.rail; probeFrom probe (68 - i) (i + 1) (probeRead w.rail a b c s)
  | .railStep, .status x d => if s.power.railStep = some w.rail then polled w.rail x d s else s
  | .alert, .status x _ => alertRead w.rail x s
  | .softOff, _ => nextRail (railOff w.rail 0x40 s)
  | .tripOff, _ => nextRail (railOff w.rail 0x00 s)
  | .visit, _ =>
    match w.rail with
    | .field f => if fieldRail s f.val then visit f.val s else s
    | _ => s
  | _, _ => s

/-! ### Wake sources (R139 to R143, R206, R791) -/

def causeField : WakeSource → Fld
  | .pin => MPWR.WAKE_CAUSE_WAKE_PIN | .rtc => MPWR.WAKE_CAUSE_RTC | .spi => MPWR.WAKE_CAUSE_SPI

/-- The sources recorded in WAKE_CAUSE. -/
def setCauses (l : List WakeSource) (s : State) : State := l.foldl (fun s w => s.set pgMpwr (causeField w) 1) s

/-- A wake by some sources; with MAP_LOST set they are only recorded (R206). -/
def startWake (l : List WakeSource) (probe : ProbeAnswers) (s : State) : State :=
  let s := setCauses l (s.modP fun p => { p with heldWakes := [] })
  if s.on pgDmap DMAP.MAP_STATUS_MAP_LOST then s
  else
    let s := s.set pgMpwr MPWR.PWR_STATE_STATE 1
    let s := (s.set pgMpwr MPWR.SIDEBAND_PLL_NO_LOCK 0).set pgMpwr MPWR.SIDEBAND_MAIN_RAIL_FAULT 0
    let s := clearFlashFault { s with map := { s.map with flashStopped := false } }
    let s := raiseEvent { code := 0x100A, arg0 := (s.word (pgMpwr + 0x080)).toNat % 8 } s
    startProbe probe (s.modP fun p => { p with phase := .probing })

/-- A wake source that is held is not held twice. -/
def holdWake (w : WakeSource) (s : State) : State :=
  s.modP fun p => { p with heldWakes := if p.heldWakes.contains w then p.heldWakes else p.heldWakes ++ [w] }

/-- A wake source arrives (R139, R142, R143, R304, R791). -/
def wakeArrives (w : WakeSource) (probe : ProbeAnswers) (s : State) : State :=
  match pwrState s with
  | 0 => if !s.pins.resetN || s.tap.extest then holdWake w s else startWake [w] probe s
  | 1 => setCauses [w] s
  | 3 => holdWake w s
  | _ => s

/-- Wake sources that were held are acted on. -/
def actHeld (probe : ProbeAnswers) (s : State) : State :=
  if moored s && s.pins.resetN && !s.tap.extest && !s.power.heldWakes.isEmpty then startWake s.power.heldWakes probe s
  else s

/-- A mooring whose last OPERATION write may have ended, and what was held until it ends (R136, R142). -/
def afterMoor (probe : ProbeAnswers) (s : State) : State :=
  if s.power.mooring.isSome then actHeld probe (moorEnd s) else s

/-! ### The sideband's rows (R105 to R112) -/

/-- PMBUS_RETRY: a retry interval of 10 ms ends for the oldest transaction that waits (R105); under EXTEST nothing is sent (R304). A
retry that ends the last OPERATION write of a mooring ends the mooring (R105, R136), and wake sources held meanwhile act (R142). -/
def execPmbusRetry (reply : RetryReply) (probe : ProbeAnswers) (s : State) : Out :=
  ifStandby (fun s =>
    if s.tap.extest then s
    else match s.power.pmbWaits with
    | [] => s
    | w :: rest =>
      let s0 := s.modP fun p => { p with pmbWaits := rest }
      match reply with
      | .noAck =>
        if w.tries < 2 then s.modP fun p => { p with pmbWaits := ⟨w.rail, w.purpose, w.tries + 1⟩ :: rest }
        else afterMoor probe (giveUp w probe s0)
      | .status _ _ => if w.purpose = .probe then s else afterMoor probe (retried w reply probe s0)
      | .readings _ _ _ => afterMoor probe (retried w reply probe s0)) s

/-- SDA_LOW_IDLE: PMB_SDA is low with the bus idle; when the recovery fails the sideband is absent, nothing that waited is sent, and a
wake that has still to power rails goes no further with them (R107, R110, R128). -/
def execSdaLowIdle (freed : Bool) (s : State) : Out :=
  ifStandby (fun s =>
    if freed || s.tap.extest || sidebandAbsent s then s
    else
      let s := (s.set pgMpwr MPWR.SIDEBAND_SDA_STUCK 1).set pgMpwr MPWR.SIDEBAND_SIDEBAND_ABSENT 1
      let s := powerAlert 0x1004 0 1 (s.modP fun p => { p with probeAt := none })
      let s := dropWaits (fun _ => true) s
      match s.power.phase with
      | .probing | .mainRail => wakeFails s
      | _ => moorEnd (nextRail (s.modP fun p => { p with railStep := none }))) s

/-- What the Mast was sending to a rail's regulator when a target held PMB_SCL low (R108): the poll of its rail step, a visit of a
powered field, else the read of an alert (log 65). -/
def abandoned (s : State) (r : Rail) : PmbPurpose :=
  if s.power.railStep = some r then .railStep
  else match r with
    | .field f => if fieldRail s f.val then .visit else .alert
    | _ => .alert

/-- SCL_LOW_TIMEOUT: a transaction is abandoned and counts as not acknowledged (R108). -/
def execSclLowTimeout (rail : Rail) (s : State) : Out :=
  ifStandby (fun s => if !reachesRegulator s rail || waitsFor s rail then s else notAcked rail (abandoned s rail) s) s

/-- SIDEBAND_RETRY: the probe is repeated, or goes on that a write of the bit has begun (R106, R110); a wake's own probe goes on as it
is. -/
def execSidebandRetry (probe : ProbeAnswers) (s : State) : Out :=
  ifStandby (fun s =>
    if s.tap.extest then s
    else if probeAsked s then probeFrom probe 69 0 s
    else if s.power.probeAt.isSome then s
    else startProbe probe s) s

/-- PMB_ALERT_SERVICE: the regulator that answers the Alert Response Address is read (R110 to R112, R304). -/
def execPmbAlertService (rail : Rail) (reply : StatusReply) (s : State) : Out :=
  ifStandby (fun s =>
    if !reachesRegulator s rail || waitsFor s rail then s
    else match reply with
      | .noAck => notAcked rail .alert s
      | .word w => alertRead rail w s) s

/-! ### The wake's events (R129, R130, R139 to R141, R206) -/

/-- WAKE_N: a falling edge that stays low; under EXTEST the pin is not seen (R139, R140, R304). -/
def execWakeN (probe : ProbeAnswers) (s : State) : Out :=
  ifStandby (fun s => if s.tap.extest then s else wakeArrives .pin probe { s with pins := { s.pins with wakeN := false } }) s

/-- RTC_ALARM: the alarm that has fired on a second tick acts as a wake source (R139, R141). -/
def execRtcAlarm (probe : ProbeAnswers) (s : State) : Out :=
  ifStandby (fun s =>
    if s.power.alarmDue then wakeArrives .rtc probe (s.modP fun p => { p with alarmDue := false }) else s) s

/-- A WAKE frame taken: it acts as a wake source (R280, R282). -/
def wakeFrame (tag : Byte) (probe : ProbeAnswers) (s : State) : State :=
  wakeArrives .spi probe (takeCommand tag (.answer 0) 4 s)

/-- WAKE (R282). -/
def execWake (tag : Byte) (probe : ProbeAnswers) (s : State) : Out := ifFree 0x21 tag 4 (wakeFrame tag probe) s

/-- A MOOR frame taken: it requests mooring (R135, R280, R282). -/
def moorFrame (tag : Byte) (s : State) : State := requestMoor .request (takeCommand tag (.answer 0) 4 s)

/-- MOOR (R282). -/
def execMoor (tag : Byte) (s : State) : Out := ifFree 0x20 tag 4 (moorFrame tag) s

/-- MOOR_REQ: a write of 1 to MOOR_REQ.MOOR (R135, R136). -/
def execMoorReq (s : State) : Out := ifStandby (requestMoor .request) s

/-- PLL_LOCKED: the wafer PLL locks; the flash is probed and reconciliation begins (R129, R200 to R202, R207). -/
def execPllLocked (flash : FlashProbe) (s : State) : Out :=
  ifStandby (fun s =>
    if s.power.phase ≠ .pll then s
    else probeFlash true flash.meets flash.jedec
      ((s.set pgMpwr MPWR.PLL_STATUS_LOCKED 1).modP fun p => { p with phase := .reconciling })) s

/-- PLL_NO_LOCK: no lock 1 ms after the main rail is good (R130). -/
def execPllNoLock (s : State) : Out :=
  ifStandby (fun s =>
    if s.power.phase ≠ .pll then s
    else wakeFails (operation .main 0x40 (powerAlert 0x1009 0 0 (s.set pgMpwr MPWR.SIDEBAND_PLL_NO_LOCK 1)))) s

/-- The fields that are retired whole, at a wake (R168). -/
def showRetired (s : State) : State :=
  (retiredFields (retiredRecs s)).foldl (fun s f => rosterField f 7 s) s

/-- RECONCILED: reconciliation ends; the field rails and landing rails follow, or the map is lost (R95, R204 to R207). -/
def execReconciled (s : State) : Out :=
  ifStandby (fun s =>
    if s.power.phase ≠ .reconciling then s
    else match reconcile s with
      | none =>
        let s := raiseEvent { code := 0x3005, alert := some acMap } (s.set pgDmap DMAP.MAP_STATUS_MAP_LOST 1)
        wakeFails (operation .main 0x40 s)
      | some s =>
        match moorIfPending s with
        | some s => s
        | none =>
          let s := showRetired (s.modP fun p => { p with phase := .rails, railQueue := (List.range 68).map railAt })
          pumpRails 69 s) s

/-! ### RESET_N and VSTBY (R143, R178 to R180, R279) -/

/-- RESET_N: it takes effect after 10 µs low (R178, R179, R279, R304); its event follows the mooring, which in a wake waits for the
point of R142. -/
def execResetN (frame : Option Frame) (s : State) : Out :=
  ifStandby (fun s =>
    let s := { s with pins := { s.pins with resetN := false } }
    if s.tap.extest then s
    else
      let s := match frame with
        | some f => rejectFrame f 6 s
        | none => s
      let s := requestMoor .reset (s.modP fun p => { p with resetDue := some frame.isSome })
      if moored s then resetLogged s else s) s

/-- RESET_N_RISE: RESET_N rises; wake sources that were held act (R143, R180). -/
def execResetNRise (probe : ProbeAnswers) (s : State) : Out :=
  ifStandby (fun s => actHeld probe { s with pins := { s.pins with resetN := true } }) s

/-- Registers of the standby domain that outlast VSTBY: the logbook's and the service mark (R748, R758). -/
def keptWord (a : Nat) : Bool :=
  a == pgLogb + 0x040 || a == pgLogb + 0x048 || a == pgLogb + 0x054 || a == pgLogb + 0x05C || a == pgLogb + 0x088 ||
    a == pgLogb + 0x08C

/-- The slot that a logbook write in progress leaves when VSTBY goes after some of its bytes (R749). -/
def cutWrite (written : Nat) (s : State) : State :=
  match s.log.queue with
  | [] => s
  | e :: _ =>
    let q := e.toNat % 2 ^ 32
    let w := 2 ^ (8 * min written 32)
    setSlot s q (BitVec.ofNat 256 (e.toNat % w + (logSlot s q).toNat / w * w))

/-- VSTBY_REMOVED: the standby domain is lost but for what is non-volatile; the write of a slot is cut off (R206, R748,
R749, R753). -/
def execVstbyRemoved (written : Nat) (s : State) : Out :=
  ifStandby (fun s =>
    let lost := s.get pgDmap DMAP.MAP_STATUS_MAP_LOST
    let s := stopFlash (cutWrite written s)
    let s := { s with
      live := keep keptWord s.live, shadow := [], power := { PowerSt.reset with standby := false }, port := .reset
      tap := .reset, log := { s.log with queue := [], newest := none, newestSeq := 0 }
      map := { s.map with flashStopped := false }, m := MainSt.reset }
    s.set pgDmap DMAP.MAP_STATUS_MAP_LOST lost) s

/-- VSTBY_APPLIED: the standby domain becomes ready and the wafer is moored (R15, R143, R220, R758). Where copy A has no current area
DMAP.GRADE keeps its reset value 56 (DESIGN CHOICE, log 67). -/
def execVstbyApplied (s : State) : Out :=
  .next (if s.power.standby then s
    else
      let s := mapRegs { s with power := PowerSt.reset }
      let s := match mapA s with
        | some a => s.set pgDmap DMAP.GRADE_GRADE a.grade.toNat
        | none => s
      let s := s.set pgDmap DMAP.MAP_COUNT_TORN (min (((mapA s).map MapArea.torn).getD 0) 65535)
      s.set pgDmap DMAP.MAP_STATUS_B_BEHIND 0)

/-! ### Requests for rails (R99 to R101) -/

/-- A field that leaves the roster with its rail: at slack water, or at once while CSEQ is stopped (R100). -/
def leaveField (f : Nat) (s : State) : State :=
  let s := s.modP fun p => { p with leaving := p.leaving.erase f }
  let s := fieldOff f 0x40 (if fieldState s f = 7 then removeField f 7 6 false s else removeField f 0 0 false s)
  if fieldOn s f then queueRail (railAt f) s else s

/-- A FIELD_ON bit set. -/
def fieldOnSet (f : Nat) (s : State) : State :=
  if fieldOn s f then s
  else
    let s := setFieldOn f true s
    if awake s then queueRail (railAt f) (onRoster id s)
    else if s.power.phase = .rails then queueRail (railAt f) s
    else s

/-- FIELD_ON_SET: a FIELD_ON bit is set; awake, the rail is switched on (R99, R101). -/
def execFieldOnSet (f : FieldId) (s : State) : Out := ifStandby (fieldOnSet f.val) s

/-- A FIELD_ON bit of an awake wafer has been cleared (R100, R168, R183). -/
def fieldCleared (f : Nat) (s : State) : State :=
  let v := fieldState s f
  if fieldRail s f then
    if cseqStopped s then leaveField f s
    else
      let s := s.modP fun p => { p with leaving := p.leaving ++ [f] }
      if v = 7 then s else startRoutes (dropDead f (setFieldState f 8 s))
  else if v = 4 ∨ v = 5 then setFieldState f 0 s
  else s

/-- A FIELD_ON bit cleared. -/
def fieldOnClear (f : Nat) (s : State) : State :=
  if !fieldOn s f then s
  else
    let s := setFieldOn f false s
    if awake s then onRoster (fieldCleared f) s
    else if fieldRail s f then fieldOff f 0x40 (rosterField f 0 s)
    else s

/-- FIELD_ON_CLEAR: a FIELD_ON bit is cleared (R100, R101). -/
def execFieldOnClear (f : FieldId) (s : State) : Out := ifStandby (fieldOnClear f.val) s

/-- A LANDING_ON bit set. -/
def landingOnSet (k : Nat) (s : State) : State :=
  if landingOn s k then s
  else
    let s := s.setBit pgMpwr MPWR.LANDING_ON_ON k true
    if awake s then queueRail (railAt (56 + k)) (onRoster id s)
    else if s.power.phase = .rails then queueRail (railAt (56 + k)) s
    else s

/-- LANDING_ON_SET: a LANDING_ON bit is set; awake, the rail is switched on (R99, R101). -/
def execLandingOnSet (k : LandingId) (s : State) : Out := ifStandby (landingOnSet k.val) s

/-- A LANDING_ON bit cleared: the landing goes off at once. -/
def landingOnClear (k : Nat) (s : State) : State :=
  if !landingOn s k then s
  else
    let s := s.setBit pgMpwr MPWR.LANDING_ON_ON k false
    if !landingRail s k then (if awake s then onRoster id s else s)
    else
      switchOff (railAt (56 + k)) 0x40 (onRoster (fun s => startRoutes (dropLanding k s)) s)

/-- LANDING_ON_CLEAR: a LANDING_ON bit is cleared (R100, R101). -/
def execLandingOnClear (k : LandingId) (s : State) : Out := ifStandby (landingOnClear k.val) s

end Sys2Proof.Machine
end

