-- ==== Sys2Proof/Machine/MapCmds.lean ====
section
/-! DEFINITION. Commands to the defect map: operator retirements (R213 to R215), MAP_SYNC (R795), the record window (R221) and
the flash (R200, R201). -/
namespace Sys2Proof.Machine
open Sys2Proof

/-! ### Operator retirements -/

/-- A tile's LOCATOR is in range (R188). -/
def tileLocOk (loc : Nat) : Bool := decide (bits loc 13 5 < 18) && decide (bits loc 8 5 < 26)

/-- A lane's LOCATOR names a lane of a channel of the field (R188, R214, R627). -/
def laneLocOk (f loc : Nat) : Bool :=
  let c := bits loc 16 2; let i := bits loc 10 6
  let e := endOfCode c i
  bits loc 7 3 == 0 && decide (bits loc 0 7 < laneCount f e) &&
    (match c with
     | 0 => decide (i < 18) && decide (gridCol f < 7)
     | 1 => decide (i < 26) && decide (gridRow f < 6)
     | 2 => decide (i < 4)
     | _ => decide (i < 4) && (landingOf f).isSome)

/-- The request of a RETIRE_DESC is valid (R214). -/
def descOk (d : Nat) : Bool :=
  let f := bits d 18 6; let loc := bits d 0 18
  decide (f < 56) &&
    (match bits d 28 4 with
     | 1 => tileLocOk loc && bits loc 0 8 == 0
     | 2 => tileLocOk loc && bits loc 3 5 == 0
     | 3 => laneLocOk f loc
     | 4 => loc == 0
     | _ => false)

/-- The entry that a valid RETIRE_DESC asks for; a stay lane under the lower-numbered field (R189, R214). -/
def descEntry (d remark : Nat) : MapEntry :=
  let kind := bits d 28 4; let f := bits d 18 6; let loc := bits d 0 18
  let f' := if kind = 3 then (recordEnd f (endOfCode (bits loc 16 2) (bits loc 10 6))).1 else f
  { kind := kind, source := 3, field := f', locator := loc, remark := remark }

/-- The RETIRE_REQUEST event of an entry (R757). -/
def retireEvent (d result : Nat) (e : MapEntry) : Event :=
  { code := 0x3007, field := e.field
    tile := if e.kind = 1 ∨ e.kind = 2 then tileAt (bits e.locator 13 5) (bits e.locator 8 5) else 511
    arg0 := d, arg1 := result }

/-- Tests that have ended by a retirement end their fields' self-tests. -/
def finishTests (s : State) : State := (List.range 56).foldl (fun s f => finishBist f s) s

/-- A retirement of the map takes effect as R215 says: while the wafer is moored, or before its field is under test, at the wake
or at the test alone, which reads what is retired. -/
def retireNow (kind field loc : Nat) (s : State) : State :=
  if awake s ∨ (pwrState s = 1 ∧ kind = 4) then requestRetire (retireOf kind field loc) s else s

/-- A valid request: its entry, its event, its RESULT and its effect. -/
def retireValid (d : Nat) (s : State) : State :=
  let e := descEntry d (s.get pgDmap DMAP.RETIRE_REMARK_REMARK)
  let full := mapA s |>.isNone
  let done := fun (n : Nat) (s : State) => s.set pgDmap DMAP.RETIRE_STATUS_RESULT n
  if full then done 3 (raiseEvent (retireEvent d 3 e) s)
  else
    let dup := hasRec s e.kind e.field e.locator
    let r := addEntry e (seqFor s (retireEvent d (bit dup) e)) s
    match r.2 with
    | .yes => done 0 (retireNow e.kind e.field e.locator (raiseEvent { retireEvent d 0 e with map := true } r.1))
    | .duplicate => done 1 (raiseEntry (retireEvent d 1 e) e s).1
    | .full => done 3 (retireNow e.kind e.field e.locator (raiseEvent (retireEvent d 3 e) r.1))

/-- A request by RETIRE_CMD.GO (R213 to R215). -/
def retireRequest (s : State) : State :=
  let d := s.get pgDmap DMAP.RETIRE_DESC_DESC
  if descOk d then
    let s1 := retireValid d s
    if pwrState s = 1 ∨ pwrState s = 2 then newFieldRecords s s1 else fieldRecords s1
  else (raiseEvent { code := 0x3007, arg0 := d, arg1 := 2 } s).set pgDmap DMAP.RETIRE_STATUS_RESULT 2

/-- A change of the map with what follows from it: the whole roster while the wafer wakes or is awake, end of service alone
while it is moored. -/
def onMap (g : State → State) (s : State) : State :=
  if pwrState s = 1 ∨ pwrState s = 2 then onRoster g s else settleEos (g s)

/-- RETIRE_CMD: a write of 1 to GO; one while BUSY reads 1 is ignored (R213 to R215). -/
def retireCmd (s : State) : State :=
  if s.on pgDmap DMAP.RETIRE_STATUS_BUSY then s else onMap (fun s => finishTests (retireRequest s)) s

/-- RETIRE_CMD (R213). -/
def execRetireCmd (s : State) : Out := ifStandby retireCmd s

/-! ### MAP_SYNC (R795) -/

/-- A write of 1 to SERVICE.MAP_SYNC: FLASH_FAULT clears at once, and the probe and the reconciliation are due where the copies have
been reconciled in this wake (R795, log 47). -/
def askSync (s : State) : State := clearFlashFault { s with map := { s.map with syncDue := s.map.following } }

/-- The copies are probed and reconciled again; what the union adds to copy A's effect is retired. -/
def syncCopies (flash : FlashProbe) (s : State) : State :=
  let old := effect (recsA s)
  match reconcile (probeFlash false flash.meets flash.jedec (stopFlash s)) with
  | none => s
  | some s =>
    ((effect (recsA s)).filter fun r => !old.any r.same).foldl (fun s r => retireNow r.kind r.field r.locator s) s

/-- MAP_SYNC with what the flash answers: the write, and the work that it asks for; work that a WRITE has already asked for is carried
out (log 47). -/
def mapSync (flash : FlashProbe) (s : State) : State :=
  let s := askSync s
  if s.map.syncDue then onRoster (fun s => finishTests (syncCopies flash { s with map := { s.map with syncDue := false } })) s
  else s

/-- MAP_SYNC (R795). -/
def execMapSync (flash : FlashProbe) (s : State) : Out := ifStandby (mapSync flash) s

/-! ### The record window and the flash -/

/-- READ_INDEX: READ_WORD0 to READ_WORD3 show the selected record (R221). -/
def execReadIndex (index : Word) (s : State) : Out :=
  ifStandby (fun s => showRecord (s.set pgDmap DMAP.READ_INDEX_INDEX index.toNat)) s

/-- What a poll sends, a read-back among it, and then the commands of the operation that follows (R200, R201). -/
def sentPoll (readBack : Bool) (s : State) : State :=
  { s with map := { s.map with sent := .readStatus :: (if readBack then [.fastRead] else []) ++
                                 ((s.map.flashOp.map FlashOp.begins).getD []) } }

/-- FLASH_BUSY_POLL: the flash is no longer busy; a program is read back (R200, R201). -/
def execFlashBusyPoll (readBackOk : Bool) (s : State) (late : Bool := false) : Out :=
  ifStandby (fun s =>
    match s.map.flashOp with
    | none => s
    | some (.erase _ _ _) => sentPoll false (flashDone s)
    | some _ => sentPoll true (if readBackOk then flashDone s else flashFault 2 late s)) s

/-- FLASH_OP_TIMEOUT: a program that stays busy for 5 ms, an erase for 500 ms (R201). -/
def execFlashOpTimeout (s : State) (late : Bool := false) : Out :=
  ifStandby (fun s =>
    match s.map.flashOp with
    | some (.erase _ _ _) => flashFault 1 late s
    | some _ => flashFault 0 late s
    | none => s) s

end Sys2Proof.Machine
end

