-- ==== Sys2Proof/Machine/Crossing.lean ====
section
/-! DEFINITION. Crossings and slack water (R306 to R350): the sequencer's commands, openings, the end of a tile's work, the
drain, the slack-water test, endings, snapshots, restores, re-crossings and suspension. -/
namespace Sys2Proof.Machine
open Sys2Proof

def setCseq (v : Nat) (s : State) : State := s.set pgCseq CSEQ.CSEQ_STATUS_STATE v
def stopPending (s : State) : Bool := s.on pgCseq CSEQ.CSEQ_STATUS_STOP_PENDING

/-! ### The commands of CSEQ_CMD (R307) and CUR_NO (R312) -/

/-- START or STEP taken while stopped: a crossing opens on the next edge. -/
def startCrossing (step : Bool) (s : State) : State :=
  if cseqStopped s && !s.m.x.openReq then
    let s := (s.set pgCseq CSEQ.CSEQ_STATUS_STARTED 1).modX fun x => { x with openReq := true }
    if step then s.set pgCseq CSEQ.CSEQ_STATUS_STOP_PENDING 1 else s
  else s

/-- START opens a crossing on the next edge (R307). -/
def execStart (s : State) : Out := ifAwake (startCrossing false) s
/-- STEP opens one crossing (R307). -/
def execStep (s : State) : Out := ifAwake (startCrossing true) s

/-- STOP taken while a crossing or its boundary runs. -/
def stopCrossing (s : State) : State :=
  if cseqStopped s then s else s.set pgCseq CSEQ.CSEQ_STATUS_STOP_PENDING 1

/-- STOP: CSEQ stops at the final slack water (R307). -/
def execStop (s : State) : Out := ifAwake stopCrossing s

/-- A read of CUR_NO_LO latches CUR_NO_HI. -/
def latchCurNo (s : State) : State :=
  s.modX fun x => { x with curNoHi := BitVec.ofNat 16 (s.get pgCseq CSEQ.CUR_NO_HI_NO) }

/-- CUR_NO_LO_READ (R312). -/
def execCurNoLoRead (s : State) : Out := ifAwake latchCurNo s

/-! ### Tiles and areas of a berth -/

/-- The ready tile that holds an identifier, by tile key. -/
def readyLid (s : State) (lid : Nat) : Option Nat :=
  match tileOfLid s lid with
  | some k => if tileReady s (k / 512) (k % 512) then some k else none
  | none => none

/-- No page of an area of a tile lies in a bank out of service (R466). -/
def areaOk (s : State) (k base pages : Nat) : Bool :=
  (List.range 8).all fun b => !areaInBank base pages b || bitAt (s.get (p0 k) TP0.BANK_STATUS_IN_SERVICE) b

/-- The holder of a slot is lost (R341): it has been, and the slot still names it, or no ready tile holds its identifier. -/
def holderGone (s : State) (l : Latched) : Bool :=
  let same := match s.m.x.berths.find? fun r => r.slot.berth == l.berth with
    | some r => r.slot.holder == l.holder
    | none => true
  !l.replay && ((s.m.x.holderLost.contains l.berth && same) || (readyLid s l.holder).isNone)

/-- A berth may be resumed (R344, R466): every tile is in use, its holder is not lost, and its areas are in service. -/
def resumable (s : State) (l : Latched) : Bool :=
  decide (1 ≤ l.count) && !holderGone s l &&
    ((List.range l.count).all fun i => match readyLid s (l.base + i) with
      | some k => areaOk s k l.snapBase l.snapPages &&
          areaOk s k (s.get (p0 k) TP0.POST_BAY_BASE) (2 * s.get (p0 k) TP0.POST_BAY_PAGES)
      | none => false) &&
    (l.replay || match readyLid s l.holder with
      | some k => areaOk s k l.holdBase (l.count * l.snapPages)
      | none => false)

/-- A berth whose resumption is refused (R325, R344). -/
def refuseResume (b : Nat) (s : State) : State :=
  alertError (pgBerth b) 16 (s.modX fun x => { x with resumeReq := x.resumeReq.erase b })

/-- A write of RESUME: it is judged by the slot latched at the next opening (R344). -/
def resume (b : Nat) (s : State) : State :=
  if !s.m.x.suspended.contains b || s.m.x.resumeReq.contains b then s
  else s.modX fun x => { x with resumeReq := x.resumeReq ++ [b] }

/-- RESUME: a berth is to be resumed at the next opening (R344). -/
def execResume (b : Fin 24192) (s : State) : Out := ifAwake (resume b.val) s

/-- A write of SUSPEND: while CSEQ is stopped the wafer is at slack water. -/
def suspend (b : Nat) (s : State) : State :=
  if s.m.x.suspended.contains b || !(decide (1 ≤ (slotOf s b).count) || s.m.x.berths.any fun r => r.slot.berth == b) then s
  else if cseqStopped s then suspendBerth b s
  else if s.m.x.suspendReq.contains b then s
  else s.modX fun x => { x with suspendReq := x.suspendReq ++ [b] }

/-- SUSPEND: a berth is suspended at the next slack water (R325). -/
def execSuspend (b : Fin 24192) (s : State) : Out := ifAwake (suspend b.val) s

/-! ### Snapshots (R336 to R338) -/

/-- One line from a tile to another; false for an error response. -/
def copyLine (from' src to' dst : Nat) (s : State) : State × Bool :=
  if 0x40000 < src + 64 ∨ (dmemKind s from' src false false).isSome ∨ (m3Kind s to' dst 64).isSome then (s, false)
  else
    let r := readBytes from' src 64 (grant from' 2 (bankOf src) 4 s)
    match r.2 with
    | none => (r.1, false)
    | some bs => writeBytes to' dst bs (grant to' 3 (bankOf dst) 4 r.1)

/-- Lines from a tile to another, lowest first; false when any of them fails. -/
def copyLines (from' src to' dst : Nat) : Nat → State → State × Bool
  | 0, s => (s, true)
  | n + 1, s =>
    let r := copyLine from' src to' dst s
    let q := copyLines from' (src + 64) to' (dst + 64) n r.1
    (q.1, r.2 && q.2)

/-- A line of a berth's copy or restore has received an error response: it is suspended at the next slack water (R466). -/
def lineFailed (b : Nat) (s : State) : State :=
  modBerths (fun r => r.slot.berth == b && !r.holderLost) (fun r => { r with suspendAsked := true }) s

/-- The berth's holder areas copied back into its snapshot regions (R338). -/
def restoreBerth (s : State) (l : Latched) : State :=
  (List.range l.count).foldl (fun s i =>
    match readyLid s l.holder, readyLid s (l.base + i) with
    | some h, some k =>
      let r := copyLines h ((l.holdBase + i * l.snapPages) * 4096) k (l.snapBase * 4096) (l.snapPages * 64) s
      if r.2 then r.1 else lineFailed l.berth r.1
    | _, _ => lineFailed l.berth s) s

/-- FRY_STATUS.SNAP follows the copies in progress (R623). -/
def showSnap (k : Nat) (s : State) : State :=
  s.set (pgTk k 2) TP2.FRY_STATUS_SNAP (bit (s.m.x.copies.any fun c => c.tile == k))

/-- The snapshot copies of a berth begin (R337). -/
def startCopies (s : State) (l : Latched) : State :=
  (List.range l.count).foldl (fun s i =>
    match readyLid s l.holder, readyLid s (l.base + i) with
    | some h, some k =>
      let c : SnapCopy := ⟨k, h, l.snapBase * 4096, (l.holdBase + i * l.snapPages) * 4096, 0, l.snapPages * 64⟩
      showSnap k (s.modX fun x => { x with copies := x.copies ++ [c] })
    | _, _ => s) s

/-- The next line of a tile's snapshot copy completes at its holder. -/
def lineCopied (k : Nat) (failed : Bool) (s : State) : State :=
  match s.m.x.copies.find? fun c => c.tile == k with
  | none => s
  | some c =>
    let r := if failed then (s, false) else copyLine k (c.src + 64 * c.next) c.holder (c.dst + 64 * c.next) s
    let s := if r.2 then r.1 else match (lidOf r.1 (k / 512) (k % 512)).bind (berthOfLid r.1) with
      | some b => lineFailed b.slot.berth r.1
      | none => r.1
    let c' := { c with next := c.next + 1 }
    let s := s.modX fun x => { x with
      copies := (x.copies.map fun d => if d.tile = k then c' else d).filter fun d => decide (d.next < d.lines) }
    ferryAfterLine k (showSnap k s)

/-- SNAPSHOT_LINE_COPIED: a 64-byte line of a tile's snapshot copy completes at the holder (R337, R466, R618). -/
def execSnapshotLineCopied (f : FieldId) (t : TileId) (failed : Bool) (s : State) : Out :=
  ifAwake (lineCopied (tileKey f.val t.val) failed) s

/-! ### Posts at an opening (R332 to R335) -/

/-- A post put into the order of R333. -/
def insertPost (p : Post) : List Post → List Post
  | [] => [p]
  | q :: r => if p.sender < q.sender ∨ (p.sender = q.sender ∧ p.seq < q.seq) then p :: q :: r else q :: insertPost p r

/-- The posts that fit a half, in order, with the offset of each payload: up to n entries and `room` bytes from `at'` on. -/
def fitPosts : Nat → Nat → Nat → List Post → List (Nat × Post)
  | 0, _, _, _ => []
  | _, _, _, [] => []
  | n + 1, at', room, p :: r =>
    if p.payload.length ≤ room then (at', p) :: fitPosts n (at' + p.payload.length) (room - p.payload.length) r else []

/-- An index entry (R333). -/
def postEntry (e : Nat × Post) : List Byte :=
  le (e.2.sender * 2 ^ 48 + e.2.seq % 2 ^ 16 * 2 ^ 32 + e.2.payload.length / 16 * 2 ^ 24 + e.1 / 16) 8

/-- Half h of a tile's post bay emptied: its bytes read 0 (R332; log 40). -/
def emptyHalf (k h : Nat) (s : State) : State :=
  let base := s.get (p0 k) TP0.POST_BAY_BASE
  let pages := s.get (p0 k) TP0.POST_BAY_PAGES
  let a := dkey k ((base + h * pages) * 4096)
  let out := fun (d : Nat) => decide (d < a) || decide (a + pages * 4096 ≤ d)
  if 64 < base + 2 * pages then s
  else { s with m := { s.m with dmem := keep out s.m.dmem, dmemErr := keep out s.m.dmemErr } }

/-- A tile's collecting half becomes visible: half h of the bay takes its index and its payloads, and the other half is emptied (R332,
R333, R335; which half a crossing uses, and that the half is filled at the opening, are DESIGN CHOICES, log 40). -/
def showPosts (k h : Nat) (s : State) : State :=
  let p := p0 k
  let all := lookup [] s.m.x.collect k
  let whole := (all.filter fun q => q.total != 0 && decide (q.total ≤ q.payload.length)).foldl (fun l q => insertPost q l) []
  let base := s.get p TP0.POST_BAY_BASE
  let pages := s.get p TP0.POST_BAY_PAGES
  let room := if 64 < base + 2 * pages then 0 else pages * 4096 - 8192
  let fit := fitPosts 1024 8192 room whole
  let a := (base + h * pages) * 4096
  let s := emptyHalf k (1 - h) s
  let s := if fit = [] then s else (writeBytes k a (fit.flatMap postEntry) s).1
  let s := fit.foldl (fun s e => (writeBytes k (a + e.1) e.2.payload s).1) s
  let dropped := (all.filter fun q => q.total == 0).length + (whole.length - fit.length)
  (s.set p TP0.POST_COUNT_COUNT fit.length).set p TP0.POST_COUNT_DROPPED (min dropped 2047)

/-- The halves of every tile's post bay swap, and the new collecting halves are empty (R332). -/
def swapPosts (n : Nat) (s : State) : State :=
  let s := (((lidMap s).map Prod.snd).filter fun k => tileReady s (k / 512) (k % 512)).foldl
    (fun s k => showPosts k (n % 2) s) s
  s.modX fun x => { x with collect := [] }

/-- POST_DROPPED of a berth (R325). -/
def showDropped (s : State) (l : Latched) : State :=
  berthSet l.berth BERTH.POST_DROPPED_COUNT
    (min (total ((berthTiles s l).map fun k => s.get (p0 k) TP0.POST_COUNT_DROPPED)) 65535) s

/-! ### The opening of a tile (R313, R316, R326, R355, R507, R540, R541, R622, R723, R730, R731) -/

/-- The RS counters of the run that ends move to the LAST registers. -/
def moveReefStats (k : Nat) (s : State) : State :=
  let p := p0 k
  let s := [(TP0.LAST_HEAVY_COUNT, TP0.RS_HEAVY_COUNT), (TP0.LAST_REEF_CYC_COUNT, TP0.RS_REEF_CYC_COUNT),
    (TP0.LAST_REEF_HELD_COUNT, TP0.RS_REEF_HELD_COUNT), (TP0.LAST_FAULTS_COUNT, TP0.RS_FAULTS_COUNT),
    (TP0.LAST_NO_NO, TP0.CX_NO_LO_NO), (TP0.LAST_FLAGS_RECROSS, TP0.CX_FLAGS_RECROSS)].foldl
      (fun s w => s.set p w.1 (s.get p w.2)) s
  [TP0.RS_HEAVY_COUNT, TP0.RS_REEF_CYC_COUNT, TP0.RS_REEF_HELD_COUNT, TP0.RS_FAULTS_COUNT].foldl
    (fun s F => s.set p F 0) (s.set p TP0.LAST_FLAGS_VALID 1)

/-- The registers of the tile's pages that an opening sets to 0. -/
def clearOpened (k : Nat) (s : State) : State :=
  let p := p0 k
  let s := (List.range 16).foldl (fun s i => s.setWord (p + 0x140 + 4 * i) 0) (clearGwState k s)
  let s := [TP0.EVENTS_FERRY, TP0.EVENTS_TIMER, TP0.EVENTS_SOFT, TP0.EVENTS_ARITH, TP0.GSTACK_B_DEPTH, TP0.SLIP_VALID,
    TP0.REEF_HIST_HIST, TP0.REEF_SAVE_K_HIST, TP0.REEF_SAVE_B_HIST, TP0.BUNDLES_LO_COUNT, TP0.BUNDLES_HI_COUNT].foldl
      (fun s F => s.set p F 0) s
  (s.set (pgTk k 2) TP2.FRY_DONE_COUNT 0).set (pgTk k 2) TP2.FRY_STATUS_CODE 0

/-- A tile takes part in an opening of crossing `no`. -/
def openTile (no : Nat) (recross replay : Bool) (k : Nat) (s : State) : State :=
  let p := p0 k
  let held := s.on p HDR.PAGE_CONTROL_HALT_REQ
  let s := clearOpened k (moveReefStats k s)
  let s := s.setRig k { Rig.reset with run := .running, startHeld := held, pc := s.get p TP0.CX_ENTRY_BUNDLE }
  let s := setPriv (s.set p HDR.PAGE_STATUS_HALTED (bit held)) k 0 false
  let s := (s.set2 p TP0.CX_NO_LO_NO TP0.CX_NO_HI_NO no).set p TP0.CX_FLAGS_RECROSS (bit recross)
  let s := s.set p TP0.CX_FLAGS_REPLAY (bit replay)
  let s := if recross then s
    else (s.set p TP0.CX_FLAGS_PRIOR_DAMAGED (bit (s.m.x.priorDamaged.contains k))).set p TP0.CX_FLAGS_PRIOR_STALLED
      (bit (s.m.x.priorStalled.contains k))
  let s := s.setFerry k { s.ferry k with closed := false }
  s.modX fun x => { x with postSeq := erase k x.postSeq }

/-- The tiles that take part in an opening: ready, with a valid identifier, not in escalated stop, in no berth that does not
run; as tile keys, with the berth (R313, R344). -/
def partakers (s : State) : List (Nat × Option Latched) :=
  (lidMap s).filterMap fun e =>
    let k := e.2
    if !tileReady s (k / 512) (k % 512) || (s.rig k).run == .escalated then none
    else match berthOfLid s e.1 with
      | some b => if b.runs then some (k, some b.slot) else none
      | none => some (k, none)

/-- The tiles start on an opening. -/
def openTiles (no : Nat) (recross : Bool) (l : List (Nat × Option Latched)) (s : State) : State :=
  l.foldl (fun s e => match e.2 with
    | some b => openTile (if b.replay then b.replayNo else no) recross b.replay e.1 s
    | none => openTile no recross false e.1 s) s

/-! ### The opening of a crossing (R307 to R313, R323, R341, R344) -/

/-- The slots latched now whose resumes are accepted. -/
def resumed (ls : List Latched) (s : State) : List Latched :=
  ls.filter fun l => s.m.x.resumeReq.contains l.berth && resumable s l

/-- A berth resumed at an opening is suspended no more. -/
def resumeBerth (s : State) (l : Latched) : State :=
  let s := berthSet l.berth BERTH.OUTCOME_SUSPENDED 0 s
  s.modX fun x => { x with suspended := x.suspended.erase l.berth, resumeReq := x.resumeReq.erase l.berth }

/-- The resumes that wait, judged against the slots latched now. -/
def resumeAll (ls : List Latched) (s : State) : State :=
  let s := (resumed ls s).foldl resumeBerth s
  s.m.x.resumeReq.foldl (fun s b => refuseResume b s) s

/-- HOLDER_LOST of the slots latched now (R341). -/
def settleHolders (ls : List Latched) (s : State) : State :=
  let gone := (ls.filter (holderGone s)).map Latched.berth
  let s := ls.foldl (fun s l => berthSet l.berth BERTH.OUTCOME_HOLDER_LOST (bit (gone.contains l.berth)) s) s
  s.modX fun x => { x with holderLost := gone }

/-- A slot latched for a crossing. -/
def latchBerth (s : State) (l : Latched) : BerthRun :=
  { slot := l, runs := !s.m.x.suspended.contains l.berth, damaged := false, faulted := false, overrun := false
    stalled := false, tileLost := false, holderLost := s.m.x.holderLost.contains l.berth, suspendAsked := false
    endSuspended := false, recrossings := 0 }

/-- Egress of every net landing begins a new drain. -/
def newEgress (s : State) : State :=
  (s.m.nets.map Prod.fst).foldl (fun s k => s.modNetSt k fun n => { n with since := none }) s

/-- What CSEQ holds of the crossing that opens (R308, R310, R323). -/
def latchCrossing (no : Nat) (ls : List Latched) (s : State) : State :=
  let len := s.get2 pgCseq CSEQ.CROSS_LEN_LO_LEN CSEQ.CROSS_LEN_HI_LEN
  let s := s.modX fun x => { x with
    openReq := false, everOpened := true, len := len, closeAt := s.m.wtime + len, berths := ls.map (latchBerth s)
    recrossSet := [], restoring := [], toRecross := [], recrossings := 0, released := false
    priorDamaged := x.keeperDamaged, priorStalled := x.limitStopped, keeperDamaged := [], limitStopped := []
    copies := [] }
  let s := s.set2 pgCseq CSEQ.CUR_NO_LO_NO CSEQ.CUR_NO_HI_NO no
  newEgress (setCseq 1 (s.set2 pgCseq CSEQ.OPEN_WTIME_LO_WTIME CSEQ.OPEN_WTIME_HI_WTIME s.m.wtime))

/-- A crossing opens on the next edge. -/
def opening (s : State) : State :=
  if !(s.m.x.openReq && clocked s) then s
  else
    let no := if s.m.x.everOpened then noPlus (curNo s) 1 else firstNo s
    let s := s.atTime ((s.m.wtime + 1) % 2 ^ 64)
    let ls := liveSlots s
    let back := (resumed ls s).filter fun l => !l.replay
    let s := back.foldl restoreBerth (latchCrossing no ls (settleHolders ls (resumeAll ls s)))
    let s := ls.foldl showDropped (swapPosts no s)
    let s := openTiles no false (partakers s) s
    let s := ((s.m.x.berths.filter fun r => r.runs && !r.slot.replay && !r.holderLost).map BerthRun.slot).foldl startCopies s
    [8, 9, 10, 11].foldl startWaiting s

/-- OPENING: a crossing opens (R313). -/
def execOpening (s : State) : Out := ifAwake (onRoster opening) s

/-- Ingress close: WTIME reaches the opening's plus the latched length; the landings' next buffer opens and the drain begins
(R32, R34, R310). -/
def ingressClose (s : State) : State :=
  if cseqState s = 1 then setCseq 2 (s.atTime (max s.m.wtime s.m.x.closeAt)) else s

/-- INGRESS_CLOSE (R310). -/
def execIngressClose (s : State) : Out := ifAwake ingressClose s

/-! ### The end of a tile's work (R314, R315, R321, R327) -/

/-- A write of CXDONE at the head of the IOU takes effect once the tile's snapshot copy has completed. -/
def cxdone (k : Nat) (s : State) : State :=
  let r := s.rig k
  match r.iouQ with
  | [] => s
  | q :: rest =>
    if r.run = .running && q.write && q.addr == 0x200 && q.data.getLsbD 0 && !s.m.x.copies.any fun c => c.tile == k then
      toDraining (closeFerry k (s.setRig k { r with iouQ := rest, run := .idle }))
    else s

/-- CXDONE: the tile ends its work for the crossing (R314, R315). -/
def execCxdone (f : FieldId) (t : TileId) (s : State) : Out := ifAwake (cxdone (tileKey f.val t.val)) s

/-- A tile that has issued its budgeted bundle stops, its berth ends OVERRUN and its other tiles stop; a CXDONE that the
budgeted bundle wrote ends the tile's work instead (R327, R329; DEDUCED, log 45). -/
def overrun (k : Nat) (s : State) : State :=
  if (s.rig k).run = .running ∧ budgetSpent s k ∧ !cxdoneWaits s k then
    match (lidOf s (k / 512) (k % 512)).bind (berthOfLid s) with
    | some b =>
      let s := modBerths (fun r => r.slot.berth == b.slot.berth) (fun r => { r with overrun := true }) (stopTile k s)
      toDraining (stopBerth b.slot k s)
    | none => s
  else s

/-- OVERRUN: a tile has issued its budgeted bundle (R327). -/
def execOverrun (f : FieldId) (t : TileId) (s : State) : Out := ifAwake (overrun (tileKey f.val t.val)) s

/-- Every tile that has not ended its work is stopped, and its berth ends STALLED (R321). -/
def stopUnfinished (s : State) : State :=
  let ks := (s.m.rigs.filter fun e => e.2.run == .running).map Prod.fst
  let s := ks.foldl (fun s k =>
    let s := stopTile k s
    match (lidOf s (k / 512) (k % 512)).bind (berthOfLid s) with
    | some b => modBerths (fun r => r.slot.berth == b.slot.berth) (fun r => { r with stalled := true }) s
    | none => s) s
  s.modX fun x => { x with limitStopped := x.limitStopped ++ ks.filter fun k => !x.limitStopped.contains k }

/-- Stage 1 has not emptied DRAIN_LIMIT cycles after ingress close. -/
def drainLimit (s : State) : State :=
  if cseqState s = 2 ∧ s.m.x.recrossings = 0 ∧ !stageOneEmpty s then
    stopUnfinished (s.atTime (max s.m.wtime (s.m.x.closeAt + s.get pgCseq CSEQ.DRAIN_LIMIT_CYCLES)))
  else s

/-- DRAIN_LIMIT (R321). -/
def execDrainLimit (s : State) : Out := ifAwake drainLimit s

/-- A re-crossing's stage 1 ends at its limit. -/
def recrossLimit (s : State) : State :=
  if cseqState s = 4 then
    let w := s.m.x.recrossAt + s.m.x.len + s.get pgCseq CSEQ.DRAIN_LIMIT_CYCLES
    setCseq 2 (stopUnfinished (s.atTime (max s.m.wtime w)))
  else s

/-- RECROSS_STAGE1_LIMIT (R342). -/
def execRecrossStage1Limit (s : State) : Out := ifAwake recrossLimit s

/-! ### The drain (R34, R317 to R320, R693) -/

/-- Stage 2: no packet is in a router or waits there for its channel. -/
def stageTwoEmpty (s : State) : Bool :=
  s.m.net.isEmpty && s.m.haws.all fun e => e.2.v0.wait.isEmpty && e.2.v1.wait.isEmpty
/-- Stage 3: no ferry engine has a descriptor or a snapshot copy. -/
def stageThreeEmpty (s : State) : Bool :=
  s.m.x.copies.isEmpty && s.m.fry.all fun e => e.2.queue.isEmpty && e.2.chain.isNone && e.2.act.isNone
/-- Stage 4: no replay buffer holds a packet. -/
def stageFourEmpty (s : State) : Bool := s.m.haws.all fun e => e.2.v0.held.isEmpty && e.2.v1.held.isEmpty
/-- Stages 1 to 4 are empty. -/
def stagesEmpty (s : State) : Bool := stageOneEmpty s && stageTwoEmpty s && stageThreeEmpty s && stageFourEmpty s
/-- Stage 5: nothing of the crossing is left in a landing. -/
def stageFiveEmpty (s : State) : Bool :=
  s.m.x.released &&
    (s.m.nets.all fun e => e.2.egress.isEmpty && e.2.sending.isEmpty &&
      !e.2.hold.any fun h => h.crossing == noPlus (curNo s) 1 || h.crossing == curNo s) &&
    s.m.stores.all fun e => !e.2.xfers.any fun x => x.inCrossing

/-- CSEQ_STATUS.STAGE (R312). -/
def drainStage (s : State) : Nat :=
  if cseqState s ≠ 2 then 0
  else if !stageOneEmpty s then 1
  else if !stageTwoEmpty s then 2
  else if !stageThreeEmpty s then 3
  else if !stageFourEmpty s then 4
  else if !stageFiveEmpty s then 5
  else 0

/-- Stage 4 has become empty: the landings' held frames leave or are discarded (R318, R700). -/
def egressRelease (s : State) : State :=
  let s := toDraining s
  if cseqState s = 2 ∧ stagesEmpty s ∧ !s.m.x.released ∧ !s.m.x.openReq then
    (s.m.nets.map Prod.fst).foldl releaseEgress (s.modX fun x => { x with released := true })
  else s

/-- EGRESS_RELEASE (R318). -/
def execEgressRelease (s : State) : Out := ifAwake egressRelease s

/-! ### Endings (R329, R330, R334, R339, R341 to R344, R350) -/

/-- What a slack water makes of a berth of the run: its ending, and whether it is suspended, restored or re-crossed. -/
structure Verdict where
  berth : Nat
  ending : Option Nat := none
  suspend : Bool := false
  restore : Bool := false
  recross : Bool := false
deriving DecidableEq, Repr

/-- Every tile of the berth has written CXDONE, and nothing of the run is lost. -/
def berthClean (s : State) (r : BerthRun) : Bool :=
  let ks := berthTiles s r.slot
  ks.length == r.slot.count && (ks.all fun k => (s.rig k).run == .idle) && !r.damaged && !r.tileLost && !r.stalled

/-- The ending of a berth that has not completed: FAULTED, OVERRUN, STALLED (R329); STALLED for a replay berth that would be damaged
(R350). -/
def brokenEnding (r : BerthRun) : Nat :=
  if r.slot.replay && r.damaged then 3 else if r.faulted then 4 else if r.overrun then 2 else 3

/-- A berth is to be suspended at this slack water with the ending SUSPENDED: for a lost tile, or at an operator's request (R325,
R341). -/
def suspendEnds (s : State) (r : BerthRun) : Bool := r.tileLost || s.m.x.suspendReq.contains r.slot.berth

/-- A berth is to be suspended at this slack water, whatever its ending (R325, R341, R466). -/
def suspendDue (s : State) (r : BerthRun) : Bool := suspendEnds s r || r.suspendAsked

/-- The verdict on a berth of the run, which was clean or not before this edge took anything out of service. A suspension under R466
leaves its ending as it is. -/
def judgeBerth (s : State) (clean : Bool) (r : BerthRun) : Verdict :=
  let b := r.slot.berth
  let suspended : Verdict := { berth := b, ending := some 5, suspend := true }
  if clean then { berth := b, ending := some 1, suspend := suspendDue s r }
  else if suspendEnds s r then suspended
  else if r.damaged && !r.slot.replay then
    if r.holderLost || r.suspendAsked || decide (s.get pgCseq CSEQ.RECROSS_LIMIT_LIMIT ≤ r.recrossings) then suspended
    else { berth := b, restore := true, recross := true }
  else if r.holderLost && !r.slot.replay then suspended
  else { berth := b, ending := some (brokenEnding r), suspend := r.suspendAsked, restore := !r.slot.replay }

/-- PEAK of a berth (R325). -/
def showPeak (s : State) (l : Latched) : State :=
  let n := ((berthTiles s l).map fun k => s.get2 (p0 k) TP0.BUNDLES_LO_COUNT TP0.BUNDLES_HI_COUNT).foldl max 0
  berthSet l.berth BERTH.PEAK_HI_BUNDLES (n / 2 ^ 32) (berthSet l.berth BERTH.PEAK_LO_BUNDLES n s)

/-- A verdict in the berth's OUTCOME. -/
def showVerdict (s : State) (v : Verdict) : State :=
  match v.ending with
  | none => s
  | some e =>
    let n := match s.m.x.berths.find? fun r => r.slot.berth == v.berth with
      | some r => r.recrossings
      | none => 0
    berthSet v.berth BERTH.OUTCOME_NO_NO (curNo s)
      (berthSet v.berth BERTH.OUTCOME_RECROSSINGS n (berthSet v.berth BERTH.OUTCOME_ENDING e s))

/-- The posts of some berths leave every collecting half (R334). -/
def removePosts (bad : List Latched) (s : State) : State :=
  s.modX fun x => { x with
    collect := (x.collect.map fun e => (e.1, e.2.filter fun p => !bad.any fun l => l.holds p.sender)).filter
      fun e => e.2 != [] }

/-- The berths that are judged at this slack water: those of the crossing, or of the re-crossing and what it has damaged (R334,
R342). -/
def runSet (s : State) : List BerthRun :=
  s.m.x.berths.filter fun r =>
    r.runs && (s.m.x.recrossings == 0 || s.m.x.recrossSet.contains r.slot.berth || r.damaged)

/-- Suspensions due at a slack water (R325, R341, R466). -/
def suspendAll (s : State) : State :=
  let bs := (s.m.x.berths.filter fun r => r.runs && suspendDue s r).map fun r => r.slot.berth
  let s := (bs ++ s.m.x.suspendReq.filter fun b => !bs.contains b).foldl (fun s b => suspendBerth b s) s
  s.modX fun x => { x with suspendReq := [] }

/-- The berths of the run whose work is all done, before this edge takes anything out of service (R329). -/
def cleanSet (s : State) : List Nat := ((runSet s).filter (berthClean s)).map fun r => r.slot.berth

/-- The endings of a run, of which some berths were clean. -/
def endRun (clean : List Nat) (s : State) : State :=
  let rs := runSet s
  let vs := rs.map fun r => judgeBerth s (clean.contains r.slot.berth) r
  let s := vs.foldl showVerdict s
  let bad := (rs.filter fun r => vs.any fun v => v.berth == r.slot.berth && v.ending != some 1).map BerthRun.slot
  let s := removePosts bad s
  let s := suspendAll ((vs.filter Verdict.suspend).foldl (fun s v => suspendBerth v.berth s) s)
  s.modX fun x => { x with restoring := (vs.filter Verdict.restore).map Verdict.berth
                           toRecross := (vs.filter Verdict.recross).map Verdict.berth }

/-! ### Slack water (R35, R40, R320) -/

/-- The tiles in escalated stop that a slack water releases (R535). -/
def releaseStops (s : State) : State :=
  let ks := (s.m.rigs.filter fun e => e.2.run == .escalated &&
    (!s.on (pgFctl (e.1 / 512)) FCTL.ESC_MODE_HOLD || s.m.releases.contains e.1)).map Prod.fst
  let s := ks.foldl (fun s k => releaseTile k s) s
  { s with m := { s.m with releases := [] } }

/-- Step 1 of R40: retirements, fences and routing updates. -/
def stepOne (s : State) : State :=
  let s := applyRetirements s
  let s := s.power.leaving.foldl (fun s f => leaveField f s) s
  finishTests (pendingRoutes s)

/-- Counts of the boundary that ends (R312). -/
def showCounts (s : State) : State :=
  let rs := s.m.x.berths.filter fun r => r.runs || r.endSuspended
  let n := fun (e : Nat) => (rs.filter fun r => berthGet s r.slot.berth BERTH.OUTCOME_ENDING == e).length
  let keeper := fun (k : Nat) => ((lidOf s (k / 512) (k % 512)).bind (berthOfLid s)).isNone
  [(CSEQ.END_COUNT_A_COMPLETED, n 1), (CSEQ.END_COUNT_A_OVERRUN, n 2), (CSEQ.END_COUNT_B_STALLED, n 3),
    (CSEQ.END_COUNT_B_FAULTED, n 4), (CSEQ.END_COUNT_C_RECROSSED, (rs.filter fun r => r.recrossings != 0).length),
    (CSEQ.END_COUNT_C_SUSPENDED, (rs.filter BerthRun.endSuspended).length), (CSEQ.RECROSSINGS_COUNT, s.m.x.recrossings),
    (CSEQ.KEEPER_STATUS_DAMAGED, s.m.x.keeperDamaged.length),
    (CSEQ.KEEPER_STATUS_STALLED, (s.m.x.limitStopped.filter keeper).length)].foldl (fun s w => s.set pgCseq w.1 w.2) s

/-- The final slack water of a boundary: its counts, the hoist armed for it, and the stop or the next opening (R40 steps 4
and 5, R257, R307). -/
def finalSlack (s : State) : State :=
  let s := showCounts s
  let s := s.set2 pgCseq CSEQ.SLACK_WTIME_LO_WTIME CSEQ.SLACK_WTIME_HI_WTIME s.m.wtime
  let s := hoistAtSlack (s.set pgCseq CSEQ.LAST_DRAIN_CYCLES (min (s.m.wtime - s.m.x.closeAt) (2 ^ 32 - 1)))
  if stopPending s then setCseq 0 (s.set pgCseq CSEQ.CSEQ_STATUS_STOP_PENDING 0)
  else s.modX fun x => { x with openReq := true }

/-- The slack-water test (R320, R608). -/
def slackTest (s : State) : Bool :=
  cseqState s == 2 && stagesEmpty s && stageFiveEmpty s && s.m.x.escs.isEmpty && !routesComputing s && !s.m.x.openReq

/-- The slack-water edge: PEAK and the work done as step 1 finds them, step 1, the endings of the run, the releases; then RESTORING,
or the final slack water. -/
def slackWater (s : State) : State :=
  let s := toDraining s
  if !slackTest s then s
  else
    let peaks := ((runSet s).map BerthRun.slot).foldl showPeak s
    let s := releaseStops (endRun (cleanSet s) (stepOne peaks))
    if s.m.x.restoring = [] then finalSlack s else setCseq 3 s

/-- SLACK_WATER (R320). -/
def execSlackWater (s : State) : Out := ifAwake (onRoster slackWater) s

/-! ### Restores and re-crossings (R330, R338, R342) -/

/-- A re-crossing opens on the edge after the restore. -/
def openRecross (s : State) : State :=
  let s := s.atTime ((s.m.wtime + 1) % 2 ^ 64)
  let set := s.m.x.toRecross
  let s := modBerths (fun r => set.contains r.slot.berth)
    (fun r => { r with damaged := false, faulted := false, overrun := false, stalled := false, recrossings := r.recrossings + 1 }) s
  let s := s.modX fun x => { x with
    recrossAt := s.m.wtime, recrossSet := set, restoring := [], toRecross := [], recrossings := x.recrossings + 1
    released := false }
  let mine := (partakers s).filter fun e => match e.2 with
    | some l => set.contains l.berth
    | none => false
  newEgress (setCseq 4 (openTiles (curNo s) true mine s))

/-- Every area is back in its snapshot region, berths ascending: the re-crossing opens, or this is the final slack water. -/
def restoreEnd (s : State) : State :=
  if cseqState s ≠ 3 ∨ s.m.x.openReq then s
  else
    let todo := s.m.x.restoring
    let s := ((s.m.x.berths.filter fun r => todo.contains r.slot.berth).map BerthRun.slot).foldl restoreBerth s
    if s.m.x.toRecross ≠ [] then openRecross s
    else finalSlack (suspendAll (stepOne (s.modX fun x => { x with restoring := [] })))

/-- RESTORE_END: the last copy back from the holders completes (R338). -/
def execRestoreEnd (s : State) : Out := ifAwake (onRoster restoreEnd) s

end Sys2Proof.Machine
end

