-- ==== Sys2Proof/Machine/Loop.lean ====
section
/-! DEFINITION. The field loop, the damage guard, the RTC (R113 to R128, R141), the built-in self-test and the tests of
landings and ports (R149 to R163). -/
namespace Sys2Proof.Machine
open Sys2Proof

/-! ### The field loop (R114 to R124) -/

/-- A field whose loop runs: its rail is on and its clock segment is not held by a trip, a failure or a retirement. -/
def loopRuns (s : State) (f : Nat) : Bool :=
  let v := fieldState s f
  fieldRail s f && (v == 1 || v == 2 || v == 3 || v == 8)

/-- A command of a field's loop while the wafer is awake. -/
def atLoop (f : Nat) (g : State → State) (s : State) : Out := ifAwake (fun s => if loopRuns s f then g s else s) s

/-- CAP_W as it acts (R119). -/
def capW (s : State) (f : Nat) : Nat := min 300 (s.get (pgFpwr f) FPWR.POWER_CAP_CAP_W)

/-- The largest allowance up to n whose estimate in watts keeps within a cap; 1 where none does (R114, R120). -/
def capAllow (watts : List Nat) (cap : Nat) : Nat → Nat
  | 0 => 1
  | n + 1 => if watts.getD n 0 ≤ cap then n + 1 else capAllow watts cap n

/-- One recomputation of the allowance: `margin` is the allowance that the measured margin supports and `watts` the
estimate of the field's power at the allowances 1 to 15 (R114, R115, R119, R120). -/
def recompute (f margin : Nat) (watts : List Nat) (s : State) : State :=
  let p := pgFpwr f
  let a := max 1 (min (min 15 margin) (capAllow watts (capW s f) 15))
  let a := if s.on p FPWR.LOOP_STATUS_DROOP_HOLD then 1 else a
  ((s.set p FPWR.LOOP_STATUS_ALLOWANCE a).set p FPWR.POWER_EST_WATTS (min 511 (watts.getD (a - 1) 0))).set p
    FPWR.LOOP_STATUS_CAP_UNMET (bit (decide (capW s f < watts.getD 0 0)))

/-- ALLOWANCE_RECOMPUTE (R114). -/
def execAllowanceRecompute (f : FieldId) (margin : Nat) (watts : List Nat) (s : State) : Out :=
  atLoop f.val (recompute f.val margin watts) s

/-- A droop monitor trips: the allowance is 1, held for 1,024 cycles (R115). -/
def droopTrip (f : Nat) (s : State) : State :=
  let p := pgFpwr f
  let s := ((s.set p FPWR.LOOP_STATUS_ALLOWANCE 1).set p FPWR.LOOP_STATUS_DROOP_HOLD 1).bumpSat p FPWR.DROOP_COUNT_COUNT
  { s with m := { s.m with droopUntil := insert f (s.m.wtime + 1024) s.m.droopUntil } }

/-- DROOP_TRIP (R115). -/
def execDroopTrip (f : FieldId) (s : State) : Out := atLoop f.val (droopTrip f.val) s

/-- The droop hold of a field ends at its WTIME (R115). -/
def droopEnd (f : Nat) (s : State) : State :=
  if s.on (pgFpwr f) FPWR.LOOP_STATUS_DROOP_HOLD then
    let w := max s.m.wtime (lookup 0 s.m.droopUntil f)
    let s := s.set (pgFpwr f) FPWR.LOOP_STATUS_DROOP_HOLD 0
    { s with m := { s.m with wtime := w, droopUntil := erase f s.m.droopUntil } }
  else s

/-- DROOP_HOLD_END (R115). -/
def execDroopHoldEnd (f : FieldId) (s : State) : Out := atLoop f.val (droopEnd f.val) s

/-- The effective VCEIL (R119). -/
def vceil (s : State) (f : Nat) : Nat := max 20 (min 36 (s.get (pgFpwr f) FPWR.VCEIL_CODE))

/-- VDEMAND_RECOMPUTE: `code` is the lowest voltage at which the margin supports an allowance of 15 (R117). -/
def execVdemandRecompute (f : FieldId) (code : Nat) (s : State) : Out :=
  atLoop f.val (fun s => s.set (pgFpwr f.val) FPWR.LOOP_STATUS_VDEMAND (max 4 (min code (vceil s f.val)))) s

/-- MAST_VISIT: the rail follows VDEMAND, unless the regulator is marked or the sideband is absent (R118, R124). -/
def execMastVisit (f : FieldId) (acked : Bool) (s : State) : Out :=
  atLoop f.val (fun s =>
    if !reachesRegulator s (.field f) || waitsFor s (.field f) then s
    else if acked then visit f.val s
    else notAcked (.field f) .visit s) s

/-! ### The damage guard (R125 to R128) -/

/-- The first sensor whose reading exceeds 105.0 degrees, in units of 0.25 degrees, with that reading. -/
def hotSensor (l : List Nat) : Option (Nat × Nat) := (l.zipIdx.find? fun p => decide (420 < p.1)).map fun p => (p.2, p.1)

/-- A field tripped by a sensor (R126, R128): a trip is no retirement, and its tiles are OFF as those of any field without power;
those of a field that is RETIRED stay so (R168). -/
def tripField (f sensor reading : Nat) (acked : Bool) (s : State) : State :=
  let retired := fieldState s f = 7
  let s := s.modP fun p => { p with leaving := p.leaving.erase f }
  let s := if retired then removeField f 7 6 false s else removeField f 6 0 true s
  let s := (setFieldOn f false s).setBit2 pgMpwr MPWR.FIELD_TRIP_LO_TRIP MPWR.FIELD_TRIP_HI_TRIP f true
  let s := raiseEvent { code := 0x1007, field := f, arg0 := reading, arg1 := sensor, alert := some acPower } s
  if !reachesRegulator s (railAt f) then railKept f s
  else if acked then fieldOff f 0x00 s
  else notAcked (railAt f) .tripOff s

/-- One field's readings of a sample: a powered field's, also where a trip has left its rail on; such a field is stopped already and
does not trip again (R125, R128). -/
def sampleField (unacked : List FieldId) (f : FieldId) (readings : List Nat) (s : State) : State :=
  if !fieldRail s f.val then s
  else
    let stopped := fieldState s f.val == 6
    let s := s.set (pgFpwr f.val) FPWR.TJ_TJ_MAX (min 1023 (readings.foldl max 0))
    match hotSensor readings with
    | some (i, x) =>
      if stopped then s
      else (tripField f.val i x (!unacked.contains f) s).set (pgFpwr f.val) FPWR.TJ_TJ_MAX (min 1023 (readings.foldl max 0))
    | none => s

/-- The readings of the fields in ascending field number (R127). -/
def sampleAll (readings : List (FieldId × List Nat)) (unacked : List FieldId) (s : State) : State :=
  (List.range 56).foldl (fun s i =>
    match readings.find? fun r => r.1.val == i with
    | some r => sampleField unacked r.1 r.2 s
    | none => s) s

/-- DAMAGE_GUARD_SAMPLE: the sensors of the powered fields, and the fields whose regulator does not acknowledge the write of
R126 step 3 (R125 to R128). -/
def execDamageGuardSample (readings : List (FieldId × List Nat)) (unacked : List FieldId) (s : State) : Out :=
  ifStandby (fun s => if pwrState s = 1 ∨ pwrState s = 2 then onRoster (sampleAll readings unacked) s else s) s

/-! ### The RTC (R141) -/

/-- A second tick: the RTC counts, and an armed alarm whose time is reached fires, which clears ALARM_EN (R141). -/
def secondTick (s : State) : State :=
  let s := s.modP fun p => { p with rtc := p.rtc + 1 }
  if s.on pgMpwr MPWR.RTC_ALARM_HI_ALARM_EN &&
      decide (s.get2 pgMpwr MPWR.RTC_ALARM_LO_ALARM MPWR.RTC_ALARM_HI_ALARM ≤ s.power.rtc.toNat) then
    (s.modP fun p => { p with alarmDue := true }).set pgMpwr MPWR.RTC_ALARM_HI_ALARM_EN 0
  else s

/-- RTC_SECOND_TICK: the RTC counts one second (R141). -/
def execRtcSecondTick (s : State) : Out := ifStandby secondTick s

/-- A write of RTC_SECONDS_HI (R141, R145). -/
def rtcLoad (hi : Word) (s : State) : State :=
  s.modP fun p => { p with rtc := BitVec.ofNat 48 (hi.toNat % 2 ^ 16 * 2 ^ 32 + p.rtcLoWritten.toNat) }

/-- RTC_SECONDS_WRITE: a write of RTC_SECONDS_HI loads all 48 bits (R141). -/
def execRtcSecondsWrite (hi : Word) (s : State) : Out := ifStandby (rtcLoad hi) s

/-- A read of RTC_SECONDS_LO latches the high part (R145). -/
def rtcLatch (s : State) : State := s.modP fun p => { p with rtcHiLatch := (p.rtc >>> 32).setWidth 16 }

/-- RTC_SECONDS_LO_READ (R145). -/
def execRtcSecondsLoRead (s : State) : Out := ifStandby rtcLatch s

/-! ### The built-in self-test (R149 to R154, R208 to R210) -/

/-- One test counted in BIST_RESULT. -/
def countTest (f : Nat) (passed : Bool) (s : State) : State :=
  s.bump (pgRostf f) (if passed then ROSTF.BIST_RESULT_PASSED else ROSTF.BIST_RESULT_FAILED)

/-- A tile of a field under test becomes FAILED; a spare of its row takes its place (R210). -/
def failTile (f t : Nat) (s : State) : State := promoteRow f (tileRow t) (countTest f false (setTileState f t 5 s))

/-- A bank that failed its test: its entry and event, and its share (R150, R208). -/
def failBank (f t : Nat) (s : State) (b : Nat) : State :=
  let s := (raiseEntry { code := 0x2002, field := f, tile := t, arg0 := b }
    { kind := 2, source := 1, field := f, locator := bankLoc t b } s).1
  s.setBit (pgTile f t 0) TP0.BANK_STATUS_IN_SERVICE b false

/-- A tile leaves the test: `part` is the part of R150 that failed and `banks` the banks that failed (R151, R152). -/
def tileTestEnd (f t : Nat) (part : Option Nat) (banks : List Nat) (s : State) : State :=
  let live := (List.range 8).filter fun b => bitAt (s.get (pgTile f t 0) TP0.BANK_STATUS_IN_SERVICE) b
  let bad := live.filter banks.contains
  let part := if part.isNone ∧ bad = live then some 3 else part
  let s := match part with
    | some p => (raiseEntry { code := 0x2001, field := f, tile := t, arg0 := p }
        { kind := 1, source := 1, field := f, locator := tileLoc t } s).1
    | none => s
  let s := bad.foldl (failBank f t) s
  let s := match part with
    | some _ => failTile f t s
    | none => countTest f true (enterPassed f t s)
  finishBist f s

/-- TILE_TEST_END (R151, R152). -/
def execTileTestEnd (f : FieldId) (t : TileId) (part : Option Nat) (banks : List Nat) (s : State) : Out :=
  ifAwake (fun s =>
    if fieldState s f.val = 2 ∧ tileState s f.val t.val = 1 then
      onRoster (fun s0 => newFieldRecords s0 (tileTestEnd f.val t.val part banks s0)) s
    else s) s

/-- A tile still under test at the time-out (R153). -/
def timeoutTile (f : Nat) (s : State) (t : Nat) : State :=
  if tileState s f t = 1 then
    raiseEvent { code := 0x2003, field := f, tile := t, alert := some acTest } (failTile f t s)
  else s

/-- BIST_TIMEOUT: 25 ms after the start of the field's test (R153). -/
def execBistTimeout (f : FieldId) (s : State) : Out :=
  ifAwake (fun s =>
    if fieldState s f.val ≠ 2 then s
    else
      let w := max s.m.wtime (lookup 0 s.m.bistStart f.val + 30000000)
      onRoster (fun s => finishBist f.val ((List.range 468).foldl (timeoutTile f.val) s))
        { s with m := { s.m with wtime := w } }) s

/-! ### Landings and ports (R159, R160, R163) -/

/-- LANDING_SELF_TEST_END (R159). -/
def execLandingSelfTestEnd (k : LandingId) (passed : Bool) (s : State) : Out :=
  ifAwake (fun s =>
    if !landingRail s k.val || s.m.landingTested.contains k.val then s
    else onRoster (fun s =>
      let s := { s with m := { s.m with landingTested := k.val :: s.m.landingTested } }
      if passed then startEnds (56 + k.val) (s.setBit pgRoster ROSTER.LANDING_READY_READY k.val true)
      else raiseEvent { code := 0x2005, arg0 := k.val, alert := some acTest }
        (s.setBit pgRoster ROSTER.LANDING_READY_FAILED k.val true)) s) s

/-- PORT_WINDOW_EXPIRY: a port has been down for 3 s since its landing became ready (R163). -/
def execPortWindowExpiry (k : LandingId) (p : Nat) (s : State) : Out :=
  ifAwake (fun s =>
    if !landingReady s k.val || portUp s k.val p || landingPorts s k.val ≤ p || s.m.portWindow.contains (4 * k.val + p) then s
    else onRoster (fun s => { s with m := { s.m with portWindow := s.m.portWindow ++ [4 * k.val + p] } }) s) s

end Sys2Proof.Machine
end

