-- ==== Sys2Proof/Machine/Tap.lean ====
section
/-! DEFINITION. The public test port (R299 to R305): the instruction it holds, the boundary register's update latches and
EXTEST. -/
namespace Sys2Proof.Machine
open Sys2Proof

/-- TRST_N is high and the standby domain is ready: the test port leaves Test-Logic-Reset (R299, R305). -/
def tapFree (s : State) : Bool := s.power.standby && s.pins.trstN

/-- The register that an instruction code places between TDI and TDO (R300, R303). -/
def tapSel (code : Nat) (refused : Bool) : TapReg :=
  if refused then .bypass
  else match code with
    | 0 | 1 => .boundary
    | 2 => .idcode
    | _ => .bypass

/-- The device identification register (R301). -/
def idcodeWord : Word := 0x1CAE09B3

/-- What Capture-IR loads (R300). -/
def captureIr : BitVec 4 := 0b0001

/-- The level on the ALERT_N contact: low where the Mast pulls it, under EXTEST the boundary register, or where another agent does
(R291, R295, R302, R303). -/
def alertLow (s : State) : Bool := if s.tap.extest then !s.tap.latch.getLsbD 5 else alertDriven s
def alertHigh (s : State) : Bool := !alertLow s && !s.pins.alertPulledLow

/-- What the boundary register captures: the cells of ALERT_N, RESET_N and WAKE_N from the block, every other cell from the level
outside it (R302; log 69). -/
def captureCells (levels : BitVec 21) (s : State) : Nat :=
  putBit (putBit (putBit (putBit levels.toNat 5 (!alertDriven s)) 6 (alertHigh s)) 7 s.pins.resetN) 8 s.pins.wakeN

/-- What Capture-DR loads into the selected register, as its length and its value (R300 to R302). -/
def captureDr (levels : BitVec 21) (s : State) : Nat × Nat :=
  match s.tap.sel with
  | .idcode => (32, idcodeWord.toNat)
  | .bypass => (1, 0)
  | .boundary => (21, captureCells levels s)

/-- The bits of a captured register as a scan shifts them out of TDO: the cell nearest TDO first (R302). -/
def shiftOut (r : Nat × Nat) : List Bool := (List.range r.1).map (bitAt r.2)

/-- The pins that the boundary register drives (R302). -/
inductive TapPin
  | spiMiso | alertN | pmbScl | pmbSda | flsSck | flsCsN | flsIo0 | flsIo2 | flsIo3
deriving DecidableEq, Repr

/-- What the cells of the boundary register do to a pin under EXTEST: the level that they drive, or none where they release it (R302,
R303). -/
def cellsDrive (latch : BitVec 21) (p : TapPin) : Option Bool :=
  let driven := fun (enable data : Nat) => if latch.getLsbD enable then some (latch.getLsbD data) else none
  let openDrain := fun (cell : Nat) => if latch.getLsbD cell then none else some false
  match p with
  | .spiMiso => driven 4 3
  | .alertN => openDrain 5 | .pmbScl => openDrain 9 | .pmbSda => openDrain 11
  | .flsSck => driven 20 14 | .flsCsN => driven 20 15 | .flsIo0 => driven 20 16 | .flsIo2 => driven 20 18 | .flsIo3 => driven 20 19

/-- The safe values of the output cells: 1 in cells 5, 9, 11, 15, 18 and 19 (R302). -/
def safeCells : BitVec 21 := 0b011001000101000100000

/-- The pins under EXTEST; none while the functional logic has them (R300, R303). -/
def extestDrives (s : State) (p : TapPin) : Option (Option Bool) :=
  if s.tap.extest then some (cellsDrive s.tap.latch p) else none

/-- An instruction scanned into the instruction register: its register, TAP_STATUS.IR and EXTEST; what Capture-IR loaded has left by
TDO (R300, R303). -/
def setTap (code : Nat) (extest refused : Bool) (s : State) : State :=
  { s with tap := { s.tap with sel := tapSel code refused, extest := extest, tdo := shiftOut (4, captureIr.toNat) } }.set pgMast
    MAST.TAP_STATUS_IR code

/-- EXTEST ends: wake sources that were held are acted on (R304). -/
def afterExtest (was : Bool) (probe : ProbeAnswers) (s : State) : State := if was then actHeld probe s else s

/-- An instruction other than EXTEST loaded. -/
def loadTap (code : Nat) (probe : ProbeAnswers) (s : State) : State :=
  if tapFree s then afterExtest s.tap.extest probe (setTap code false false s) else s

/-- EXTEST loaded: in effect while MOORED, with a frame in progress rejected; else as BYPASS (R303, R304). -/
def loadExtest (frame : Option Frame) (s : State) : State :=
  if !tapFree s then s
  else if moored s then
    let s := match frame with
      | some f => if s.tap.extest || f.edges = 0 then s else rejectFrame f 2 s
      | none => s
    setTap 0 true false s
  else (setTap 0 false true s).set pgMast MAST.TAP_STATUS_EXTEST_REFUSED 1

/-- EXTEST is loaded (R303). -/
def execExtest (frame : Option Frame) (s : State) : Out := .next (loadExtest frame s)

/-- SAMPLE/PRELOAD is loaded (R300). -/
def execSamplePreload (probe : ProbeAnswers) (s : State) : Out := .next (loadTap 1 probe s)

/-- IDCODE is loaded (R301). -/
def execIdcode (probe : ProbeAnswers) (s : State) : Out := .next (loadTap 2 probe s)

/-- A code that acts as BYPASS; one that names another instruction is not this command. -/
def loadBypass (code : Nat) (probe : ProbeAnswers) (s : State) : State :=
  if 3 ≤ code ∧ code ≤ 15 then loadTap code probe s else s

/-- BYPASS, or a code from 0x3 to 0xE, is loaded (R300). -/
def execBypass (code : Nat) (probe : ProbeAnswers) (s : State) : Out := .next (loadBypass code probe s)

/-- The level of TRST_N; low, it resets the port to Test-Logic-Reset, which selects IDCODE (R299, R300, R305). -/
def trstLevel (low : Bool) (probe : ProbeAnswers) (s : State) : State :=
  let was := s.tap.extest
  let s := { s with pins := { s.pins with trstN := !low } }
  if low && s.power.standby then
    afterExtest was probe ({ s with tap := { s.tap with sel := .idcode, extest := false } }.set pgMast MAST.TAP_STATUS_IR 2)
  else s

/-- TRST_N falls or rises (R299). -/
def execTrstN (low : Bool) (probe : ProbeAnswers) (s : State) : Out := .next (trstLevel low probe s)

/-- A data-register scan: the captured register leaves by TDO, and in Update-DR the boundary register's cells take the scanned values
where it is selected (R300 to R302). -/
def updateDr (value levels : BitVec 21) (s : State) : State :=
  if !tapFree s then s
  else
    let out := shiftOut (captureDr levels s)
    { s with tap := { s.tap with tdo := out, latch := if s.tap.sel = .boundary then value else s.tap.latch } }

/-- UPDATE_DR: a data-register scan ends (R302). -/
def execUpdateDr (value : BitVec 21) (s : State) (levels : BitVec 21 := 0) : Out := .next (updateDr value levels s)

end Sys2Proof.Machine
end

