-- ==== Sys2Proof/Machine/Access.lean ====
section
/-! DEFINITION. Accesses to registers (R9 to R13, R222 to R241, R280 to R287, R436 to R438, R551, R789): what a word reads, what a
write does to each field and to the block, READ and WRITE frames, broadcast writes and the IOU of a tile. -/
namespace Sys2Proof.Machine
open Sys2Proof

/-! ### What a word reads (R11, R227) -/

/-- The block of a page reports ready (R227); a tile as TILE_COUNT.READY counts it (DESIGN CHOICE, log 46). -/
def pageReady (s : State) (p : Nat) : Bool :=
  match kindOf p with
  | some .netl | some .netlBay | some .netlFlow | some .strl | some .strlX | some .landingEmpty =>
    landingReady s (fieldOf p)
  | some .fctl | some .fpwr | some .ftopo => fieldReady s (fieldOf p)
  | some .haws =>
    let e := pageNoOf p - 0x080
    endExists (fieldOf p) e && (if e < 92 then chanReady s (fieldOf p) e else bothUp s (fieldOf p) e)
  | some .tile0 | some .tile1 | some .tile2 | some .tile3 => tileReady s (fieldOf p) (tileOf p)
  | _ => awake s

/-- FENCED: the channel of a HAWS page is reported fenced (R227). -/
def pageFenced (s : State) (p : Nat) : Bool :=
  let e := pageNoOf p - 0x080
  kindOf p == some .haws && endExists (fieldOf p) e && decide (e < 92) && chanFenced s (fieldOf p) e

/-- DEGRADED (R478, R587, R678). -/
def pageDegraded (s : State) (p : Nat) : Bool :=
  match kindOf p with
  | some .tile0 | some .tile1 => s.get (p0 (tileKey (fieldOf p) (tileOf p))) TP0.BANK_STATUS_IN_SERVICE != 0xFF
  | some .haws =>
    let e := pageNoOf p - 0x080
    endExists (fieldOf p) e && decide (s.get p HAWS.LINK_ACTIVE < fullLanes (fieldOf p) e)
  | _ => false

/-- PAGE_STATUS (R227). -/
def pageStatus (s : State) (p : Nat) : Nat :=
  bit (pageReady s p) + 2 * s.get p HDR.PAGE_STATUS_HALTED + 4 * bit (pageFenced s p) +
    8 * s.get p HDR.STAGE_STATUS_DIRTY + 16 * bit (errorPresent s p) + 32 * bit (pageDegraded s p)

/-- ALERT_PIN (R297). -/
def alertPin (s : State) : Nat :=
  bit (alertLow s) + 2 * bit (alertHigh s) + 4 * s.get pgMast MAST.ALERT_PIN_HELD_LOW

/-- OLDEST_SEQ (R758). -/
def oldestSeq (s : State) : Nat :=
  let next := s.get pgLogb LOGB.NEXT_SEQ_SEQ
  let first := s.log.first.toNat
  if (next + 2 ^ 32 - first) % 2 ^ 32 ≤ 8192 then first else (next + 2 ^ 32 - 8192) % 2 ^ 32

/-- The head of the checker's FIFO (R250, R252). -/
def fifoHead (s : State) : Nat := match s.m.hoist.fifo with
  | x :: _ => x.toNat
  | [] => 0

/-- A register word that shows something other than what it holds. -/
def derivedWord (s : State) (k : PageKind) (a : Nat) (berth : Bool) : Option Nat :=
  let off := offOf a
  let f := fieldOf a
  if off = 0x004 then some (pageStatus s (pageOf a))
  else match k with
  | .mast => if off = 0x06C then some (alertPin s) else none
  | .mpwr =>
    if off = 0x070 then some (s.power.rtc.toNat % 2 ^ 32) else if off = 0x074 then some s.power.rtcHiLatch.toNat else none
  | .dmap =>
    if off = 0x050 then some (s.map.waferId.toNat % 2 ^ 32) else if off = 0x054 then some (s.map.waferId.toNat / 2 ^ 32) else none
  | .logb => if off = 0x044 then some (oldestSeq s) else if off = 0x04C then some (unsaved s) else none
  | .cseq =>
    if off = 0x044 then some ((s.word a).toNat + 16 * drainStage s)
    else if off = 0x064 then some s.m.x.curNoHi.toNat else none
  | .hoist =>
    if off = 0x074 then some s.m.hoist.fifo.length
    else if off = 0x078 then some (fifoHead s) else if off = 0x07C then some (fifoHead s / 2 ^ 32) else none
  | .ftopo =>
    if off = 0x06C then some ((s.word a).toNat % 256 + unreach s f * 256)
    else if off = 0x070 then some (reach s f) else if off = 0x074 then some (reach s f / 2 ^ 32)
    else if off = 0x07C then some (lookupOut s f) else none
  | .tile0 =>
    if off = 0x210 ∧ berth then some 0
    else if off = 0x28C then some ((s.word a).toNat / 16 * 16 + s.get (pgFpwr f) FPWR.LOOP_STATUS_ALLOWANCE) else none
  | .tile1 =>
    if 0x0C0 ≤ off ∧ off < 0x0D4 then some (waitCount s (tileKey f (tileOf a)) ((off - 0x0C0) / 4)) else none
  | .haws =>
    if off = 0x07C then some (replayedCount s f (pageNoOf a % 128)) else none
  | _ => none

/-- What a read of the word at an address returns; `berth` for an ior of the berth world. -/
def regRead (s : State) (a : Nat) (berth : Bool) : Word :=
  match kindOf a with
  | none => 0
  | some k =>
    match derivedWord s k a berth with
    | some n => BitVec.ofNat 32 n
    | none => if s.on (pageOf a) HDR.STAGE_CONTROL_READ_STAGED then stagedWord s a else s.word a

/-- What a read changes, where its chapter says so (R141, R250, R282, R312, R536). -/
def readEffect (a : Nat) (s : State) : State :=
  match kindOf a with
  | some .mpwr => if offOf a = 0x070 then rtcLatch s else s
  | some .hoist => if offOf a = 0x07C then popFifo s else s
  | some .cseq => if offOf a = 0x060 then latchCurNo s else s
  | some .fctl => if offOf a = 0x054 then popReport (fieldOf a) s else s
  | _ => s

/-! ### What a write does to the fields of a word (R9, R10, R232 to R237, R244) -/

/-- The staged fields of a word take a value, unless their page is locked. -/
def stageWord (a : Nat) (v : Word) (s : State) : State :=
  let p := pageOf a
  if s.on p HDR.STAGE_STATUS_LOCKED then setError p 2 s
  else (s.setShadow a (overlay (stageMask a) v (s.shadowWord a))).set p HDR.STAGE_STATUS_DIRTY 1

/-- The halt-only fields of a word take a value while their block is halted. -/
def haltOnlyWord (k : PageKind) (a : Nat) (v : Word) (s : State) : State :=
  let p := pageOf a
  if s.on p HDR.PAGE_STATUS_HALTED then s.setWord a (overlay (attrMask k (offOf a) .rwH) v (s.word a)) else setError p 0 s

/-- The live fields of a word take a value, and its W1C bits written with 1 are cleared; HALT_REQ has an operation of its own. -/
def liveWord (k : PageKind) (a : Nat) (v : Word) (s : State) : State :=
  let p := pageOf a
  let off := offOf a
  let l := if off = 0x008 then attrMask k off .rwL &&& ~~~1 else attrMask k off .rwL
  let before := errorPresent s p
  afterError before p (s.setWord a (overlay l v (s.word a) &&& ~~~(v &&& attrMask k off .w1c)))

/-- A write to a word, each field by its attribute. -/
def writeFields (a : Nat) (v : Word) (s : State) : State :=
  match kindOf a with
  | none => s
  | some k =>
    let off := offOf a
    let s := if attrMask k off .rwL ||| attrMask k off .w1c = 0 then s else liveWord k a v s
    let s := if attrMask k off .rwH = 0 then s else haltOnlyWord k a v s
    if stageMask a = 0 then s else stageWord a v s

/-! ### Registers with a behaviour of their own -/

/-- A write of FIELD_ON_LO or FIELD_ON_HI: its bits that change, fields ascending (R101). -/
def writeFieldOn (base : Nat) (v : Word) (s : State) : State :=
  (List.range (min 32 (56 - base))).foldl (fun s i =>
    if v.getLsbD i then fieldOnSet (base + i) s else fieldOnClear (base + i) s) s

/-- A write of LANDING_ON (R101). -/
def writeLandingOn (v : Word) (s : State) : State :=
  (List.range 12).foldl (fun s i => if v.getLsbD i then landingOnSet i s else landingOnClear i s) s

/-- A write of an MPWR register; the answers that SIDEBAND_RETRY brings come in a command of its own (log 47). LANDING_FAULT is a bit
of BRINGUP's condition (R163). -/
def writeMpwr (a : Nat) (v : Word) (s : State) : State :=
  match offOf a with
  | 0x044 => writeFieldOn 0 v s
  | 0x048 => writeFieldOn 32 v s
  | 0x04C => writeLandingOn v s
  | 0x070 => s.modP fun p => { p with rtcLoWritten := v }
  | 0x074 => rtcLoad v s
  | 0x068 => if mainUp s then onRoster (writeFields a v) s else writeFields a v s
  | 0x06C =>
    let s := writeFields a v s
    if v.getLsbD 8 then askProbe s else s
  | 0x084 => if v.getLsbD 0 then requestMoor .request s else s
  | _ => writeFields a v s

/-- A write of a MAST register. -/
def writeMast (a : Nat) (v : Word) (s : State) : State :=
  match offOf a with
  | 0x05C => if v.getLsbD 0 then clearCounters s else s
  | 0x060 => clearCause v.toNat s
  | _ => writeFields a v s

/-- A write of a DMAP register; the answers that MAP_SYNC brings come in a command of its own (log 47). -/
def writeDmap (a : Nat) (v : Word) (s : State) : State :=
  match offOf a with
  | 0x058 => settleEos (writeFields a v s)
  | 0x05C =>
    let s := writeFields a v s
    if v.getLsbD 8 then askSync s else s
  | 0x068 => if v.getLsbD 0 then retireCmd s else s
  | 0x070 => showRecord (writeFields a v s)
  | _ => writeFields a v s

/-- A write of a LOGB register. -/
def writeLogb (a : Nat) (v : Word) (s : State) : State :=
  match offOf a with
  | 0x048 => ackSeq v s
  | 0x060 => readSeq v s
  | 0x088 => serviceMark v s
  | 0x08C => serviceReason (v.setWidth 8) s
  | _ => writeFields a v s

/-- A write of a HOIST register (R253). -/
def writeHoist (a : Nat) (v : Word) (s : State) : State :=
  if offOf a = 0x040 then
    match v.toNat % 8 with
    | 1 => startCheck false s
    | 2 => startCheck true s
    | 3 => disarm s
    | 4 => abort s
    | _ => s
  else writeFields a v s

/-- A write of a CSEQ register (R307). -/
def writeCseq (a : Nat) (v : Word) (s : State) : State :=
  if offOf a = 0x040 then
    match v.toNat % 4 with
    | 1 => startCrossing false s
    | 2 => stopCrossing s
    | 3 => startCrossing true s
    | _ => s
  else writeFields a v s

/-- A write of a BERTH register (R325). -/
def writeBerth (a : Nat) (v : Word) (s : State) : State :=
  let off := offOf a
  if 0x40 ≤ off ∧ off < 0xC40 ∧ off % 64 = 0x30 then
    let b := (pageNoOf a - 8) * 48 + (off - 0x40) / 64
    let s := if v.getLsbD 0 then onRoster (resume b) s else s
    if v.getLsbD 1 then onRoster (suspend b) s else s
  else writeFields a v s

/-- A write of an ECC_CONTROL word: INJ_UE wins over INJ_CE (R467). -/
def writeEcc (k a : Nat) (v : Word) (s : State) : State :=
  let s := writeFields a v s
  if v.getLsbD 17 then injectErr k true s else if v.getLsbD 16 then injectErr k false s else s

/-- A write of EVENTS: the pending bits, the levels and RAISE (R12, R515, R520). -/
def writeEvents (k a : Nat) (v : Word) (s : State) : State :=
  let s := writeFields a v s
  let s := if v.getLsbD 0 then s.modRig k fun r => { r with arithRec := none, arithMulti := false } else s
  if v.getLsbD 24 then s.set (p0 k) TP0.EVENTS_SOFT 1 else s

/-- A write of a register of tile page 0; CXDONE takes its write from the rig alone (R314). -/
def writeTile0 (a : Nat) (v : Word) (s : State) : State :=
  let k := tileKey (fieldOf a) (tileOf a)
  match offOf a with
  | 0x054 => if v.getLsbD 0 then ifsGo k (v.getLsbD 1) s else s
  | 0x058 => if v.getLsbD 0 then iflGo k (v.getLsbD 1) s else s
  | 0x08C => writeEcc k a v s
  | 0x100 => pmodeWrite k (v.getLsbD 0) s
  | 0x110 => writeEvents k a v s
  | _ => writeFields a v s

/-- A write of a header register: HALT_REQ (R231) and DISCARD (R238). -/
def writeHeader (a : Nat) (v : Word) (s : State) : State :=
  let s := writeFields a v s
  match offOf a with
  | 0x008 => haltReq (pageOf a) (v.getLsbD 0) s
  | 0x014 => if v.getLsbD 0 then discard (pageOf a) s else s
  | _ => s

/-- A write of an FCTL register (R535). -/
def writeFctl (a : Nat) (v : Word) (s : State) : State :=
  if offOf a = 0x058 then
    if v.getLsbD 31 ∧ v.toNat % 512 < 468 then escRelease (tileKey (fieldOf a) (v.toNat % 512)) s else s
  else writeFields a v s

/-- A write of a HAWS register (R671). -/
def writeHaws (a : Nat) (v : Word) (s : State) : State :=
  if offOf a = 0x090 then (if v.getLsbD 0 then breakEnd (fieldOf a) (pageNoOf a - 0x080) s else s) else writeFields a v s

/-- A write of a register of the transfer slots (R707). -/
def writeStrlX (a : Nat) (v : Word) (s : State) : State :=
  let off := offOf a
  if 0x40 ≤ off ∧ off < 0x440 ∧ off % 64 = 0 then xctlWrite (fieldOf a) ((off - 0x40) / 64) v s else writeFields a v s

/-- The page of a channel end that does not exist: it ignores writes (R676). -/
def noEnd (a : Nat) : Bool := kindOf a == some .haws && !endExists (fieldOf a) (pageNoOf a - 0x080)

/-- A write that reaches the word at an address. -/
def regWrite (a : Nat) (v : Word) (s : State) : State :=
  match kindOf a with
  | none => s
  | some k =>
    if noEnd a then s
    else if offOf a < 0x40 then writeHeader a v s
    else match k with
    | .mast => writeMast a v s
    | .mpwr => writeMpwr a v s
    | .dmap => writeDmap a v s
    | .logb => writeLogb a v s
    | .hoist => writeHoist a v s
    | .cseq => writeCseq a v s
    | .berth => writeBerth a v s
    | .strlX => writeStrlX a v s
    | .fctl => writeFctl a v s
    | .tile0 => writeTile0 a v s
    | .haws => writeHaws a v s
    | .roster | .rostf | .netl | .netlBay | .netlFlow | .strl | .landingEmpty | .fpwr | .ftopo | .tile1 | .tile2
    | .tile3 => writeFields a v s

/-- A value as a write of the berth world stores it (R551). -/
def capBerth (s : State) (k off : Nat) (v : Word) : Word :=
  let cap := s.get (p0 k) TP0.TILE_CTL_BERTH_MCAP
  if off = 0x16C then setBits v 0 3 (min (getBits v 0 3) cap)
  else if off = 0x168 then setBits v 12 3 (min (getBits v 12 3) cap)
  else v

/-- A write by the rig of a tile to a word of its pages. -/
def rigWrite (k a : Nat) (berth : Bool) (v : Word) (s : State) : State :=
  regWrite a (if berth ∧ kindOf a = some .tile0 then capBerth s k (offOf a) v else v) s

/-! ### Broadcast writes (R223, R239 to R241, R789) -/

/-- An address breaks no part of the first case of R226, as a single one. -/
def addrSingle (a : Nat) : Bool := decide (a % 4 = 0) && (kindOf a).isSome

/-- The same of an address whose Field or Tile part broadcasts. -/
def addrBroadcast (a : Nat) : Bool :=
  let f := fieldOf a; let t := tileOf a; let p := pageNoOf a
  decide (a % 4 = 0) && match clsOf a with
    | 2 => f == 63 && t == 0 && decide (p < 64)
    | 4 => f == 63 && t == 0 && (decide (p < 3) || decide (128 ≤ p ∧ p < 256))
    | 8 => (f == 63 || decide (f < 56)) && (t == 511 || decide (t < 468)) && decide (p < 4) && (f == 63 || t == 511)
    | _ => false

/-- The addresses of the instances that a broadcast names, ascending. -/
def instances (a : Nat) : List Nat :=
  let c := clsOf a; let p := pageNoOf a; let o := offOf a
  let fs := if fieldOf a = 63 then List.range (if c = 2 then 12 else 56) else [fieldOf a]
  let ts := if c = 8 ∧ tileOf a = 511 then List.range 468 else [tileOf a]
  fs.flatMap fun f => ts.map fun t => pageAddr c f t p + o

/-- One instance of a broadcast, with the count of pages written. -/
def broadcastAt (v : Word) (r : State × Nat) (a : Nat) : State × Nat :=
  let s := r.1
  if !reachable s (pageOf a) ∨ stageMask a = 0 ∨ noEnd a then r
  else (stageWord a v s, if s.on (pageOf a) HDR.STAGE_STATUS_LOCKED then r.2 else r.2 + 1)

/-- A broadcast write: only staged fields are written. -/
def broadcast (a : Nat) (v : Word) (s : State) : State :=
  let r := (instances a).foldl (broadcastAt v) (s, 0)
  r.1.set pgHoist HOIST.BCAST_COUNT_COUNT r.2

/-! ### READ and WRITE frames (R280 to R286) -/

/-- A READ frame taken: an address error is known at once, every other case of R226 when the access reaches the page (R284, R286). -/
def readFrame (tag : Byte) (a : Nat) (s : State) : State :=
  takeCommand tag (if addrSingle a then .read a else .answer 0x80) 9 s

/-- READ (R282). -/
def execRead (tag : Byte) (addr : BitVec 40) (s : State) : Out := ifFree 0x10 tag 9 (readFrame tag addr.toNat) s

/-- A WRITE frame taken; a broadcast is refused while the wafer is moored or treated as moored (R282, R789). -/
def writeFrame (tag : Byte) (a : Nat) (v : Word) (s : State) : State :=
  takeCommand tag (if addrBroadcast a then (if mainUp s then .broadcast a v else .answer 0x81)
    else if addrSingle a then .write a v else .answer 0x80) 13 s

/-- WRITE (R282). -/
def execWrite (tag : Byte) (addr : BitVec 40) (data : Word) (s : State) : Out :=
  ifFree 0x11 tag 13 (writeFrame tag addr.toNat data) s

/-- The command in progress reaches its page, where the page can still be reached, and completes (R280, R282, R284 to R286, R789;
log 10). -/
def completeCommand (s : State) : State :=
  match s.port.cmd with
  | none => s
  | some (.answer r) => answerCommand r 0 s
  | some (.read a) => if reachable s (pageOf a) then answerCommand 0 (regRead s a false) (readEffect a s) else answerCommand 0x81 0 s
  | some (.write a v) => if reachable s (pageOf a) then answerCommand 0 0 (regWrite a v s) else answerCommand 0x81 0 s
  | some (.broadcast a v) => answerCommand 0 0 (if mainUp s then broadcast a v s else s)

/-- COMMAND_COMPLETE: the command in progress acts and LAST_RESULT and LAST_DATA take their values (R280). -/
def execCommandComplete (s : State) : Out := ifStandby completeCommand s

/-- A frame that R277 takes acts by its command code (R274, R275, R281, R282). -/
def takenFrame (f : Frame) (probe : ProbeAnswers) (s : State) : State :=
  let tag := BitVec.ofNat 8 (frameByte f 1)
  match frameByte f 0 with
  | 0x01 => statusFrame s
  | 0x10 => readFrame tag (frameAddress f) s
  | 0x11 => writeFrame tag (frameAddress f) (frameData f) s
  | 0x20 => moorFrame tag s
  | _ => wakeFrame tag probe s

/-- REJECTED_FRAME: a frame of SPI_MOSI bytes judged by R277: rejected, or, where none of its steps rejects it, taken (R278). -/
def execRejectedFrame (frame : Frame) (s : State) (probe : ProbeAnswers := []) : Out :=
  .next (if portOpen s then
      match judge s frame with
      | .noFrame => s
      | .rejected r => rejectFrame frame r s
      | .taken => takenFrame frame probe s
    else s)

/-- A write by the management port, or by the rig of the tile whose page it is. -/
def registerWrite (w : Writer) (a : Nat) (v : Word) (s : State) : State :=
  if !(s.power.standby && addrSingle a && reachable s (pageOf a)) then s
  else match w with
  | .management => regWrite a v s
  | .rig =>
    let k := tileKey (fieldOf a) (tileOf a)
    if clsOf a = 8 then rigWrite k a (isSplit s k && inBerth s k) v s else s

/-- REGISTER_WRITE: a write to a register by the management port or by iow (R232). -/
def execRegisterWrite (w : Writer) (addr : BitVec 40) (data : Word) (s : State) : Out :=
  .next (registerWrite w addr.toNat data s)

/-! ### The IOU (R436 to R438) -/

/-- The oldest IOU access completes, with a value for r where it has one. -/
def iouDone (k : Nat) (v : Option Word) (s : State) : State :=
  s.modRig k fun r => match r.iouQ with
    | [] => r
    | q :: rest => { r with iouQ := rest, iouIlk := if q.write then r.iouIlk else markDone v r.iouIlk }

/-- The content of a bundle that an IFS is about to replace stays visible to fetch up to the fourth slot after its trigger
(R382, R472). -/
def keepOld (k : Nat) (q : IouAcc) (s : State) : State :=
  if q.addr = 0x054 ∧ q.data.getLsbD 0 then
    let b := s.get (p0 k) TP0.IF_ADDR_BUNDLE
    let old := imemAt s k b
    s.modRig k fun r => { r with ifsOld := r.ifsOld ++ [(q.slot + 4, b, old)] }
  else s

/-- The oldest IOU access of a tile takes effect; a write of 1 to CXDONE is a command of its own. -/
def iouStep (k : Nat) (s : State) : State :=
  match (s.rig k).iouQ with
  | [] => s
  | q :: _ =>
    if matrixHalted s k || (q.write && q.addr == 0x200 && q.data.getLsbD 0) then s
    else if !ioValid q.addr then raiseBus k 2 q.bundle q.slot q.addr (iouDone k none s)
    else
      let a := pgTk k (q.addr.toNat / 4096) + q.addr.toNat % 4096
      let s := grant k 0 9 1 s
      let berth := q.berth && isSplit s k
      if q.write then iouDone k none (rigWrite k a berth q.data (keepOld k q s))
      else iouDone k (some (regRead s a berth)) s

/-- IOU_ACCESS_COMPLETE: the oldest access of a tile's IOU takes effect (R437, R438). -/
def execIouAccessComplete (f : FieldId) (t : TileId) (s : State) : Out := ifAwake (iouStep (tileKey f.val t.val)) s

end Sys2Proof.Machine
end

