-- ==== Sys2Proof/Machine/Packets.lean ====
section
/-! DEFINITION. Packets served at their destinations (R454 to R458, R573, R597, R598, R624) and posts received (R332, R335,
R344, R350). A packet's row names its place in the mesh; a packet that is not of the row's kind, has not arrived, or has to
wait, stays. -/
namespace Sys2Proof.Machine
open Sys2Proof

/-! ### Requests at M3 -/

/-- What serving a request gives: its response's kind, DATA and flits. -/
structure Served where
  state : State
  kind : Nat
  data : Word := 0
  flits : List Byte := []

/-- A request at a tile: its sender gets an error where the tile does not serve (R456, R457); it waits while the matrix is halted, for a
line that has not been copied and while another master's request ranks before it (R337, R563, R566), and is served else. -/
def serve (kind i : Nat) (act : Nat → Pkt → State → Served) (s : State) : State :=
  match arrived kind i s with
  | none => s
  | some p =>
    if 56 ≤ p.dstField then s
    else if !tileReady s p.dstField p.dstTile then lose p (consume i p s)
    else if matrixHalted s p.tile || pktWaits s p || !(pktReq s p).all (wins s p.tile 3) then s
    else
      let r := act p.tile p (consume i p s)
      answer p r.kind r.data r.flits (drainIf p.tile (ifWaits r.state p.tile).length r.state)

/-- An error response with its reason: a kind of R573, or 7 for an uncorrectable error (log 38). -/
def errorServed (reason : Nat) (s : State) : Served := { state := s, kind := 11, data := Config.errorReason reason }

/-- The answer of an access of M3 that reaches DMEM, after T11 has answered what it must (R573): `grants` makes the grants of its
beats. -/
def atM3 (k a n : Nat) (grants : State → State) (act : State → Served) (s : State) : Served :=
  match m3Kind s k a n with
  | some kind => errorServed kind (toT11 k 3 kind a s)
  | none => act (grants s)

/-- A far read (R455). -/
def serveRead (k : Nat) (p : Pkt) (s : State) : Served :=
  let n := opSize p.op; let a := p.addr.toNat
  atM3 k a n (grant k 3 (bankOf a) 1) (fun s =>
    let r := dmemAccess p.world p.world k a (.load n false) 0 0 s
    match r.2 with
    | some v => { state := r.1, kind := 8, data := v }
    | none => errorServed 7 r.1) s

/-- A far write (R455). -/
def serveWrite (k : Nat) (p : Pkt) (s : State) : Served :=
  let n := opSize p.op; let a := p.addr.toNat
  atM3 k a n (grant k 3 (bankOf a) 1) (fun s =>
    let r := dmemAccess p.world p.world k a (.store n) p.data 0 s
    if r.2.isSome then { state := r.1, kind := 9 } else errorServed 7 r.1) s

/-- A far atomic, locked at the bank (R455, R569). -/
def serveAtomic (k : Nat) (p : Pkt) (s : State) : Served :=
  let a := p.addr.toNat
  let kind : LsuKind := if p.op = 3 then .swp else if p.op = 4 then .ldadd else .cas
  atM3 k a 4 (grant k 3 (bankOf a) 2) (fun s =>
    let r := dmemAccess p.world p.world k a kind p.data (wordOf (p.flits.take 4)) s
    match r.2 with
    | some v => { state := r.1, kind := 8, data := v }
    | none => errorServed 7 r.1) s

/-- A block written in bursts within 256-byte blocks (R568). -/
def serveBlockWrite (k : Nat) (p : Pkt) (s : State) : Served :=
  let a := p.addr.toNat; let n := p.flits.length
  atM3 k a n (grantBursts k 3 a n) (fun s =>
    let r := writeAs p.world p.world k a p.flits s
    if r.2 then { state := r.1, kind := 9 } else errorServed 7 r.1) s

/-- A block read in bursts within 256-byte blocks (R568); DATA holds its byte count (log 40). -/
def serveBlockRead (k : Nat) (p : Pkt) (s : State) : Served :=
  let a := p.addr.toNat; let n := p.data.toNat
  atM3 k a n (grantBursts k 3 a n) (fun s =>
    let r := readAs p.world k a n s
    match r.2 with
    | some bs => { state := r.1, kind := 10, flits := bs }
    | none => errorServed 7 r.1) s

/-- An IMEM write (R624). -/
def serveImem (k : Nat) (p : Pkt) (s : State) : Served :=
  { state := putBundles k (p.flits.length / 16) p.addr.toNat p.flits (grant k 3 8 (p.flits.length / 16) s), kind := 9 }

/-- A post to this tile is dropped on arrival: its berth is suspended, or is a replay berth and the sender no keeper tile
(R344, R350). -/
def postBarred (s : State) (k sender : Nat) : Bool :=
  match (lidOf s (k / 512) (k % 512)).bind (berthOfLid s) with
  | some b => s.m.x.suspended.contains b.slot.berth || (b.slot.replay && (berthOfLid s sender).isSome)
  | none => false

/-- The bytes of a packet put at the end of the post that it continues; a post that was dropped takes none. -/
def extendPost (sender seq : Nat) (bs : List Byte) : List Post → List Post
  | [] => []
  | q :: rest =>
    if q.sender = sender ∧ q.seq = seq then (if q.total = 0 then q else { q with payload := q.payload ++ bs }) :: rest
    else q :: extendPost sender seq bs rest

/-- A packet of a post placed in the collecting half: offset 0 begins the post, and any other continues it; the bytes are an access of M3
to the half's bank (R332, R335, R555, R573, R598; log 40). -/
def servePost (k : Nat) (p : Pkt) (s : State) : Served :=
  let sender := (lidOf s p.srcField p.srcTile).getD 0
  let l := lookup [] s.m.x.collect k
  let l := if p.addr = 0 then
      l ++ [if postBarred s k sender then ⟨sender, p.tag, 0, []⟩ else ⟨sender, p.tag, p.data.toNat, p.flits⟩]
    else extendPost sender p.tag p.flits l
  let take := fun (s : State) => { state := s.modX fun x => { x with collect := put [] x.collect k l }, kind := 9 : Served }
  match postAddr s k p.flits.length with
  | some a => if postBarred s k sender then take s else atM3 k a p.flits.length (grantBursts k 3 a p.flits.length) take s
  | none => take s

/-- FAR_READ: served through M3 (R598). -/
def execFarRead (i : Nat) (s : State) : Out := .next (serve 0 i serveRead s)
/-- FAR_WRITE: written through M3 (R598). -/
def execFarWrite (i : Nat) (s : State) : Out := .next (serve 1 i serveWrite s)
/-- FAR_ATOMIC: a locked read-modify-write (R598). -/
def execFarAtomic (i : Nat) (s : State) : Out := .next (serve 2 i serveAtomic s)
/-- BLOCK_WRITE: written as one burst (R598). -/
def execBlockWrite (i : Nat) (s : State) : Out := .next (serve 3 i serveBlockWrite s)
/-- IMEM_WRITE: bundles written to IMEM (R598). -/
def execImemWrite (i : Nat) (s : State) : Out := .next (serve 4 i serveImem s)
/-- POST: a post reaches its tile (R598). -/
def execPost (i : Nat) (s : State) : Out := .next (serve 5 i servePost s)
/-- BLOCK_READ: read as one burst (R598). -/
def execBlockRead (i : Nat) (s : State) : Out := .next (serve 7 i serveBlockRead s)

/-! ### Responses -/

/-- A response taken by the unit that issued the request: `act` acts on the tile's key, or the landing's number. -/
def respond (kind i : Nat) (act : Nat → Pkt → State → State) (s : State) : State :=
  match arrived kind i s with
  | none => s
  | some p => act (if 56 ≤ p.dstField then p.dstTile else p.tile) p (consume i p s)

/-- READ_RESP: data for the LSU (R458). -/
def execReadResp (i : Nat) (s : State) : Out :=
  .next (respond 8 i (fun k p s => match p.unit with
    | .lsu => lsuResponse k p.tag (some p.data) s
    | _ => s) s)

/-- ACK: a write has completed at its target (R598). -/
def execAck (i : Nat) (s : State) : Out :=
  .next (respond 9 i (fun k p s => match p.unit with
    | .lsu => lsuResponse k p.tag (some 0) s
    | .ferry => ferryAck k s
    | .xfer n => xferAnswer k n p.tag true [] s
    | _ => s) s)

/-- BLOCK_RESP: block data for a FOLD, a ferry engine or a store transfer (R598). -/
def execBlockResp (i : Nat) (s : State) : Out :=
  .next (respond 10 i (fun k p s => match p.unit with
    | .fold => foldResponse k p.tag (some p.flits) s
    | .ferry => ferryData k p.flits s
    | .xfer n => xferAnswer k n p.tag true p.flits s
    | _ => s) s)

/-- ERROR: an error response for the unit that issued the request (R598). -/
def execError (i : Nat) (s : State) : Out :=
  .next (respond 11 i (fun k p s => match p.unit with
    | .lsu => lsuResponse k p.tag none s
    | .fold => foldResponse k p.tag none s
    | .ferry => ferryError k p.tag s
    | .bay frame => bayLost k frame s
    | .xfer n => xferAnswer k n p.tag false [] s) s)

end Sys2Proof.Machine
end

