-- ==== Sys2Proof/Machine/Dispatch.lean ====
section
/-! DEFINITION. What each command does to the state: one arm per constructor, each a direct call of its meaning. -/
namespace Sys2Proof.Machine
open Sys2Proof

def exec (i : Instr) (s : State) : Host.Outcome State Fault Refusal :=
  match i with
  | .status tag => Sys2Proof.Machine.execStatus tag s
  | .read tag addr => Sys2Proof.Machine.execRead tag addr s
  | .write tag addr data => Sys2Proof.Machine.execWrite tag addr data s
  | .moor tag => Sys2Proof.Machine.execMoor tag s
  | .wake tag probe => Sys2Proof.Machine.execWake tag probe s
  | .rejectedFrame frame probe => Sys2Proof.Machine.execRejectedFrame frame s probe
  | .commandComplete => Sys2Proof.Machine.execCommandComplete s
  | .registerWrite w addr data => Sys2Proof.Machine.execRegisterWrite w addr data s
  | .vstbyApplied => Sys2Proof.Machine.execVstbyApplied s
  | .resetN frame => Sys2Proof.Machine.execResetN frame s
  | .wakeN probe => Sys2Proof.Machine.execWakeN probe s
  | .rtcAlarm probe => Sys2Proof.Machine.execRtcAlarm probe s
  | .rtcSecondsWrite hi => Sys2Proof.Machine.execRtcSecondsWrite hi s
  | .rtcSecondsLoRead => Sys2Proof.Machine.execRtcSecondsLoRead s
  | .pmbusRetry reply probe => Sys2Proof.Machine.execPmbusRetry reply probe s
  | .sdaLowIdle freed => Sys2Proof.Machine.execSdaLowIdle freed s
  | .sclLowTimeout rail => Sys2Proof.Machine.execSclLowTimeout rail s
  | .sidebandRetry probe => Sys2Proof.Machine.execSidebandRetry probe s
  | .pmbAlertService rail reply => Sys2Proof.Machine.execPmbAlertService rail reply s
  | .railStatusPoll reply deskewOk => Sys2Proof.Machine.execRailStatusPoll reply deskewOk s
  | .powerGoodTimeout => Sys2Proof.Machine.execPowerGoodTimeout s
  | .pllLocked flash => Sys2Proof.Machine.execPllLocked flash s
  | .pllNoLock => Sys2Proof.Machine.execPllNoLock s
  | .reconciled => Sys2Proof.Machine.execReconciled s
  | .fieldOnSet f => Sys2Proof.Machine.execFieldOnSet f s
  | .fieldOnClear f => Sys2Proof.Machine.execFieldOnClear f s
  | .landingOnSet k => Sys2Proof.Machine.execLandingOnSet k s
  | .landingOnClear k => Sys2Proof.Machine.execLandingOnClear k s
  | .moorReq => Sys2Proof.Machine.execMoorReq s
  | .allowanceRecompute f margin watts => Sys2Proof.Machine.execAllowanceRecompute f margin watts s
  | .droopTrip f => Sys2Proof.Machine.execDroopTrip f s
  | .droopHoldEnd f => Sys2Proof.Machine.execDroopHoldEnd f s
  | .vdemandRecompute f code => Sys2Proof.Machine.execVdemandRecompute f code s
  | .mastVisit f acked => Sys2Proof.Machine.execMastVisit f acked s
  | .damageGuardSample readings unacked => Sys2Proof.Machine.execDamageGuardSample readings unacked s
  | .tileTestEnd f t part banks => Sys2Proof.Machine.execTileTestEnd f t part banks s
  | .bistTimeout f => Sys2Proof.Machine.execBistTimeout f s
  | .landingSelfTestEnd k passed => Sys2Proof.Machine.execLandingSelfTestEnd k passed s
  | .portWindowExpiry k p => Sys2Proof.Machine.execPortWindowExpiry k p s
  | .escalationReachesRoster e => Sys2Proof.Machine.execEscalationReachesRoster e s
  | .retireCmd => Sys2Proof.Machine.execRetireCmd s
  | .mapSync flash => Sys2Proof.Machine.execMapSync flash s
  | .readIndex index => Sys2Proof.Machine.execReadIndex index s
  | .flashBusyPoll readBackOk late => Sys2Proof.Machine.execFlashBusyPoll readBackOk s late
  | .flashOpTimeout late => Sys2Proof.Machine.execFlashOpTimeout s late
  | .check => Sys2Proof.Machine.execCheck s
  | .arm => Sys2Proof.Machine.execArm s
  | .disarm => Sys2Proof.Machine.execDisarm s
  | .abort => Sys2Proof.Machine.execAbort s
  | .checkEnd => Sys2Proof.Machine.execCheckEnd s
  | .fifoHiRead => Sys2Proof.Machine.execFifoHiRead s
  | .hoistInstant => Sys2Proof.Machine.execHoistInstant s
  | .discard page => Sys2Proof.Machine.execDiscard page s
  | .haltReq page request => Sys2Proof.Machine.execHaltReq page request s
  | .haltPointReached page => Sys2Proof.Machine.execHaltPointReached page s
  | .cntClear => Sys2Proof.Machine.execCntClear s
  | .alertHeldLow low => Sys2Proof.Machine.execAlertHeldLow s low
  | .extest frame => Sys2Proof.Machine.execExtest frame s
  | .samplePreload probe => Sys2Proof.Machine.execSamplePreload probe s
  | .idcode probe => Sys2Proof.Machine.execIdcode probe s
  | .bypass code probe => Sys2Proof.Machine.execBypass code probe s
  | .trstN low probe => Sys2Proof.Machine.execTrstN low probe s
  | .start => Sys2Proof.Machine.execStart s
  | .stop => Sys2Proof.Machine.execStop s
  | .step => Sys2Proof.Machine.execStep s
  | .curNoLoRead => Sys2Proof.Machine.execCurNoLoRead s
  | .opening => Sys2Proof.Machine.execOpening s
  | .ingressClose => Sys2Proof.Machine.execIngressClose s
  | .cxdone f t => Sys2Proof.Machine.execCxdone f t s
  | .overrun f t => Sys2Proof.Machine.execOverrun f t s
  | .drainLimit => Sys2Proof.Machine.execDrainLimit s
  | .recrossStage1Limit => Sys2Proof.Machine.execRecrossStage1Limit s
  | .egressRelease => Sys2Proof.Machine.execEgressRelease s
  | .slackWater => Sys2Proof.Machine.execSlackWater s
  | .restoreEnd => Sys2Proof.Machine.execRestoreEnd s
  | .snapshotLineCopied f t failed => Sys2Proof.Machine.execSnapshotLineCopied f t failed s
  | .resume berth => Sys2Proof.Machine.execResume berth s
  | .suspend berth => Sys2Proof.Machine.execSuspend berth s
  | .move f t => Sys2Proof.Machine.execMove f t s
  | .add f t => Sys2Proof.Machine.execAdd f t s
  | .addc f t => Sys2Proof.Machine.execAddc f t s
  | .addv f t => Sys2Proof.Machine.execAddv f t s
  | .sub f t => Sys2Proof.Machine.execSub f t s
  | .subb f t => Sys2Proof.Machine.execSubb f t s
  | .subv f t => Sys2Proof.Machine.execSubv f t s
  | .and f t => Sys2Proof.Machine.execAnd f t s
  | .or f t => Sys2Proof.Machine.execOr f t s
  | .xor f t => Sys2Proof.Machine.execXor f t s
  | .andn f t => Sys2Proof.Machine.execAndn f t s
  | .slt f t => Sys2Proof.Machine.execSlt f t s
  | .sltu f t => Sys2Proof.Machine.execSltu f t s
  | .min f t => Sys2Proof.Machine.execMin f t s
  | .minu f t => Sys2Proof.Machine.execMinu f t s
  | .max f t => Sys2Proof.Machine.execMax f t s
  | .maxu f t => Sys2Proof.Machine.execMaxu f t s
  | .abs f t => Sys2Proof.Machine.execAbs f t s
  | .pass f t => Sys2Proof.Machine.execPass f t s
  | .shl f t => Sys2Proof.Machine.execShl f t s
  | .shr f t => Sys2Proof.Machine.execShr f t s
  | .sar f t => Sys2Proof.Machine.execSar f t s
  | .rol f t => Sys2Proof.Machine.execRol f t s
  | .ror f t => Sys2Proof.Machine.execRor f t s
  | .ext f t => Sys2Proof.Machine.execExt f t s
  | .exts f t => Sys2Proof.Machine.execExts f t s
  | .ins f t => Sys2Proof.Machine.execIns f t s
  | .bswap f t => Sys2Proof.Machine.execBswap f t s
  | .hswap f t => Sys2Proof.Machine.execHswap f t s
  | .clz f t => Sys2Proof.Machine.execClz f t s
  | .ctz f t => Sys2Proof.Machine.execCtz f t s
  | .c32cB f t => Sys2Proof.Machine.execC32cB f t s
  | .c32cW f t => Sys2Proof.Machine.execC32cW f t s
  | .c32B f t => Sys2Proof.Machine.execC32B f t s
  | .c32W f t => Sys2Proof.Machine.execC32W f t s
  | .c16B f t => Sys2Proof.Machine.execC16B f t s
  | .c16W f t => Sys2Proof.Machine.execC16W f t s
  | .cpB f t => Sys2Proof.Machine.execCpB f t s
  | .cpW f t => Sys2Proof.Machine.execCpW f t s
  | .fin32 f t => Sys2Proof.Machine.execFin32 f t s
  | .fin16 f t => Sys2Proof.Machine.execFin16 f t s
  | .finp f t => Sys2Proof.Machine.execFinp f t s
  | .parW f t => Sys2Proof.Machine.execParW f t s
  | .parB f t => Sys2Proof.Machine.execParB f t s
  | .revW f t => Sys2Proof.Machine.execRevW f t s
  | .revB f t => Sys2Proof.Machine.execRevB f t s
  | .pop f t => Sys2Proof.Machine.execPop f t s
  | .fold32c f t => Sys2Proof.Machine.execFold32c f t s
  | .fold32 f t => Sys2Proof.Machine.execFold32 f t s
  | .fold16 f t => Sys2Proof.Machine.execFold16 f t s
  | .foldp f t => Sys2Proof.Machine.execFoldp f t s
  | .fclr f t => Sys2Proof.Machine.execFclr f t s
  | .foldBeatRead f t => Sys2Proof.Machine.execFoldBeatRead f t s
  | .mul f t => Sys2Proof.Machine.execMul f t s
  | .mulu f t => Sys2Proof.Machine.execMulu f t s
  | .mulv f t => Sys2Proof.Machine.execMulv f t s
  | .mulvu f t => Sys2Proof.Machine.execMulvu f t s
  | .div f t => Sys2Proof.Machine.execDiv f t s
  | .divu f t => Sys2Proof.Machine.execDivu f t s
  | .divq f t => Sys2Proof.Machine.execDivq f t s
  | .divqu f t => Sys2Proof.Machine.execDivqu f t s
  | .init f t => Sys2Proof.Machine.execInit f t s
  | .seth f t => Sys2Proof.Machine.execSeth f t s
  | .rnd f t => Sys2Proof.Machine.execRnd f t s
  | .unitResult f t => Sys2Proof.Machine.execUnitResult f t s
  | .ldb f t => Sys2Proof.Machine.execLdb f t s
  | .ldbs f t => Sys2Proof.Machine.execLdbs f t s
  | .ldh f t => Sys2Proof.Machine.execLdh f t s
  | .ldhs f t => Sys2Proof.Machine.execLdhs f t s
  | .ldw f t => Sys2Proof.Machine.execLdw f t s
  | .stb f t => Sys2Proof.Machine.execStb f t s
  | .sth f t => Sys2Proof.Machine.execSth f t s
  | .stw f t => Sys2Proof.Machine.execStw f t s
  | .swp f t => Sys2Proof.Machine.execSwp f t s
  | .ldadd f t => Sys2Proof.Machine.execLdadd f t s
  | .cas f t => Sys2Proof.Machine.execCas f t s
  | .sync f t => Sys2Proof.Machine.execSync f t s
  | .lsuAccessComplete f t => Sys2Proof.Machine.execLsuAccessComplete f t s
  | .ior f t => Sys2Proof.Machine.execIor f t s
  | .iow f t => Sys2Proof.Machine.execIow f t s
  | .iouAccessComplete f t => Sys2Proof.Machine.execIouAccessComplete f t s
  | .jmp f t => Sys2Proof.Machine.execJmp f t s
  | .call f t => Sys2Proof.Machine.execCall f t s
  | .ret f t => Sys2Proof.Machine.execRet f t s
  | .dbnz f t => Sys2Proof.Machine.execDbnz f t s
  | .rpt f t => Sys2Proof.Machine.execRpt f t s
  | .rpti f t => Sys2Proof.Machine.execRpti f t s
  | .trap f t => Sys2Proof.Machine.execTrap f t s
  | .gateCall f t => Sys2Proof.Machine.execGateCall f t s
  | .gateReturn f t => Sys2Proof.Machine.execGateReturn f t s
  | .gwcall f t => Sys2Proof.Machine.execGwcall f t s
  | .gwret f t => Sys2Proof.Machine.execGwret f t s
  | .slip f t => Sys2Proof.Machine.execSlip f t s
  | .eret f t => Sys2Proof.Machine.execEret f t s
  | .compare f t => Sys2Proof.Machine.execCompare f t s
  | .kick f t => Sys2Proof.Machine.execKick f t s
  | .handlerEntry f t => Sys2Proof.Machine.execHandlerEntry f t s
  | .timerEvent f t => Sys2Proof.Machine.execTimerEvent f t s
  | .raise f t => Sys2Proof.Machine.execRaise f t s
  | .pmodeWrite f t split => Sys2Proof.Machine.execPmodeWrite f t split s
  | .escRelease f t => Sys2Proof.Machine.execEscRelease f t s
  | .escHead2Read f => Sys2Proof.Machine.execEscHead2Read f s
  | .ifs f t inc => Sys2Proof.Machine.execIfs f t inc s
  | .ifl f t inc => Sys2Proof.Machine.execIfl f t inc s
  | .injCe f t => Sys2Proof.Machine.execInjCe f t s
  | .injUe f t => Sys2Proof.Machine.execInjUe f t s
  | .patrolScrub f t b => Sys2Proof.Machine.execPatrolScrub f t b s
  | .creditWindow => Sys2Proof.Machine.execCreditWindow s
  | .routeComputeEnd f => Sys2Proof.Machine.execRouteComputeEnd f s
  | .lookupIn f lid => Sys2Proof.Machine.execLookupIn f lid s
  | .farRead n => Sys2Proof.Machine.execFarRead n s
  | .farWrite n => Sys2Proof.Machine.execFarWrite n s
  | .farAtomic n => Sys2Proof.Machine.execFarAtomic n s
  | .blockWrite n => Sys2Proof.Machine.execBlockWrite n s
  | .imemWrite n => Sys2Proof.Machine.execImemWrite n s
  | .post n => Sys2Proof.Machine.execPost n s
  | .egress n => Sys2Proof.Machine.execEgress n s
  | .blockRead n => Sys2Proof.Machine.execBlockRead n s
  | .readResp n => Sys2Proof.Machine.execReadResp n s
  | .ack n => Sys2Proof.Machine.execAck n s
  | .blockResp n => Sys2Proof.Machine.execBlockResp n s
  | .error n => Sys2Proof.Machine.execError n s
  | .descriptorStart f t => Sys2Proof.Machine.execDescriptorStart f t s
  | .descriptorComplete f t => Sys2Proof.Machine.execDescriptorComplete f t s
  | .dataPacket h e header parity badType badLen taken => Sys2Proof.Machine.execDataPacket h e header parity badType badLen taken s
  | .hawserAck h e w => Sys2Proof.Machine.execHawserAck h e w s
  | .nak h e w sent => Sys2Proof.Machine.execNak h e w s sent
  | .lane h e w => Sys2Proof.Machine.execLane h e w s
  | .flow h e w sent0 sent1 => Sys2Proof.Machine.execFlow h e w s sent0 sent1
  | .trainMask h e w => Sys2Proof.Machine.execTrainMask h e w s
  | .trainReady h e w link => Sys2Proof.Machine.execTrainReady h e w link s
  | .laneParityError h e lanes inside => Sys2Proof.Machine.execLaneParityError h e lanes inside s
  | .ackTimerExpiry h e v => Sys2Proof.Machine.execAckTimerExpiry h e v s
  | .ackDue h e v => Sys2Proof.Machine.execAckDue h e v s
  | .flowRefresh h e => Sys2Proof.Machine.execFlowRefresh h e s
  | .creditTimeout h e v => Sys2Proof.Machine.execCreditTimeout h e v s
  | .probeWindowEnd h e => Sys2Proof.Machine.execProbeWindowEnd h e s
  | .trainingAttemptTimeout h e => Sys2Proof.Machine.execTrainingAttemptTimeout h e s
  | .upWaitReadyInterval h e => Sys2Proof.Machine.execUpWaitReadyInterval h e s
  | .quietEnd h e => Sys2Proof.Machine.execQuietEnd h e s
  | .linkBreak h e => Sys2Proof.Machine.execLinkBreak h e s
  | .netPortUp k p pause => Sys2Proof.Machine.execNetPortUp k p pause s
  | .netPortDown k p => Sys2Proof.Machine.execNetPortDown k p s
  | .netFrameRx k p frame corr uncorr => Sys2Proof.Machine.execNetFrameRx k p frame corr s uncorr
  | .pauseFrame k p opcode quanta => Sys2Proof.Machine.execPauseFrame k p opcode quanta s
  | .pauseQuantaExpiry k p => Sys2Proof.Machine.execPauseQuantaExpiry k p s
  | .bayRelease k => Sys2Proof.Machine.execBayRelease k s
  | .egressTimeout k p => Sys2Proof.Machine.execEgressTimeout k p s
  | .xctlGo k n v => Sys2Proof.Machine.execXctlGo k n v s
  | .nvmeCompletion k n status data => Sys2Proof.Machine.execNvmeCompletion k n status data s
  | .storeTransferComplete k n => Sys2Proof.Machine.execStoreTransferComplete k n s
  | .xferTimeout k n => Sys2Proof.Machine.execXferTimeout k n s
  | .pePerstNRelease k p => Sys2Proof.Machine.execPePerstNRelease k p s
  | .storeLinkUp k p gen width => Sys2Proof.Machine.execStoreLinkUp k p gen width s
  | .storePortUp k p lbads => Sys2Proof.Machine.execStorePortUp k p lbads s
  | .deviceReadyTimeout k p => Sys2Proof.Machine.execDeviceReadyTimeout k p s
  | .storeLinkDown k p => Sys2Proof.Machine.execStoreLinkDown k p s
  | .inboundRequest k p target => Sys2Proof.Machine.execInboundRequest k p target s
  | .intDrop k p => Sys2Proof.Machine.execIntDrop k p s
  | .logbookWrite => Sys2Proof.Machine.execLogbookWrite s
  | .readSeq v => Sys2Proof.Machine.execReadSeq v s
  | .ackSeq v => Sys2Proof.Machine.execAckSeq v s
  | .serviceMark v => Sys2Proof.Machine.execServiceMark v s
  | .serviceReason reason => Sys2Proof.Machine.execServiceReason reason s
  | .vstbyRemoved written => Sys2Proof.Machine.execVstbyRemoved written s
  | .resetNRise probe => Sys2Proof.Machine.execResetNRise probe s
  | .rtcSecondTick => Sys2Proof.Machine.execRtcSecondTick s
  | .updateDr value levels => Sys2Proof.Machine.execUpdateDr value s levels
  | .laneJudgedGood h e lane => Sys2Proof.Machine.execLaneJudgedGood h e lane s
  | .aerError k p uncorrectable => Sys2Proof.Machine.execAerError k p uncorrectable s
  | .unknownItemType h e framing => Sys2Proof.Machine.execUnknownItemType h e framing s
  | .noOperation f t => Sys2Proof.Machine.execNoOperation f t s

end Sys2Proof.Machine
end

