-- ==== Sys2Proof/WellFormed.lean ====
section
/-! DEFINITION. The commands whose operands lie in the ranges that the spec gives them.  Most ranges stand in the operands' types;
the checks here are on the plain numbers and lists.  No meaning needs them: a command outside them is still total. -/
namespace Sys2Proof

/-- A list holds no element twice. -/
def noRepeats {α : Type} [DecidableEq α] : List α → Bool
  | [] => true
  | a :: rest => !rest.contains a && noRepeats rest

/-- The places of the regulators that a probe asks are 0 to 68, each once (R95). -/
def ProbeAnswers.wf (p : ProbeAnswers) : Bool := p.all (fun r => decide (r.1 < 69)) && noRepeats (p.map (·.1))

/-- A frame holds one byte for every eight edges counted (R271, R277). -/
def Frame.wf (x : Frame) : Bool := decide (x.bytes.length = x.edges / 8)

/-- The ports of a landing: two of a net landing, four of a store landing (R677, R701). -/
def portsOf (k : LandingId) : Nat := if k.val < 8 then 2 else 4

/-- An escalation that can travel: the address of the uncorrectable bank lies in it, the lane is one that a channel end can
have. -/
def Escalation.wf : Escalation → Bool
  | .stop _ _ _ => true
  | .tileLost _ _ _ => true
  | .bankUe _ _ _ addr => decide (addr < 262144)
  | .laneRetired _ _ lane => decide (lane < 80)
  | .linkBroken _ _ reason _ parties => decide (1 ≤ reason) && decide (reason ≤ 8) && parties.all (· < 65536)

/-- The operands of a command lie in their ranges.  The operands of every command not named here are bounded by their types. -/
def Instr.wf : Instr → Bool
  | .wake _ p | .wakeN p | .rtcAlarm p | .sidebandRetry p | .samplePreload p | .idcode p | .trstN _ p | .resetNRise p => p.wf
  | .pmbusRetry _ p => p.wf
  | .bypass code p => decide (3 ≤ code) && decide (code ≤ 15) && p.wf
  | .rejectedFrame x _ => x.wf
  | .resetN x | .extest x => (x.map Frame.wf).getD true
  | .allowanceRecompute _ _ watts => decide (watts.length = 15)
  | .vdemandRecompute _ code => decide (code < 256)
  | .damageGuardSample readings unacked =>
      readings.all (fun r => decide (r.2.length = 12)) && noRepeats (readings.map (·.1)) && noRepeats unacked
  | .tileTestEnd _ _ part banks =>
      (part.map fun c => decide (1 ≤ c) && decide (c ≤ 7)).getD true && banks.all (· < 8) && noRepeats banks
  | .portWindowExpiry k p => decide (p < portsOf k)
  | .escalationReachesRoster e => e.wf
  | .escRelease _ t => decide (t < 512)
  | .laneParityError _ _ lanes _ => lanes.all (· < 80) && noRepeats lanes
  | .laneJudgedGood _ _ l => decide (l < 80)
  | .netFrameRx _ _ frame _ _ => decide (14 ≤ frame.length)
  | .storeLinkUp _ _ gen width => decide (gen ≤ 3) && [1, 2, 4, 8, 16].contains width
  | .storePortUp _ _ lbads => decide (lbads < 256)
  | .nvmeCompletion _ _ st _ => decide (st < 32768)
  | .vstbyRemoved written => decide (written ≤ 32)
  | _ => true

end Sys2Proof
end

