-- ==== Sys2Proof/Safety.lean ====
section
/-! DEFINITION. The words in which the statements speak: the canonical form of the stores, a tile that issues its next bundle,
what the bundle moves and where its results go, and what a command leaves alone. -/
namespace Sys2Proof.Machine
open Sys2Proof

/-! ### The stores -/

/-- The canonical form of a tile's memories: DMEM bytes and IMEM bundles by rising address, none equal to what an address that
is not listed reads as (0). -/
def Memory.wf (m : MainSt) : Bool := canonical (fun _ => 0) m.dmem && canonical (fun _ => 0) m.imem

/-- The canonical form of all stores: live and shadow register words by rising address, none equal to its reset value, and the
memories. -/
def StoresCanonical (s : State) : Prop :=
  canonical resetWord s.live = true ∧ canonical resetWord s.shadow = true ∧ Memory.wf s.m = true

/-- What every step keeps of the stores: their canonical form, and a hoist set of page addresses (R242). -/
def StoresSound (s : State) : Prop := StoresCanonical s ∧ ∀ p ∈ s.m.hoist.set, pageOf p = p

/-! ### The defect map -/

/-- No field awaits the FIELD record of R198: a field whose tiles all have TILE records is retired whole already. -/
def NoFieldRecordDue (s : State) : Prop := ∀ f, allTilesRecorded s f = true → fieldRetired s f = true

/-- No slot of an area reads as erased (R192). -/
def NoneErased (x : MapArea) : Prop := ∀ y ∈ x.slots, y.isErased = false

/-! ### The issue of a bundle -/

/-- The key of the tile that a row names. -/
def keyOf (f : FieldId) (t : TileId) : Nat := tileKey f.val t.val

/-- The state in which the next bundle of a tile issues: results that are due have landed, and exceptions raised while it is held wait
(R369, R528). -/
def ready (s : State) (f : FieldId) (t : TileId) : State := issueState (keyOf f t) s

/-- The next bundle of a tile. -/
def bundleNext (s : State) (k : Nat) : Bundle := bundleOf (nextBundle s k)

/-- The tile issues its next bundle, whose move slot i holds the enabled move m (R359, R368, R383). -/
def Issuing (s : State) (k i : Nat) (m : Move) : Prop :=
  issues s k = true ∧ (i, m) ∈ enabledMoves (s.rig k) (bundleNext s k)

/-- The value that a move of the next bundle moves (R352, R374). -/
def moved (s : State) (k : Nat) (m : Move) : Word := srcVal s k (bundleNext s k) m.src

/-- An operand port as the triggers of the next bundle find it (R376). -/
def operand (s : State) (k d : Nat) : Word := portAfter s k (bundleNext s k) d

/-- LC, LNK or another register of the CU as the moves of the next bundle leave it: what the highest slot that names it moves, else
what it held (R376, R440). -/
def cuAfter (s : State) (k : Nat) (d : Dest) (held : Word) : Word :=
  match ((enabledMoves (s.rig k) (bundleNext s k)).filter fun p => destOf p.2.dst == some d).getLast? with
  | some p => moved s k p.2
  | none => held

/-- LNK and LC as the triggers of the next bundle find them. -/
def lnkAfter (s : State) (k : Nat) : Nat := (cuAfter s k .lnk (BitVec.ofNat 32 (s.rig k).lnk)).toNat % 4096
def lcAfter (s : State) (k : Nat) : Word := cuAfter s k .lc (s.rig k).lc

/-- A result socket of a tile. -/
def sock (s : State) (k x : Nat) : Word := lookup 0 (s.rig k).socks x

/-- A register of RFA (0 to 31) or RFB (32 to 63), or an operand port, of a tile. -/
def regOf (s : State) (k d : Nat) : Word := lookup 0 (s.rig k).ports d

/-- The results of an operation triggered in slot `slot` with latency `lat` (R369): with latency 1 they stand in their sockets, with
more they are on their way to slot + lat. -/
def Delivers (s : State) (k slot lat : Nat) (ws : List (Nat × Word)) : Prop :=
  if lat = 1 then ∀ w ∈ ws, sock s k w.1 = w.2 else (⟨slot, slot + lat, ws⟩ : Land) ∈ (s.rig k).inflight

/-- No transfer that restores the shadow bank is on its way (R505). -/
def noReturnWaits (s : State) (k : Nat) : Prop := ∀ q ∈ (s.rig k).pend, q.kind ≠ .gwret

/-- A DMEM word that reads without an ECC error: none stands in it and no injection waits for its bank (R463, R467). -/
def WordClean (s : State) (k a : Nat) : Prop :=
  s.wordErr k (a / 4 * 4) = 0 ∧ (lookup (8, false) s.m.inject k).1 ≠ bankOf (a / 4 * 4)

/-! The command of each unit's trigger. -/

/-- The row of an ALU trigger (R397). -/
def aluCommand (op : AluOp) (f : FieldId) (t : TileId) : Instr :=
  match op with
  | .add => .add f t | .addc => .addc f t | .addv => .addv f t | .sub => .sub f t | .subb => .subb f t
  | .subv => .subv f t | .and => .and f t | .or => .or f t | .xor => .xor f t | .andn => .andn f t | .slt => .slt f t
  | .sltu => .sltu f t | .min => .min f t | .minu => .minu f t | .max => .max f t | .maxu => .maxu f t
  | .abs => .abs f t | .pass => .pass f t

/-- The row of an SHF trigger (R399). -/
def shfCommand (op : ShfOp) (f : FieldId) (t : TileId) : Instr :=
  match op with
  | .shl => .shl f t | .shr => .shr f t | .sar => .sar f t | .rol => .rol f t | .ror => .ror f t | .ext => .ext f t
  | .exts => .exts f t | .ins => .ins f t | .bswap => .bswap f t | .hswap => .hswap f t | .clz => .clz f t
  | .ctz => .ctz f t

/-- The row of a CHK trigger of fixed latency (R403). -/
def chkCommand (op : ChkOp) (f : FieldId) (t : TileId) : Instr :=
  match op with
  | .c32cB => .c32cB f t | .c32cW => .c32cW f t | .c32B => .c32B f t | .c32W => .c32W f t | .c16B => .c16B f t
  | .c16W => .c16W f t | .cpB => .cpB f t | .cpW => .cpW f t | .fin32 => .fin32 f t | .fin16 => .fin16 f t
  | .finp => .finp f t | .parW => .parW f t | .parB => .parB f t | .revW => .revW f t | .revB => .revB f t
  | .pop => .pop f t

/-- The row of a MUL trigger (R420). -/
def mulCommand (op : MulOp) (f : FieldId) (t : TileId) : Instr :=
  match op with
  | .mul => .mul f t | .mulu => .mulu f t | .mulv => .mulv f t | .mulvu => .mulvu f t

/-- The row of a DIV trigger (R421). -/
def divCommand (op : DivOp) (f : FieldId) (t : TileId) : Instr :=
  match op with
  | .div => .div f t | .divu => .divu f t | .divq => .divq f t | .divqu => .divqu f t

/-- The row of a FOLD trigger (R410). -/
def foldCommand (alg : Nat) (f : FieldId) (t : TileId) : Instr :=
  match alg with
  | 0 => .fold32c f t | 1 => .fold32 f t | 2 => .fold16 f t | _ => .foldp f t

/-- The row of an access trigger, by its access kind 0 to 7 (R431). -/
def accessCommand (kd : Nat) (f : FieldId) (t : TileId) : Instr :=
  match kd with
  | 0 => .ldb f t | 1 => .ldbs f t | 2 => .ldh f t | 3 => .ldhs f t | 4 => .ldw f t | 5 => .stb f t | 6 => .sth f t
  | _ => .stw f t

/-- The rows by which a tile's rig issues a bundle, settles its results or reads a beat of memory: none of them writes memory. -/
def rigCommands (f : FieldId) (t : TileId) : List Instr :=
  [.move f t] ++
  [AluOp.add, .addc, .addv, .sub, .subb, .subv, .and, .or, .xor, .andn, .slt, .sltu, .min, .minu, .max, .maxu, .abs, .pass].map
    (aluCommand · f t) ++
  [ShfOp.shl, .shr, .sar, .rol, .ror, .ext, .exts, .ins, .bswap, .hswap, .clz, .ctz].map (shfCommand · f t) ++
  [ChkOp.c32cB, .c32cW, .c32B, .c32W, .c16B, .c16W, .cpB, .cpW, .fin32, .fin16, .finp, .parW, .parB, .revW, .revB, .pop].map
    (chkCommand · f t) ++
  [MulOp.mul, .mulu, .mulv, .mulvu].map (mulCommand · f t) ++ [DivOp.div, .divu, .divq, .divqu].map (divCommand · f t) ++
  [0, 1, 2, 3].map (foldCommand · f t) ++ [0, 1, 2, 3, 4, 5, 6, 7].map (accessCommand · f t) ++
  [.fclr f t, .init f t, .seth f t, .rnd f t, .unitResult f t, .swp f t, .ldadd f t, .cas f t, .sync f t, .ior f t, .iow f t,
   .jmp f t, .call f t, .ret f t, .dbnz f t, .rpt f t, .rpti f t, .trap f t, .gateCall f t, .gateReturn f t, .gwcall f t,
   .gwret f t, .slip f t, .eret f t, .compare f t, .kick f t]

end Sys2Proof.Machine
end

