-- ==== Sys2Proof/Certificates/Slice0/Obligations.lean ====
section
/-! DEFINITION. The statements for the provers, over the whole block: one section for each group of commands. -/
open Sys2Proof Sys2Proof.Machine

/-! ### The block's step, its reset state and its stores -/

/-- For every command and every state, a step of the state with the command at the front of its queue is the command's effect on the
state with the rest of the queue. -/
def Obligations.StepRunsTheFrontCommand : Prop :=
  ∀ (c : Instr) (rest : List Instr) (s : State), step { s with pending := c :: rest } = exec c { s with pending := rest }

/-- On an empty queue a step advances WTIME by one while WCLK is distributed, and changes nothing otherwise; nothing else of the state
changes. That a step on an empty queue stands for one cycle is the model's choice (log 3). -/
def Obligations.IdleStepCountsWtime : Prop :=
  ∀ s : State, s.pending = [] →
    (clocked s = true → step s = .next { s with m := { s.m with wtime := (s.m.wtime + 1) % 2 ^ 64 } }) ∧
    (clocked s = false → step s = .next s)

/-- In State.reset the standby domain is ready and the wafer moored, WCLK is not distributed, no command waits, the stores are in their
canonical form with an empty hoist set, every live and every staged register word reads the value that the spec's tables give it at reset, and
every byte of DMEM and bundle of IMEM reads 0. -/
def Obligations.ResetIsMooredAndCanonical : Prop :=
  State.reset.power.standby = true ∧ pwrState State.reset = 0 ∧ clocked State.reset = false ∧ State.reset.pending = [] ∧
  StoresSound State.reset ∧ (∀ a, State.reset.word a = resetWord a ∧ State.reset.shadowWord a = resetWord a) ∧
  (∀ k a, State.reset.byte k a = 0 ∧ imemAt State.reset k a = 0)

/-- From every state whose live and shadow register words, DMEM bytes and IMEM bundles stand in canonical form (addresses strictly
rising, no entry equal to what an unlisted address reads as) and whose hoist set holds page addresses, whatever command is at the front of the queue and also on an empty
queue, a step that answers a next state gives such a state again. -/
def Obligations.StepKeepsStoresSound : Prop :=
  ∀ s s' : State, StoresSound s → step s = .next s' → StoresSound s'

/-- Every row of the table answers a next state in every state of the block: a command that its state does not allow is ignored or
rejected as its rule says, and none stops the machine.  Whatever a command does, it leaves the queue of the commands that wait
behind it. -/
def Obligations.EveryCommandAnswersANextState : Prop :=
  ∀ (c : Instr) (s : State), ∃ s', exec c s = .next s' ∧ s'.pending = s.pending

/-- For every five moves whose guard, source and destination fit their fields of 3, 10 and 11 bits: the bundle of class 0 that holds
them reads as class 0 with exactly these moves in their slots and no long immediate; and two such bundles are the same 128 bits
only where all five moves are the same. -/
def Obligations.BundleEncodingRoundTrip : Prop :=
  ∀ m0 m1 m2 m3 m4 : Move,
    (∀ m ∈ [m0, m1, m2, m3, m4], m.guard < 8 ∧ m.src < 1024 ∧ m.dst < 2048) →
    bundleOf (encodeMoves m0 m1 m2 m3 m4) = ⟨0, [m0, m1, m2, m3, m4], 0⟩ ∧
    ∀ n0 n1 n2 n3 n4 : Move, (∀ m ∈ [n0, n1, n2, n3, n4], m.guard < 8 ∧ m.src < 1024 ∧ m.dst < 2048) →
      encodeMoves m0 m1 m2 m3 m4 = encodeMoves n0 n1 n2 n3 n4 → [m0, m1, m2, m3, m4] = [n0, n1, n2, n3, n4]

/-! ### The rig of a tile: moves, function units, memory accesses, control (R351 to R510) -/

/-- MOVE, when the tile issues a bundle with an enabled move to a register or an operand port: it completes, and every register
and operand port holds what the highest enabled slot of the bundle moved into it, or what it held where no enabled move names it.
A gwret on its way is left out: its arrival restores a0 to a3 (R505). -/
def Obligations.MoveWritesPortsByHighestSlot : Prop :=
  ∀ (s : State) (f : FieldId) (t : TileId) (i : Nat) (m : Move),
    let k := keyOf f t; let s1 := ready s f t
    Issuing s1 k i m → destOf m.dst = some .port → noReturnWaits s1 k →
    ∃ s', exec (.move f t) s = .next s' ∧
      ∀ d, destOf d = some .port → regOf s' k d = portAfter s1 k (bundleNext s1 k) d

/-- NO_OPERATION, when the tile issues a bundle without an enabled move while no repeat and no transfer is on its way: it completes;
the issue slot count advances by one, the next bundle is the sequential one, every register, operand port and guard, LNK, LC and
RPTC keep their values, BUNDLES advances by one in the berth world and is unchanged outside it (R326), and the reef history takes
a slot with no heavy trigger (R720). -/
def Obligations.NoOperationAdvancesTheSlot : Prop :=
  ∀ (s : State) (f : FieldId) (t : TileId),
    let k := keyOf f t; let s1 := ready s f t
    issues s1 k = true → enabledMoves (s1.rig k) (bundleNext s1 k) = [] → (s1.rig k).rpt = none → (s1.rig k).pend = [] →
    ∃ s', exec (.noOperation f t) s = .next s' ∧
      (s'.rig k).slot = (s1.rig k).slot + 1 ∧ (s'.rig k).pc = ((s1.rig k).pc + 1) % 4096 ∧
      (s'.rig k).ports = (s1.rig k).ports ∧ (s'.rig k).g0 = (s1.rig k).g0 ∧ (s'.rig k).g1 = (s1.rig k).g1 ∧
      (s'.rig k).g2 = (s1.rig k).g2 ∧ (s'.rig k).lnk = (s1.rig k).lnk ∧ (s'.rig k).lc = (s1.rig k).lc ∧
      (s'.rig k).rptc = (s1.rig k).rptc ∧
      s'.get2 (p0 k) TP0.BUNDLES_LO_COUNT TP0.BUNDLES_HI_COUNT =
        (s1.get2 (p0 k) TP0.BUNDLES_LO_COUNT TP0.BUNDLES_HI_COUNT + bit (inBerth s1 k)) %
          2 ^ (TP0.BUNDLES_LO_COUNT.width + TP0.BUNDLES_HI_COUNT.width) ∧
      s'.get (p0 k) TP0.REEF_HIST_HIST = s1.get (p0 k) TP0.REEF_HIST_HIST * 4 % 2 ^ TP0.REEF_HIST_HIST.width

/-- The 18 ALU triggers and the 12 SHF triggers, when the tile issues a bundle with the trigger enabled: the command completes, and
socket r holds the table's result of the operand port as the bundle leaves it, the value moved, and (ALU) socket c as it was; where
the table gives a carry or borrow, socket c holds it; where addv or subv overflows, OVERFLOW of the ALU is on its way (R528, R529). ALU1 stands 0x40 above ALU0 in destinations and 0x10 above it in sockets. -/
def Obligations.AluAndShfTriggersWriteTheirSockets : Prop :=
  ∀ (s : State) (f : FieldId) (t : TileId) (i : Nat) (m : Move),
    let k := keyOf f t; let s1 := ready s f t
    Issuing s1 k i m →
    (∀ u op, u < 2 → destOf m.dst = some (.alu u op) →
      let o := operand s1 k (0x040 + 0x040 * u); let c := sock s1 k (0x041 + 0x010 * u)
      ∃ s', exec (aluCommand op f t) s = .next s' ∧
        sock s' k (0x040 + 0x010 * u) = aluR op o (moved s1 k m) c ∧
        (∀ x, aluC op o (moved s1 k m) c = some x → sock s' k (0x041 + 0x010 * u) = x) ∧
        (aluOv op o (moved s1 k m) = true → if s1.on (p0 k) TP0.TILE_CTL_PRECISE = true
          then (⟨0x0A, u + 1, (s1.rig k).pc, (s1.rig k).slot, 0⟩ : Raised) ∈ (s'.rig k).raised
          else (⟨issueCycle s1 k + 1, 0x0A, u + 1, (s1.rig k).pc, (s1.rig k).slot, false⟩ : Arith) ∈ (s'.rig k).ariths)) ∧
    (∀ op, destOf m.dst = some (.shf op) →
      ∃ s', exec (shfCommand op f t) s = .next s' ∧
        sock s' k 0x060 = shfR op (operand s1 k 0x0C0) (operand s1 k 0x0C1) (moved s1 k m))

/-- The 16 CHK triggers of fixed latency, when the tile issues a bundle with the trigger enabled: the command completes, and the
table's result of acc, poly, pcfg and xout as the bundle leaves them and of the value moved is in socket c or r after latency 1, or
on its way to it with the table's latency of 2 or 3. -/
def Obligations.ChkTriggersDeliverTheirResults : Prop :=
  ∀ (s : State) (f : FieldId) (t : TileId) (i : Nat) (m : Move) (op : ChkOp),
    let k := keyOf f t; let s1 := ready s f t
    Issuing s1 k i m → destOf m.dst = some (.chk op) →
    ∃ s', exec (chkCommand op f t) s = .next s' ∧
      Delivers s' k (s1.rig k).slot (chkLat op)
        [(chkSock op, chkR op (operand s1 k 0x100) (operand s1 k 0x102) (operand s1 k 0x103) (operand s1 k 0x104) (moved s1 k m))]

/-- The four MUL and the four DIV triggers, when the tile issues a bundle with the trigger enabled: the command completes; both halves
of the product are on their way to slot + 3, or quotient and remainder to slot + 18; and where the table has the operation raise,
its exception waits, precise or with the cycle of its raising (R528, R529). -/
def Obligations.MulAndDivTriggersDeliverTheirResults : Prop :=
  ∀ (s : State) (f : FieldId) (t : TileId) (i : Nat) (m : Move),
    let k := keyOf f t; let s1 := ready s f t
    let slot := (s1.rig k).slot; let pc := (s1.rig k).pc; let c := issueCycle s1 k
    let precise := s1.on (p0 k) TP0.TILE_CTL_PRECISE
    Issuing s1 k i m →
    (∀ op, destOf m.dst = some (.mul op) →
      let o := operand s1 k 0x180; let v := moved s1 k m
      ∃ s', exec (mulCommand op f t) s = .next s' ∧
        Delivers s' k slot 3 [(0x090, mulLo op o v), (0x091, mulHi op o v)] ∧
        (mulOv op o v = true → if precise = true then (⟨0x0A, 3, pc, slot, 0⟩ : Raised) ∈ (s'.rig k).raised
          else (⟨c + 3, 0x0A, 3, pc, slot, false⟩ : Arith) ∈ (s'.rig k).ariths)) ∧
    (∀ op, destOf m.dst = some (.div op) →
      let o := operand s1 k 0x1A0; let v := moved s1 k m
      ∃ s', exec (divCommand op f t) s = .next s' ∧
        Delivers s' k slot 18 [(0x0A0, divR op o v), (0x0A1, divM op o v)] ∧
        (∀ code, divRaise op o v = some code → if precise = true then (⟨code, 4, pc, slot, 0⟩ : Raised) ∈ (s'.rig k).raised
          else (⟨c + 18, code, 4, pc, slot, false⟩ : Arith) ∈ (s'.rig k).ariths))

/-- The three HSH triggers, when the tile issues a bundle with the trigger enabled: the command completes. init sets H and the
working variables to the hash's initial value, seth to the first eight operand ports, and both set G to 0 and send h, v and G to their
sockets, due at slot + 8. rnd runs eight rounds on the schedule (the operand ports when G is 0): below G = 7 it leaves the working
variables and the schedule, keeps H and adds 1 to G, with v and G on their way; at G = 7 it adds the working variables to H, sets the
working variables to the sum and G to 0, with h, v and G on their way. HSH takes no trigger for 8 cycles from the issue. -/
def Obligations.HshTriggersRunTheHash : Prop :=
  ∀ (s : State) (f : FieldId) (t : TileId) (i : Nat) (m : Move),
    let k := keyOf f t; let s1 := ready s f t; let r := s1.rig k
    let w := (List.range 16).map fun j => operand s1 k (0x1C0 + j)
    Issuing s1 k i m →
    (∀ op, op < 2 → destOf m.dst = some (.hsh op) →
      let h := if op = 0 then shaInit else w.take 8
      ∃ s', exec (if op = 0 then .init f t else .seth f t) s = .next s' ∧
        (s'.rig k).hshH = h ∧ (s'.rig k).hshV = h ∧ (s'.rig k).hshG = 0 ∧ (s'.rig k).hshW = r.hshW ∧ (s'.rig k).hshFree = issueCycle s1 k + 8 ∧
        Delivers s' k r.slot 8 (hshSocks h h 0)) ∧
    (destOf m.dst = some (.hsh 2) →
      let q := shaRounds 8 (8 * r.hshG) (if r.hshG = 0 then w else r.hshW) (eight r.hshV)
      ∃ s', exec (.rnd f t) s = .next s' ∧ (s'.rig k).hshFree = issueCycle s1 k + 8 ∧
        (r.hshG ≠ 7 → (s'.rig k).hshV = q.1 ∧ (s'.rig k).hshW = q.2 ∧ (s'.rig k).hshG = r.hshG + 1 ∧
          (s'.rig k).hshH = r.hshH ∧
          Delivers s' k r.slot 8 ((q.1.zipIdx.map fun p => (0x0B0 + p.2, p.1)) ++ [(0x0C0, BitVec.ofNat 32 (r.hshG + 1))])) ∧
        (r.hshG = 7 → (s'.rig k).hshH = addWords (eight r.hshH) q.1 ∧ (s'.rig k).hshV = addWords (eight r.hshH) q.1 ∧
          (s'.rig k).hshW = q.2 ∧ (s'.rig k).hshG = 0 ∧
          Delivers s' k r.slot 8 (hshSocks (addWords (eight r.hshH) q.1) (addWords (eight r.hshH) q.1) 0)))

/-- The four FOLD triggers and fclr, when the tile issues a bundle with the trigger enabled. With RESUME 1 the stopped FOLD goes on
with its checkpoint and its own algorithm. With RESUME 0 a length of 1 to 262,144 starts a FOLD of the port's algorithm from acc, t
and len; any other length ends it in the slot after the trigger with f and facc reading acc, fptr reading t and frem reading len,
and LENGTH_ERROR set above 262,144. fclr clears RESUME. -/
def Obligations.FoldTriggersStartOrContinue : Prop :=
  ∀ (s : State) (f : FieldId) (t : TileId) (i : Nat) (m : Move),
    let k := keyOf f t; let s1 := ready s f t; let fo := (s1.rig k).fold
    let acc := operand s1 k 0x100; let len := operand s1 k 0x101; let v := moved s1 k m
    Issuing s1 k i m →
    (∀ alg, alg < 4 → destOf m.dst = some (.fold alg) → ∃ s', exec (foldCommand alg f t) s = .next s' ∧
      (fo.resume = true → (s'.rig k).fold.busy = true ∧ (s'.rig k).fold.resume = false ∧ (s'.rig k).fold.alg = fo.alg ∧
        (s'.rig k).fold.acc = fo.facc ∧ (s'.rig k).fold.ptr = fo.fptr ∧ (s'.rig k).fold.rem = fo.frem) ∧
      (fo.resume = false → 1 ≤ len.toNat → len.toNat ≤ 262144 → (s'.rig k).fold.busy = true ∧
        (s'.rig k).fold.resume = false ∧ (s'.rig k).fold.alg = alg ∧ (s'.rig k).fold.facc = acc ∧
        (s'.rig k).fold.fptr = v ∧ (s'.rig k).fold.frem = len ∧ (s'.rig k).fold.acc = acc ∧ (s'.rig k).fold.ptr = v ∧
        (s'.rig k).fold.rem = len) ∧
      (fo.resume = false → len.toNat = 0 ∨ 262144 < len.toNat → (s'.rig k).fold.busy = false ∧
        (s'.rig k).fold.lenErr = decide (262144 < len.toNat) ∧ sock s' k 0x072 = acc ∧ sock s' k 0x074 = acc ∧
        sock s' k 0x075 = v ∧ sock s' k 0x076 = len)) ∧
    (destOf m.dst = some .fclr → ∃ s', exec (.fclr f t) s = .next s' ∧ (s'.rig k).fold.resume = false)

/-- UNIT_RESULT completes: a socket that due results write holds their value (given that the due results of that socket agree), the
results of later slots stay on their way, and an imprecise exception whose cycle has come has set ARITH pending (R528). Due are the
results of slots up to the next one; in a rig that issues no more, all those up to the longest latency of 18 (R370, R394). -/
def Obligations.UnitResultLandsDueResults : Prop :=
  ∀ (s : State) (f : FieldId) (t : TileId), let k := keyOf f t; let r := s.rig k
    let slot := if r.run = .running then r.slot else r.slot + 18
    ∃ s', exec (.unitResult f t) s = .next s' ∧
      (s'.rig k).inflight = r.inflight.filter (fun l => decide (slot < l.due)) ∧
      (∀ x v, (∃ l ∈ r.inflight, l.due ≤ slot ∧ (x, v) ∈ l.writes) →
        (∀ l ∈ r.inflight, l.due ≤ slot → ∀ w ∈ l.writes, w.1 = x → w.2 = v) → sock s' k x = v) ∧
      ((∃ a ∈ r.ariths, a.raiseAt ≤ s.m.wtime) → s'.on (p0 k) TP0.EVENTS_ARITH = true)

/-- The 64 access triggers (eight kinds in eight modes), swp, ldadd, cas and sync, when the tile issues a bundle with the trigger
enabled: the command completes, the access is the youngest outstanding one with the address of its mode, the operand ports o and c,
and the world and level of the issue; the modes _pi and _pd leave the updated base in socket a. -/
def Obligations.LsuTriggersQueueTheirAccess : Prop :=
  ∀ (s : State) (f : FieldId) (t : TileId) (i : Nat) (m : Move),
    let k := keyOf f t; let s1 := ready s f t; let r := s1.rig k; let v := moved s1 k m
    let acc := fun (kind : LsuKind) (a : Word) =>
      (⟨kind, a, operand s1 k 0x1E0, operand s1 k 0x1E3, r.slot, r.pc, inBerth s1 k, curLevel s1 k, false⟩ : LsuAcc)
    Issuing s1 k i m →
    (∀ kd mode, destOf m.dst = some (.access kd mode) →
      let size := BitVec.ofNat 32 (accessKind kd).size
      let a := match mode with
        | 0 | 1 => v
        | 2 => v - size
        | 3 => v + operand s1 k 0x1E1
        | 4 => v + 2 * operand s1 k 0x1E1
        | 5 => v + 4 * operand s1 k 0x1E1
        | 6 => v + 8 * operand s1 k 0x1E1
        | _ => v + operand s1 k 0x1E2
      ∃ s', exec (accessCommand kd f t) s = .next s' ∧ (s'.rig k).lsuQ = r.lsuQ ++ [acc (accessKind kd) a] ∧
        (mode = 1 → sock s' k 0x0D1 = v + size) ∧ (mode = 2 → sock s' k 0x0D1 = v - size)) ∧
    (destOf m.dst = some .swp → ∃ s', exec (.swp f t) s = .next s' ∧ (s'.rig k).lsuQ = r.lsuQ ++ [acc .swp v]) ∧
    (destOf m.dst = some .ldadd → ∃ s', exec (.ldadd f t) s = .next s' ∧ (s'.rig k).lsuQ = r.lsuQ ++ [acc .ldadd v]) ∧
    (destOf m.dst = some .cas → ∃ s', exec (.cas f t) s = .next s' ∧ (s'.rig k).lsuQ = r.lsuQ ++ [acc .cas v]) ∧
    (destOf m.dst = some .sync → ∃ s', exec (.sync f t) s = .next s' ∧ (s'.rig k).lsuQ = r.lsuQ ++ [acc .sync v])

/-- ior, iow and kick, when the tile issues a bundle with the trigger enabled: the access is the youngest outstanding one of the IOU
with its address and operand port o; the descriptor address is the youngest of the ferry engine's queue with the world, level and
slot of the issue, and QUEUED counts it. -/
def Obligations.IouAndKickTriggersQueue : Prop :=
  ∀ (s : State) (f : FieldId) (t : TileId) (i : Nat) (m : Move),
    let k := keyOf f t; let s1 := ready s f t; let r := s1.rig k; let v := moved s1 k m
    Issuing s1 k i m →
    (destOf m.dst = some .ior → ∃ s', exec (.ior f t) s = .next s' ∧
      (s'.rig k).iouQ = r.iouQ ++ [⟨false, v, operand s1 k 0x260, r.slot, r.pc, inBerth s1 k⟩]) ∧
    (destOf m.dst = some .iow → ∃ s', exec (.iow f t) s = .next s' ∧
      (s'.rig k).iouQ = r.iouQ ++ [⟨true, v, operand s1 k 0x260, r.slot, r.pc, inBerth s1 k⟩]) ∧
    (destOf m.dst = some .kick → ∃ s', exec (.kick f t) s = .next s' ∧
      (s'.ferry k).queue = (s1.ferry k).queue ++ [⟨v, inBerth s1 k, curLevel s1 k, r.slot⟩] ∧
      s'.get (pgTk k 2) TP2.FRY_STATUS_QUEUED = ((s1.ferry k).queue.length + 1) % 8)

/-- jmp, call, ret and dbnz, when the tile issues a bundle with the trigger enabled: the command completes. A transfer to t[11:0], or
to LNK for ret, takes effect three positions after the trigger; call leaves the bundle address of the call plus 3 in LNK; dbnz
counts LC down by one, starts its transfer when the new value is not 0 and starts none when it is. LNK and LC are as the moves of the
same bundle leave them. The other three leave LC as those moves leave it, and all but call leave LNK so. -/
def Obligations.JumpsFixTheTarget : Prop :=
  ∀ (s : State) (f : FieldId) (t : TileId) (i : Nat) (m : Move),
    let k := keyOf f t; let s1 := ready s f t; let r := s1.rig k; let v := moved s1 k m
    Issuing s1 k i m →
    (destOf m.dst = some .jmp → ∃ s', exec (.jmp f t) s = .next s' ∧
      (⟨r.pos + 3, v.toNat % 4096, .jump⟩ : Pend) ∈ (s'.rig k).pend ∧ (s'.rig k).lnk = lnkAfter s1 k ∧ (s'.rig k).lc = lcAfter s1 k) ∧
    (destOf m.dst = some .call → ∃ s', exec (.call f t) s = .next s' ∧
      (⟨r.pos + 3, v.toNat % 4096, .jump⟩ : Pend) ∈ (s'.rig k).pend ∧ (s'.rig k).lnk = (r.pc + 3) % 4096 ∧
      (s'.rig k).lc = lcAfter s1 k) ∧
    (destOf m.dst = some .ret → ∃ s', exec (.ret f t) s = .next s' ∧
      (⟨r.pos + 3, lnkAfter s1 k, .jump⟩ : Pend) ∈ (s'.rig k).pend ∧ (s'.rig k).lnk = lnkAfter s1 k ∧ (s'.rig k).lc = lcAfter s1 k) ∧
    (destOf m.dst = some .dbnz → ∃ s', exec (.dbnz f t) s = .next s' ∧ (s'.rig k).lc = lcAfter s1 k - 1 ∧
      (s'.rig k).lnk = lnkAfter s1 k ∧
      (lcAfter s1 k ≠ 1 → (⟨r.pos + 3, v.toNat % 4096, .jump⟩ : Pend) ∈ (s'.rig k).pend) ∧
      (lcAfter s1 k = 1 → ∀ q ∈ (s'.rig k).pend, q.kind = .jump → q ∈ r.pend))

/-- rpt and rpti, when the tile issues a bundle with the trigger enabled: the command completes, the bundle three positions on is the
repeated one, and RPTC holds t[15:0], or 1 where that is 0; rpti lets events in between the iterations, rpt does not. -/
def Obligations.RepeatsCountIterations : Prop :=
  ∀ (s : State) (f : FieldId) (t : TileId) (i : Nat) (m : Move),
    let k := keyOf f t; let s1 := ready s f t; let r := s1.rig k; let v := moved s1 k m
    let n := if v.toNat % 65536 = 0 then 1 else v.toNat % 65536
    Issuing s1 k i m →
    (destOf m.dst = some .rpt → ∃ s', exec (.rpt f t) s = .next s' ∧ (s'.rig k).rpt = some ⟨r.pos + 3, true, none⟩ ∧
      (s'.rig k).rptc = n) ∧
    (destOf m.dst = some .rpti → ∃ s', exec (.rpti f t) s = .next s' ∧ (s'.rig k).rpt = some ⟨r.pos + 3, false, none⟩ ∧
      (s'.rig k).rptc = n)

/-- trap, gate call, gate return, gwcall, gwret, slip and eret, when the tile issues a bundle with the trigger enabled (its conditions
are among those of issuing): the command completes and the transfer is on its way to the position three on, with what its arrival
needs: the trap's number and bundle; the descriptor's ENTRY and TARGET, the return bundle and the caller's level; the gangway's
ENTRY and TARGET, with LNK the bundle after the delay bundles; LNK as the bundle's moves leave it for gwret; the return bundle of a slip from the berth world. -/
def Obligations.HandlerTransfersStart : Prop :=
  ∀ (s : State) (f : FieldId) (t : TileId) (i : Nat) (m : Move),
    let k := keyOf f t; let s1 := ready s f t; let r := s1.rig k; let n := (moved s1 k m).toNat
    let on := fun (target : Nat) (kind : XferKind) (s' : State) => (⟨r.pos + 3, target, kind⟩ : Pend) ∈ (s'.rig k).pend
    Issuing s1 k i m →
    (destOf m.dst = some .trap → ∃ s', exec (.trap f t) s = .next s' ∧ on r.pc (.trap (n % 256) r.pc) s') ∧
    (destOf m.dst = some .gate → n ≠ 64 → ∃ s', exec (.gateCall f t) s = .next s' ∧
      on (s1.get (p3 k) (TP3.GATE_ENTRY.at n)) (.gateCall (s1.get (p3 k) (TP3.GATE_TARGET.at n)) ((r.pc + 3) % 4096)
        (curLevel s1 k)) s') ∧
    (destOf m.dst = some .gate → n = 64 → ∃ s', exec (.gateReturn f t) s = .next s' ∧ on 0 .gateRet s') ∧
    (destOf m.dst = some .gwcall → ∃ s', exec (.gwcall f t) s = .next s' ∧
      on (s1.get (p0 k) (TP0.GW_ENTRY.at n)) (.gwcall n (s1.get (p0 k) (TP0.GW_TARGET.at n))) s' ∧
      (s'.rig k).lnk = (r.pc + 3) % 4096) ∧
    (destOf m.dst = some .gwret → ∃ s', exec (.gwret f t) s = .next s' ∧ on (lnkAfter s1 k) .gwret s') ∧
    (destOf m.dst = some .slip → ∃ s', exec (.slip f t) s = .next s' ∧
      on 0 (if inBerth s1 k = true then .slipIn ((r.pc + 3) % 4096) else .slipOut) s') ∧
    (destOf m.dst = some .eret → ∃ s', exec (.eret f t) s = .next s' ∧ on 0 .eret s')

/-- What an arriving transfer does. A gate call pushes the return bundle with the caller's level at entry DEPTH, adds 1 to DEPTH and
sets the level; a gangway call saves the guards and a0 to a3, sets ACTIVE, INDEX, CALLER and CALLER_WORLD and the level; its return
restores the shadow bank, level and world and clears ACTIVE; a slip from the berth world records RET, LEVEL and VALID and enters
keeper supervisor at SLIP.ENTRY; a slip back restores world and level, clears VALID and goes to SLIP.RET. -/
def Obligations.TransfersArrive : Prop :=
  ∀ (s : State) (f : FieldId) (t : TileId) (due target : Nat), let k := keyOf f t
    (∀ level ret caller, ret < 4096 → level < 4 → caller < 4 → s.get (p0 k) TP0.GSTACK_B_DEPTH < 3 →
      let s' := arrive s k ⟨due, target, .gateCall level ret caller⟩
      s'.get (p0 k) TP0.GSTACK_B_DEPTH = s.get (p0 k) TP0.GSTACK_B_DEPTH + 1 ∧
      gstackEntry s' k (s.get (p0 k) TP0.GSTACK_B_DEPTH) = ret + caller * 4096 ∧ curLevel s' k = level ∧
      (s'.rig k).pc = target ∧ (s'.rig k).lnk = (s.rig k).lnk) ∧
    (0 < s.get (p0 k) TP0.GSTACK_B_DEPTH →
      let d := s.get (p0 k) TP0.GSTACK_B_DEPTH - 1; let s' := arrive s k ⟨due, target, .gateRet⟩
      s'.get (p0 k) TP0.GSTACK_B_DEPTH = d ∧ curLevel s' k = gstackEntry s k d / 4096 ∧
      (s'.rig k).pc = gstackEntry s k d % 4096) ∧
    (∀ n level, n < 8 → level < 4 →
      let s' := arrive s k ⟨due, target, .gwcall n level⟩
      s'.on (p0 k) TP0.GW_STATE_ACTIVE = true ∧ s'.get (p0 k) TP0.GW_STATE_INDEX = n ∧
      s'.get (p0 k) TP0.GW_STATE_CALLER = curLevel s k ∧ s'.on (p0 k) TP0.GW_STATE_CALLER_WORLD = inBerth s k ∧
      curLevel s' k = level ∧ inBerth s' k = inBerth s k ∧ (s'.rig k).pc = target ∧
      s'.get (p0 k) TP0.GW_STATE_SG = bit (s.rig k).g0 + 2 * bit (s.rig k).g1 + 4 * bit (s.rig k).g2 ∧
      ∀ j, j < 4 → s'.word (p0 k + 0x1A4 + 4 * j) = regOf s k j) ∧
    (
      let s' := arrive s k ⟨due, target, .gwret⟩
      s'.on (p0 k) TP0.GW_STATE_ACTIVE = false ∧ curLevel s' k = s.get (p0 k) TP0.GW_STATE_CALLER ∧
      inBerth s' k = (isSplit s k && s.on (p0 k) TP0.GW_STATE_CALLER_WORLD) ∧ (s'.rig k).pc = target ∧
      (s'.rig k).g0 = bitAt (s.get (p0 k) TP0.GW_STATE_SG) 0 ∧ (s'.rig k).g1 = bitAt (s.get (p0 k) TP0.GW_STATE_SG) 1 ∧
      (s'.rig k).g2 = bitAt (s.get (p0 k) TP0.GW_STATE_SG) 2 ∧
      ∀ j, j < 4 → regOf s' k j = s.word (p0 k + 0x1A4 + 4 * j)) ∧
    (∀ ret, ret < 4096 →
      let s' := arrive s k ⟨due, target, .slipIn ret⟩
      s'.get (p0 k) TP0.SLIP_RET = ret ∧ s'.get (p0 k) TP0.SLIP_LEVEL = curLevel s k % 2 ^ TP0.SLIP_LEVEL.width ∧
      s'.on (p0 k) TP0.SLIP_VALID = true ∧ inBerth s' k = false ∧ curLevel s' k = 0 ∧
      (s'.rig k).pc = s.get (p0 k) TP0.SLIP_ENTRY) ∧
    (
      let s' := arrive s k ⟨due, target, .slipOut⟩
      s'.on (p0 k) TP0.SLIP_VALID = false ∧ inBerth s' k = true ∧ curLevel s' k = s.get (p0 k) TP0.SLIP_LEVEL ∧
      (s'.rig k).pc = s.get (p0 k) TP0.SLIP_RET)

/-- A compare of guard gN and relation REL, when the tile issues a bundle with it enabled: the command completes and gN holds whether
the relation holds of o as the bundle leaves it and the value moved. A gwret on its way is left out: its arrival restores the
guards (R505). -/
def Obligations.CompareSetsItsGuard : Prop :=
  ∀ (s : State) (f : FieldId) (t : TileId) (i : Nat) (m : Move) (n rel : Nat),
    let k := keyOf f t; let s1 := ready s f t; let o := operand s1 k 0x280; let v := moved s1 k m
    Issuing s1 k i m → destOf m.dst = some (.compare n rel) → noReturnWaits s1 k →
    ∃ s', exec (.compare f t) s = .next s' ∧
      guardHolds (s'.rig k) (n + 1) = (match rel with
        | 0 => decide (o = v) | 1 => decide (o ≠ v)
        | 2 => decide (o.toInt < v.toInt) | 3 => decide (o.toNat < v.toNat)
        | 4 => decide (o.toInt ≤ v.toInt) | 5 => decide (o.toNat ≤ v.toNat)
        | 6 => decide (v.toInt < o.toInt) | 7 => decide (v.toNat < o.toNat)
        | 8 => decide (v.toInt ≤ o.toInt) | 9 => decide (v.toNat ≤ o.toNat)
        | 10 => decide (o &&& v ≠ 0) | _ => decide (o &&& v = 0))

/-- Each row that issues a bundle of a tile (all units' triggers, moves, no-operations) or settles its results changes no byte of DMEM
and no bundle of IMEM of any tile, no other tile's rig, no register word outside pages 0 and 2 of its own tile and no staged word;
the Mast, its ports, logbook and defect map, the mesh, the channel ends, the landings, the hoist and the crossing sequencer keep
their state, and the waiting commands stay. -/
def Obligations.RigRowsFrame : Prop :=
  ∀ (s s' : State) (f : FieldId) (t : TileId), let k := keyOf f t
    ∀ c, (c = .noOperation f t ∨ c ∈ rigCommands f t) → exec c s = .next s' →
      s'.m.dmem = s.m.dmem ∧ s'.m.imem = s.m.imem ∧ (∀ j, j ≠ k → s'.rig j = s.rig j) ∧
      (∀ a, pageOf a ≠ pgTk k 0 → pageOf a ≠ pgTk k 2 → s'.word a = s.word a) ∧ s'.shadow = s.shadow ∧
      s'.power = s.power ∧ s'.port = s.port ∧ s'.tap = s.tap ∧ s'.pins = s.pins ∧ s'.log = s.log ∧ s'.map = s.map ∧
      s'.pending = s.pending ∧ s'.m.net = s.m.net ∧ s'.m.haws = s.m.haws ∧ s'.m.nets = s.m.nets ∧
      s'.m.stores = s.m.stores ∧ s'.m.hoist = s.m.hoist ∧ s'.m.x = s.m.x

/-! ### Memory accesses, IMEM, error injection and patrol (R429 to R472) -/

/-- LSU_ACCESS_COMPLETE of a load of 1, 2 or 4 bytes, the oldest access, aligned, whose place is local DMEM with no error and no
injection, in a tile whose matrix is not halted and lets M0 win the bank: the access leaves the queue, its result is the bytes lowest
first, zero- or sign-extended, every byte of every tile reads as before, and so do the registers of the file. In the collecting half
of the post bay the bytes are free values of a read of their own (R332 gives the read no result; the model's choice, log 40). A sync that
is the oldest access completes with the result 0. -/
def Obligations.LocalLoadCompletes : Prop :=
  ∀ (s : State) (f : FieldId) (t : TileId) (a : LsuAcc) (rest : List LsuAcc), let k := keyOf f t
    (s.rig k).lsuQ = a :: rest → a.sent = false →
    (∀ n sg l, n = 1 ∨ n = 2 ∨ n = 4 → a.kind = .load n sg → a.addr.toNat % n = 0 → matrixHalted s k = false →
      placeSpan s k a.addr.toNat n a.berth = .dmem l → l % n = 0 → l < 262144 → wins s k 0 ⟨bankOf l, 1, qosM0 s k⟩ = true →
      let hidden := bayPart s k l == .collecting
      (hidden = false → WordClean s k l) →
      ∃ s', exec (.lsuAccessComplete f t) s = .next s' ∧ (s'.rig k).lsuQ = rest ∧
        (s'.rig k).lsuIlk = markDone (some (loadValue n sg (wordOf ((List.range n).map fun j =>
          if hidden then Config.hiddenByte s.m.x.hiddenReads j else s.byte k (l + j))))) (s.rig k).lsuIlk ∧
        s'.m.x.hiddenReads = s.m.x.hiddenReads + (if hidden then 1 else 0) ∧
        s'.m.dmem = s.m.dmem ∧ (s'.rig k).ports = (s.rig k).ports ∧ (s'.rig k).socks = (s.rig k).socks) ∧
    (a.kind = .sync → ∃ s', exec (.lsuAccessComplete f t) s = .next s' ∧ (s'.rig k).lsuQ = rest ∧
      (s'.rig k).lsuIlk = markDone (some 0) (s.rig k).lsuIlk ∧ s'.m.dmem = s.m.dmem)

/-- LSU_ACCESS_COMPLETE of an aligned store of 1, 2 or 4 bytes, or of swp, ldadd or cas, the oldest access, whose place is local
DMEM with no error and no injection, with no snapshot line still to copy there for the berth world, in a tile whose matrix is not
halted and lets M0 win the bank: the access leaves the queue. Outside the post bay, and for a store of the keeper world into its
collecting half, a store leaves the low bytes of its data at its place; swp its data, ldadd the sum, cas its data where the word equals
its comparand and the word otherwise, each with the word found as its result; every other byte of every tile's DMEM reads as before. A
store into the visible half, and one of the berth world into the collecting half, leaves every byte of DMEM as it was (R332; that it
completes without an error is the model's choice, log 40). -/
def Obligations.LocalStoresWriteTheirBytes : Prop :=
  ∀ (s : State) (f : FieldId) (t : TileId) (a : LsuAcc) (rest : List LsuAcc) (n l : Nat), let k := keyOf f t
    (s.rig k).lsuQ = a :: rest → a.sent = false → a.kind.size = n → a.addr.toNat % n = 0 → matrixHalted s k = false →
    placeSpan s k a.addr.toNat n a.berth = .dmem l → l % n = 0 → l < 262144 → WordClean s k l →
    (a.berth && lineWaits s k l n) = false → wins s k 0 ⟨bankOf l, a.kind.beats, qosM0 s k⟩ = true →
    (∀ new : Word, (a.kind = .store n ∧ new = a.data) ∨ (a.kind = .swp ∧ new = a.data) ∨
        (a.kind = .ldadd ∧ new = s.dword k l + a.data) ∨
        (a.kind = .cas ∧ new = if s.dword k l = a.cmp then a.data else s.dword k l) →
      n = 1 ∨ n = 2 ∨ n = 4 →
      bayPart s k l = .outside ∨ (a.kind = .store n ∧ a.berth = false ∧ bayPart s k l = .collecting) →
      ∃ s', exec (.lsuAccessComplete f t) s = .next s' ∧ (s'.rig k).lsuQ = rest ∧
        (∀ j, j < n → s'.byte k (l + j) = BitVec.ofNat 8 (new.toNat / 256 ^ j)) ∧
        (∀ key, key < dkey k l ∨ dkey k l + n ≤ key → lookup 0 s'.m.dmem key = lookup 0 s.m.dmem key) ∧
        (a.kind.result = true → (s'.rig k).lsuIlk = markDone (some (s.dword k l)) (s.rig k).lsuIlk) ∧
        (s'.rig k).ports = (s.rig k).ports) ∧
    (a.kind = .store n → n = 1 ∨ n = 2 ∨ n = 4 →
      bayPart s k l = .visible ∨ (a.berth = true ∧ bayPart s k l = .collecting) →
      ∃ s', exec (.lsuAccessComplete f t) s = .next s' ∧ (s'.rig k).lsuQ = rest ∧ s'.m.dmem = s.m.dmem ∧
        (s'.rig k).raised = (s.rig k).raised)

/-- LSU_ACCESS_COMPLETE of an oldest access, not a sync, whose address is not a multiple of its size, or whose place is the default
target T11 while the matrix runs: the access leaves the queue, BUS_ERROR for the LSU waits with the access's bundle, slot and
address (a tile in escalated stop raises nothing, R534), a load or atomic completes without a value, so that r keeps what it held,
and no byte of memory changes. -/
def Obligations.FailedAccessRaisesBusError : Prop :=
  ∀ (s : State) (f : FieldId) (t : TileId) (a : LsuAcc) (rest : List LsuAcc), let k := keyOf f t
    (s.rig k).lsuQ = a :: rest → a.sent = false → a.kind ≠ .sync →
    a.addr.toNat % a.kind.size ≠ 0 ∨
      (matrixHalted s k = false ∧ ∃ kind, placeSpan s k a.addr.toNat a.kind.size a.berth = .t11 kind) →
    ∃ s', exec (.lsuAccessComplete f t) s = .next s' ∧ (s'.rig k).lsuQ = rest ∧
      ((s.rig k).run ≠ .escalated → (⟨0x09, 1, a.bundle, a.slot, a.addr⟩ : Raised) ∈ (s'.rig k).raised) ∧
      (a.kind.result = true → (s'.rig k).lsuIlk = markDone none (s.rig k).lsuIlk) ∧ s'.m.dmem = s.m.dmem

/-- IOU_ACCESS_COMPLETE in an awake wafer, of the oldest access of a tile whose matrix runs. An ior of a valid address completes with
the word that the register reads (once its beat is granted). An iow of a valid address in tile pages 1 to 3, beyond the page
header, to a word with live fields only leaves the word with those fields from its data and the rest as it was (no W1C field stands
beside them there). An address that is not a multiple of 4 below 0x4000 raises BUS_ERROR for the IOU, writes nothing and gives no
value. A write of 1 to CXDONE is a row of its own. -/
def Obligations.IouAccessesComplete : Prop :=
  ∀ (s : State) (f : FieldId) (t : TileId) (q : IouAcc) (rest : List IouAcc), let k := keyOf f t
    let a := pgTk k (q.addr.toNat / 4096) + q.addr.toNat % 4096
    awake s = true → (s.rig k).iouQ = q :: rest → matrixHalted s k = false →
    (ioValid q.addr = true → q.write = false →
      ∃ s', exec (.iouAccessComplete f t) s = .next s' ∧ (s'.rig k).iouQ = rest ∧
        (s'.rig k).iouIlk = markDone (some (regRead (grant k 0 9 1 s) a (q.berth && isSplit s k))) (s.rig k).iouIlk) ∧
    (∀ kd, ioValid q.addr = true → q.write = true → kindOf a = some kd → kd ≠ .tile0 → 0x40 ≤ q.addr.toNat % 4096 →
      attrMask kd (offOf a) .w1c = 0 → attrMask kd (offOf a) .rwH = 0 → stageMask a = 0 →
      ∃ s', exec (.iouAccessComplete f t) s = .next s' ∧ (s'.rig k).iouQ = rest ∧
        s'.word a = overlay (attrMask kd (offOf a) .rwL) q.data (s.word a)) ∧
    (ioValid q.addr = false → (q.write && q.addr == 0x200 && q.data.getLsbD 0) = false → (s.rig k).run ≠ .escalated →
      ∃ s', exec (.iouAccessComplete f t) s = .next s' ∧ (s'.rig k).iouQ = rest ∧
        (⟨0x09, 2, q.bundle, q.slot, q.addr⟩ : Raised) ∈ (s'.rig k).raised ∧ s'.live = s.live)

/-- FOLD_BEAT_READ of a FOLD in flight whose next byte, under the windows of its trigger (R419), lies in local DMEM outside the
collecting half of the post bay, with no older LSU access outstanding, the matrix running and M4 winning the bank, and no word of the
beat with an error or an injection: the register takes one byte step of the FOLD's algorithm for each byte of
the beat, in ascending order; the pointer and the length move by the beat. When the length reaches 0, BUSY clears and f, facc,
fptr and frem read the register twice, the address after the last byte and 0. The beat ends at the 16-byte line or with the
FOLD's last byte. Memory stays. -/
def Obligations.FoldBeatsFoldTheirBytes : Prop :=
  ∀ (s : State) (f : FieldId) (t : TileId) (d : Nat), let k := keyOf f t; let s1 := settleRig k s
    let fo := (s1.rig k).fold; let n := min (16 - fo.ptr.toNat % 16) fo.rem.toNat
    let bs := (List.range n).map fun j => s.byte k (d + j)
    let acc := bs.foldl (fun c b => crcByte fo.alg (sock s1 k 0x077) (sock s1 k 0x078) c (b.setWidth 32)) fo.acc
    fo.busy = true → fo.sent = false → (∀ a ∈ (s1.rig k).lsuQ, fo.slot ≤ a.slot) → matrixHalted s1 k = false →
    fo.rem ≠ 0 → placeIn fo.wins s1 k fo.ptr.toNat fo.berth = .dmem d → d % 16 = fo.ptr.toNat % 16 → d < 262144 →
    bayPart s1 k d ≠ .collecting → wins s1 k 4 ⟨bankOf d, 1, qosM4 s1 k⟩ = true →
    (∀ j, j < n → WordClean s k (d + j)) →
    ∃ s', exec (.foldBeatRead f t) s = .next s' ∧ (s'.rig k).fold.acc = acc ∧
      (s'.rig k).fold.ptr = fo.ptr + BitVec.ofNat 32 n ∧ (s'.rig k).fold.rem = fo.rem - BitVec.ofNat 32 n ∧
      (n = fo.rem.toNat → (s'.rig k).fold.busy = false ∧ sock s' k 0x072 = acc ∧ sock s' k 0x074 = acc ∧
        sock s' k 0x075 = fo.ptr + BitVec.ofNat 32 n ∧ sock s' k 0x076 = 0) ∧
      (n < fo.rem.toNat → (s'.rig k).fold.busy = true) ∧ s'.m.dmem = s.m.dmem

/-- In an awake wafer, to a tile that counts as ready. With no earlier IFS or IFL waiting and M1 granted T8, IFS stores the four IF_DATA
words as the bundle at IF_ADDR, clears its error and leaves every other bundle; IFL of a bundle without an error loads it into the
IF_DATA words and clears IFL_UE. While M1 is not granted T8 (the matrix is halted, or another master ranks before it) both wait behind
those that wait already and change no bundle (R558, R563). Each moves IF_ADDR on by INC. INJ_CE and INJ_UE latch an injection in the bank that INJ_BANK names. PATROL_SCRUB, with PATROL_EN on a bank in service,
moves the scrubber to the next of the bank's 2,048 lines and, with SCRUB_EN, leaves no correctable error in the line it read; it
changes no byte. -/
def Obligations.TileMemoryCommands : Prop :=
  ∀ (s : State) (f : FieldId) (t : TileId) (inc : Bool) (b : Fin 8), let k := keyOf f t; let p := p0 k
    let a := s.get p TP0.IF_ADDR_BUNDLE
    awake s = true → tileReady s f.val t.val = true →
    (ifWaits s k = [] → fetchGranted s k = true → ∃ s', exec (.ifs f t inc) s = .next s' ∧ imemAt s' k a = ifBundle s k ∧ imemErrAt s' k a = 0 ∧
      (∀ key, key ≠ k * 4096 + a → lookup 0 s'.m.imem key = lookup 0 s.m.imem key) ∧
      s'.get p TP0.IF_ADDR_BUNDLE = (a + bit inc) % 4096) ∧
    (∀ store : Bool, fetchGranted s k = false →
      ∃ s', exec (if store then .ifs f t inc else .ifl f t inc) s = .next s' ∧
        ifWaits s' k = ifWaits s k ++ [⟨a, if store then some (ifBundle s k) else none⟩] ∧ s'.m.imem = s.m.imem ∧
        ifBundle s' k = ifBundle s k ∧ s'.get p TP0.IF_ADDR_BUNDLE = (a + bit inc) % 4096) ∧
    (ifWaits s k = [] → fetchGranted s k = true → imemErrAt s k a = 0 →
      ∃ s', exec (.ifl f t inc) s = .next s' ∧ ifBundle s' k = imemAt s k a ∧
      s'.on p TP0.IF_STATUS_IFL_UE = false ∧ s'.get p TP0.IF_ADDR_BUNDLE = (a + bit inc) % 4096 ∧ s'.m.imem = s.m.imem) ∧
    (∃ s', exec (.injCe f t) s = .next s' ∧
      lookup (8, false) s'.m.inject k = (s.get p TP0.ECC_CONTROL_INJ_BANK, false)) ∧
    (∃ s', exec (.injUe f t) s = .next s' ∧
      lookup (8, false) s'.m.inject k = (s.get p TP0.ECC_CONTROL_INJ_BANK, true)) ∧
    (s.on p TP0.ECC_CONTROL_PATROL_EN = true → bitAt (s.get p TP0.BANK_STATUS_IN_SERVICE) b.val = true →
      ∃ s', exec (.patrolScrub f t b) s = .next s' ∧
        lookup 0 s'.m.patrol (8 * k + b.val) = (lookup 0 s.m.patrol (8 * k + b.val) + 1) % 2048 ∧
        (s.on p TP0.ECC_CONTROL_SCRUB_EN = true → ∀ j, j < 4 →
          s'.wordErr k (b.val * 32768 + lookup 0 s.m.patrol (8 * k + b.val) * 16 + 4 * j) ≠ 1) ∧
        s'.m.dmem = s.m.dmem)

/-! ### Exceptions, events and modes (R511 to R540) -/

/-- HANDLER_ENTRY of a rig that would issue and for which an exception is due, one that R523 chooses at this boundary or one whose
entry waits for outstanding accesses, not to be escalated. With LSU or IOU accesses outstanding the choice stands and the rig stays
where it is. With none outstanding a choice that has waited is replaced by a BUS_ERROR where an access received an error response
(R524 step 1), and with L its level and c the exception: the bank of the current world takes CODE and INFO, EBA, ERA0 to ERA2, ASYNC,
PLEVEL (the level before) and PMLEVEL (the mask before); the level becomes supervisor of the same world, MLEVEL becomes L, the next
bundle is the one at ENTRY, and no transfer or repeat stays in progress. A FOLD in flight is stopped at its checkpoint (R416), which
the bank's FOLD bit says. -/
def Obligations.HandlerEntrySavesAndEnters : Prop :=
  ∀ (s : State) (f : FieldId) (t : TileId) (c0 : Choice), let k := keyOf f t; let s1 := settleRig k s; let r := s1.rig k
    let c := if r.taking.isSome then afterAccesses r c0 else c0
    canRun s1 k = true → budgetSpent s1 k = false → cxdoneWaits s1 k = false → due s1 k = some c0 →
    c.async = true ∨ curMask s1 k < c.level →
    (r.lsuQ ≠ [] ∨ r.iouQ ≠ [] → ∃ s', exec (.handlerEntry f t) s = .next s' ∧ (s'.rig k).taking = some c0 ∧
      (s'.rig k).pc = r.pc ∧ (s'.rig k).slot = r.slot ∧ curLevel s' k = curLevel s1 k ∧ curMask s' k = curMask s1 k) ∧
    (r.lsuQ = [] → r.iouQ = [] →
    ∃ s', exec (.handlerEntry f t) s = .next s' ∧ (s'.rig k).taking = none ∧
      bankGet s' k TP0.X_CAUSE_CODE = (c.cause r).1 % 256 ∧ bankGet s' k TP0.X_CAUSE_INFO = (c.cause r).2 % 256 ∧
      bankGet s' k TP0.X_EBA_BUNDLE = (c.continuation r).1 % 4096 ∧
      bankGet s' k TP0.X_ERA_A_ERA0 = (c.continuation r).2.1 % 4096 ∧
      bankGet s' k TP0.X_ERA_A_ERA1 = (c.continuation r).2.2.1 % 4096 ∧
      bankGet s' k TP0.X_ERA_B_ERA2 = (c.continuation r).2.2.2 % 4096 ∧
      bankGet s' k TP0.X_ESTAT_ASYNC = bit c.async ∧ bankGet s' k TP0.X_ESTAT_FOLD = bit r.fold.busy ∧
      bankGet s' k TP0.X_ESTAT_PLEVEL = curLevel s1 k ∧ bankGet s' k TP0.X_ESTAT_PMLEVEL = curMask s1 k ∧
      curLevel s' k = 0 ∧ inBerth s' k = inBerth s1 k ∧ curMask s' k = c.level % 8 ∧
      (s'.rig k).pc = s1.get (p0 k) TP0.ENTRY_BUNDLE ∧ (s'.rig k).pend = [] ∧ (s'.rig k).rpt = none ∧
      (s'.rig k).fold.busy = false ∧ (r.fold.busy = true → (s'.rig k).fold.resume = true))

/-- HANDLER_ENTRY of a rig that would issue and for which a fault, not an event, of a level not above MLEVEL is due: the rig is in
escalated stop at once, with outstanding accesses left to complete, tile page 0 reads HALTED, no handler is entered (level, mask
and the banks' CAUSE stay), and the escalation with its report is on its way to the roster. -/
def Obligations.FaultAtOrBelowMaskEscalates : Prop :=
  ∀ (s : State) (f : FieldId) (t : TileId) (c0 : Choice), let k := keyOf f t; let s1 := settleRig k s
    let c := if (s1.rig k).taking.isSome then afterAccesses (s1.rig k) c0 else c0
    canRun s1 k = true → budgetSpent s1 k = false → cxdoneWaits s1 k = false → due s1 k = some c0 →
    c.async = false → c.level ≤ curMask s1 k →
    ∃ s', exec (.handlerEntry f t) s = .next s' ∧ (s'.rig k).run = .escalated ∧ (s'.rig k).taking = none ∧
      s'.on (p0 k) HDR.PAGE_STATUS_HALTED = true ∧ curLevel s' k = curLevel s1 k ∧ curMask s' k = curMask s1 k ∧
      bankGet s' k TP0.X_CAUSE_CODE = bankGet s1 k TP0.X_CAUSE_CODE ∧ (s'.rig k).lsuQ = (s1.rig k).lsuQ ∧
      ∃ x, Escalation.stop f t x ∈ s'.m.x.escs

/-- The arrival of an eret outside a repeat (IN_REPEAT 0): the level becomes PLEVEL and MLEVEL PMLEVEL (in split mode's berth world the
smaller of it and BERTH_MCAP); ERA0 is next, ERA1 and ERA2 are fixed for the two positions after it; IN_REPEAT, RPT_NI and FOLD
read 0, and HIST takes the world's save register (R722). -/
def Obligations.EretResumesTheContinuation : Prop :=
  ∀ (s : State) (f : FieldId) (t : TileId) (due target : Nat), let k := keyOf f t
    let s' := arrive s k ⟨due, target, .eret⟩; let pm := bankGet s k TP0.X_ESTAT_PMLEVEL
    bankGet s k TP0.X_ESTAT_IN_REPEAT = 0 →
    curLevel s' k = bankGet s k TP0.X_ESTAT_PLEVEL ∧ inBerth s' k = inBerth s k ∧
    curMask s' k = (if bankIx s k = 1 then min pm (s.get (p0 k) TP0.TILE_CTL_BERTH_MCAP) else pm) ∧
    (s'.rig k).pc = bankGet s k TP0.X_ERA_A_ERA0 ∧
    (s'.rig k).pend = [⟨(s.rig k).pos + 1, bankGet s k TP0.X_ERA_A_ERA1, .cont⟩,
      ⟨(s.rig k).pos + 2, bankGet s k TP0.X_ERA_B_ERA2, .cont⟩] ∧ (s'.rig k).rpt = none ∧
    bankGet s' k TP0.X_ESTAT_IN_REPEAT = 0 ∧ bankGet s' k TP0.X_ESTAT_RPT_NI = 0 ∧ bankGet s' k TP0.X_ESTAT_FOLD = 0 ∧
    s'.get (p0 k) TP0.REEF_HIST_HIST =
      s.get (p0 k) (if bankIx s k = 1 then TP0.REEF_SAVE_B_HIST else TP0.REEF_SAVE_K_HIST)

/-- In an awake wafer, to a tile that counts as ready. TIMER_EVENT of an armed timer: WTIME has run to the next edge whose low 32
bits equal TIMER_CMP, TIMER is pending and TIMER_ARM is 0. RAISE: SOFT is pending. PMODE_WRITE of a halted rig that changes the
mode: the mode, the most privileged level, the keeper world, DEPTH 0, SLIP.VALID 0 and GW_STATE 0; one that names the mode in
force changes nothing; of a rig that is not halted it leaves the mode and sets WHILE_RUNNING (R234). -/
def Obligations.EventAndModeCommands : Prop :=
  ∀ (s : State) (f : FieldId) (t : TileId) (split : Bool), let k := keyOf f t; let p := p0 k
    awake s = true → tileReady s f.val t.val = true →
    (s.on p TP0.TILE_CTL_TIMER_ARM = true → ∃ s', exec (.timerEvent f t) s = .next s' ∧
      s'.on p TP0.EVENTS_TIMER = true ∧ s'.on p TP0.TILE_CTL_TIMER_ARM = false ∧
      s'.m.wtime % 2 ^ 32 = s.get p TP0.TIMER_CMP_CMP ∧ s.m.wtime ≤ s'.m.wtime ∧ s'.m.wtime < s.m.wtime + 2 ^ 32) ∧
    (∃ s', exec (.raise f t) s = .next s' ∧ s'.on p TP0.EVENTS_SOFT = true) ∧
    (s.on p HDR.PAGE_STATUS_HALTED = true → isSplit s k ≠ split → ∃ s', exec (.pmodeWrite f t split) s = .next s' ∧
      isSplit s' k = split ∧ curLevel s' k = 0 ∧ inBerth s' k = false ∧ s'.get p TP0.GSTACK_B_DEPTH = 0 ∧
      s'.on p TP0.SLIP_VALID = false ∧ s'.word (p + 0x1A0) = 0) ∧
    (s.on p HDR.PAGE_STATUS_HALTED = true → isSplit s k = split → exec (.pmodeWrite f t split) s = .next s) ∧
    (s.on p HDR.PAGE_STATUS_HALTED = false → ∃ s', exec (.pmodeWrite f t split) s = .next s' ∧
      isSplit s' k = isSplit s k ∧ (s'.word (p + 0x00C)).getLsbD 0 = true)

/-- In an awake wafer, to a field controller that can be reached. ESC_RELEASE of a tile in escalated stop: while CSEQ is stopped the
tile waits for the next opening with HALTED equal to HALT_REQ; otherwise it is among the tiles that the next slack water releases.
Of a tile that is not in escalated stop it changes nothing. ESC_HEAD2_READ removes the head report, and LEVEL counts the rest. -/
def Obligations.EscalatedStopsAreReleased : Prop :=
  ∀ (s : State) (f : FieldId) (t : TileId), let k := keyOf f t
    awake s = true → reachable s (pgFctl f.val) = true →
    ((s.rig k).run = .escalated → cseqStopped s = true → ∃ s', exec (.escRelease f t.val) s = .next s' ∧
      (s'.rig k).run = .idle ∧
      s'.on (p0 k) HDR.PAGE_STATUS_HALTED = s.on (p0 k) HDR.PAGE_CONTROL_HALT_REQ) ∧
    ((s.rig k).run = .escalated → cseqStopped s = false → ∃ s', exec (.escRelease f t.val) s = .next s' ∧
      k ∈ s'.m.releases ∧ (s'.rig k).run = .escalated) ∧
    ((s.rig k).run ≠ .escalated → exec (.escRelease f t.val) s = .next s) ∧
    (∃ s', exec (.escHead2Read f) s = .next s' ∧
      lookup [] s'.m.reports f.val = (lookup [] s.m.reports f.val).tail ∧
      s'.get (pgFctl f.val) FCTL.ESC_LEVEL_LEVEL = ((lookup [] s.m.reports f.val).length - 1) % 32)

/-! ### The management port, registers, staging and the hoist (R222 to R298) -/

/-- STATUS, while the port sees its chip select: the frame sends four bytes of ones, the 14 bytes of the status record (LAST_TAG,
LAST_RESULT, LAST_DATA lowest byte first, the rejection's tag, reason and count, the state byte with PWR_STATE, ALERT_N driven
and RESET_N low, ALERT_CAUSE lowest byte first) and the CRC of the record; nothing else of the state changes. -/
def Obligations.StatusSendsTheRecord : Prop :=
  ∀ (s : State) (tag : Byte), portOpen s = true →
    let st := BitVec.ofNat 8 (pwrState s + 8 * bit (s.get pgMast MAST.ALERT_CAUSE != 0) + 16 * bit (!s.pins.resetN))
    let c := s.get pgMast MAST.ALERT_CAUSE
    let record := [s.port.lastTag, s.port.lastResult, s.port.lastData.setWidth 8, (s.port.lastData >>> 8).setWidth 8,
      (s.port.lastData >>> 16).setWidth 8, (s.port.lastData >>> 24).setWidth 8, s.port.rejTag, s.port.rejReason,
      s.port.rejSeq, st, BitVec.ofNat 8 c, BitVec.ofNat 8 (c / 256), BitVec.ofNat 8 (c / 65536), BitVec.ofNat 8 (c / 16777216)]
    exec (.status tag) s = .next { s with port := { s.port with
      miso := [0xFF, 0xFF, 0xFF, 0xFF] ++ record ++ [BitVec.ofNat 8 (portCrc record / 256), BitVec.ofNat 8 (portCrc record)] } }

/-- READ, while the port sees its chip select: with no command in progress it becomes the one, LAST_TAG its tag, LAST_RESULT BUSY and
LAST_DATA 0, and nothing but the port changes; with one in progress it is rejected for BUSY (R277). COMMAND_COMPLETE ends the command
in progress: with ERR_ADDRESS where the address does not name one word of a page, with ERR_UNREACHABLE where its page cannot be reached
as the access comes to it, both with data 0 and an error response counted; a READ else with ACK and the word that the register reads;
a WRITE else with ACK, every register word then as the write leaves it (WritesApplyByAttribute says what a write does); a broadcast with ACK.
A READ of a page without a read effect, and an error, change no register word but the counter of error responses. -/
def Obligations.ReadTakenAndCompleted : Prop :=
  ∀ (s : State) (tag : Byte) (addr : BitVec 40), let a := addr.toNat
    (portOpen s = true → s.port.cmd = none → ∃ s', exec (.read tag addr) s = .next s' ∧
      s'.port.lastTag = tag ∧ s'.port.lastResult = 1 ∧ s'.port.lastData = 0 ∧
      s'.port.cmd = some (if addrSingle a = false then .answer 0x80 else .read a) ∧ s' = { s with port := s'.port }) ∧
    (portOpen s = true → s.port.cmd.isSome = true → ∃ s', exec (.read tag addr) s = .next s' ∧
      s'.port.rejTag = tag ∧ s'.port.rejReason = 0x85 ∧ s'.port.cmd = s.port.cmd ∧ s'.port.lastResult = s.port.lastResult ∧
      ∀ b, b ≠ pgMast + MAST.CNT_BUSY_COUNT.off → s'.word b = s.word b) ∧
    (∀ c, s.power.standby = true → s.port.cmd = some c →
      let open' := fun b => reachable s (pageOf b)
      let err := match c with
        | .answer r => r
        | .read b | .write b _ => if open' b then 0 else 0x81
        | .broadcast _ _ => 0
      ∃ s', exec .commandComplete s = .next s' ∧
        s'.port.cmd = none ∧ s'.port.lastResult = BitVec.ofNat 8 err ∧
        s'.port.lastData = (match c with | .read b => if open' b then regRead s b false else 0 | _ => 0) ∧
        (0x80 ≤ err → s'.get pgMast MAST.CNT_ERRRESP_COUNT = min (s.get pgMast MAST.CNT_ERRRESP_COUNT + 1) 0xFFFF) ∧
        (0x80 ≤ err ∨ (∃ b, c = .read b ∧ kindOf b ≠ some .mpwr ∧ kindOf b ≠ some .hoist ∧ kindOf b ≠ some .cseq ∧
            kindOf b ≠ some .fctl) →
          ∀ b, b ≠ pgMast + 0x058 → s'.word b = s.word b) ∧
        (∀ b v, c = .write b v → open' b = true → ∀ x, s'.word x = (regWrite b v s).word x))

/-- WRITE, taken while the port sees its chip select and runs no command: it is the command in progress, to reach its page when it
completes. COMMAND_COMPLETE of such a WRITE and REGISTER_WRITE by management, of one word beyond the header of a page of registers
without behaviour of their own (ROSTER, ROSTF, the landing pages but the transfer slots, FPWR, FTOPO, tile pages 1 to 3) that can be
reached. A word of live and W1C fields: live fields take the data, W1C bits written with 1 are cleared, the rest stays. A word of staged
fields on an unlocked page: the shadow takes them, the live word stays and the page is DIRTY; on a locked page the shadow stays and
STAGE_LOCKED is set. -/
def Obligations.WritesApplyByAttribute : Prop :=
  ∀ (s : State) (tag : Byte) (addr : BitVec 40) (v : Word), let a := addr.toNat; let p := pageOf a
    (portOpen s = true → s.port.cmd = none → addrBroadcast a = false → ∃ s', exec (.write tag addr v) s = .next s' ∧
      s'.port.cmd = some (if addrSingle a then .write a v else .answer 0x80) ∧ s'.port.lastTag = tag ∧
      s' = { s with port := s'.port }) ∧
    (∀ kd, kindOf a = some kd →
      kd ∈ [PageKind.roster, .rostf, .netl, .netlBay, .netlFlow, .strl, .landingEmpty, .fpwr, .ftopo, .tile1, .tile2, .tile3] →
      a % 4 = 0 → 0x40 ≤ offOf a → reachable s p = true → s.power.standby = true → attrMask kd (offOf a) .rwH = 0 →
      ∀ c ∈ [Instr.commandComplete, .registerWrite .management addr v],
        (c = .commandComplete → s.port.cmd = some (.write a v)) →
        ∃ s', exec c s = .next s' ∧ (c = .commandComplete → s'.port.cmd = none ∧ s'.port.lastResult = 0) ∧
          (stageMask a = 0 →
            s'.word a = overlay (attrMask kd (offOf a) .rwL) v (s.word a) &&& ~~~(v &&& attrMask kd (offOf a) .w1c)) ∧
          (stageMask a ≠ 0 → attrMask kd (offOf a) .rwL ||| attrMask kd (offOf a) .w1c = 0 → s'.word a = s.word a ∧
            (s.on p HDR.STAGE_STATUS_LOCKED = false → s'.shadowWord a = overlay (stageMask a) v (s.shadowWord a) ∧
              s'.on p HDR.STAGE_STATUS_DIRTY = true) ∧
            (s.on p HDR.STAGE_STATUS_LOCKED = true → s'.shadow = s.shadow ∧ (s'.word (p + 0x00C)).getLsbD 2 = true)))

/-- REJECTED_FRAME, while the port sees its chip select: of a frame that R277 rejects, the record's rejection tag, reason and count,
the reason's counter (saturating) and the bytes sent are updated, and nothing else; a frame without an SCK edge changes nothing; a
frame that no step of R277 rejects does what the row of its command code does, with the tag, the address and the data of its bytes.
While the port does not see its chip select, it changes nothing. CNT_CLEAR leaves the six counters 0 and every other register word as it
was. ALERT_HELD_LOW shows that another agent holds the line low or has let it go, and sets HELD_LOW where the line is held while the
Mast does not drive it (R295). -/
def Obligations.RejectedFramesCountOnly : Prop :=
  ∀ (s : State) (fr : Frame) (probe : ProbeAnswers),
    (∀ reason, portOpen s = true → judge s fr = .rejected reason →
      let tagged := decide (16 ≤ fr.edges)
      ∃ s', exec (.rejectedFrame fr probe) s = .next s' ∧
        s'.port.rejTag = (if tagged then BitVec.ofNat 8 (frameByte fr 1) else 0) ∧
        s'.port.rejReason = BitVec.ofNat 8 (reason + 128 * bit tagged) ∧ s'.port.rejSeq = s.port.rejSeq + 1 ∧
        s'.get pgMast (rejectCounter reason) = min (s.get pgMast (rejectCounter reason) + 1) 0xFFFF ∧
        (∀ b, b ≠ pgMast + (rejectCounter reason).off → s'.word b = s.word b) ∧
        s' = { s with live := s'.live, port := { s.port with
          rejTag := s'.port.rejTag, rejReason := s'.port.rejReason, rejSeq := s'.port.rejSeq, miso := s'.port.miso } }) ∧
    (portOpen s = true → judge s fr = .noFrame → exec (.rejectedFrame fr probe) s = .next s) ∧
    (portOpen s = true → judge s fr = .taken →
      let tag := BitVec.ofNat 8 (frameByte fr 1); let addr := BitVec.ofNat 40 (frameAddress fr)
      exec (.rejectedFrame fr probe) s = exec (match frameByte fr 0 with
        | 0x01 => .status tag | 0x10 => .read tag addr | 0x11 => .write tag addr (frameData fr) | 0x20 => .moor tag
        | _ => .wake tag probe) s) ∧
    (portOpen s = false → exec (.rejectedFrame fr probe) s = .next s) ∧
    (∀ counters, counters = [MAST.CNT_ABORT_COUNT, MAST.CNT_LENGTH_COUNT, MAST.CNT_CRC_COUNT, MAST.CNT_UNKNOWN_COUNT,
        MAST.CNT_BUSY_COUNT, MAST.CNT_ERRRESP_COUNT] → s.power.standby = true → ∃ s', exec .cntClear s = .next s' ∧ (∀ F ∈ counters, s'.get pgMast F = 0) ∧
        ∀ b, (∀ F ∈ counters, b ≠ pgMast + F.off) → s'.word b = s.word b) ∧
    (∀ low, s.power.standby = true → ∃ s', exec (.alertHeldLow low) s = .next s' ∧ s'.pins.alertPulledLow = low ∧
      s'.on pgMast MAST.ALERT_PIN_HELD_LOW = (s.on pgMast MAST.ALERT_PIN_HELD_LOW || (low && !alertDriven s)))

/-- With TRST_N high and the standby domain ready: SAMPLE/PRELOAD, IDCODE and BYPASS (codes 3 to 15) leave their code in
TAP_STATUS.IR and select the boundary, identification and bypass register; EXTEST while the wafer is moored is in effect and
selects the boundary register, and otherwise selects the bypass register and sets EXTEST_REFUSED; UPDATE_DR shifts the captured
register out and, with the boundary register selected, loads its latches. TRST_N falling selects IDCODE and ends EXTEST. EXTEST is not in effect before the loads. -/
def Obligations.TestPortInstructions : Prop :=
  ∀ (s : State) (probe : ProbeAnswers), s.power.standby = true → s.tap.extest = false →
    (s.pins.trstN = true →
      (∃ s', exec (.samplePreload probe) s = .next s' ∧ s'.tap.sel = .boundary ∧ s'.get pgMast MAST.TAP_STATUS_IR = 1) ∧
      (∃ s', exec (.idcode probe) s = .next s' ∧ s'.tap.sel = .idcode ∧ s'.get pgMast MAST.TAP_STATUS_IR = 2) ∧
      (∀ code, 3 ≤ code → code ≤ 15 → ∃ s', exec (.bypass code probe) s = .next s' ∧ s'.tap.sel = .bypass ∧
        s'.get pgMast MAST.TAP_STATUS_IR = code) ∧
      (moored s = true → ∀ frame, ∃ s', exec (.extest frame) s = .next s' ∧ s'.tap.sel = .boundary ∧ s'.tap.extest = true ∧
        s'.get pgMast MAST.TAP_STATUS_IR = 0) ∧
      (moored s = false → ∀ frame, ∃ s', exec (.extest frame) s = .next s' ∧ s'.tap.sel = .bypass ∧ s'.tap.extest = false ∧
        s'.on pgMast MAST.TAP_STATUS_EXTEST_REFUSED = true) ∧
      (∀ v levels, ∃ s', exec (.updateDr v levels) s = .next s' ∧
        s'.tap.latch = (if s.tap.sel = .boundary then v else s.tap.latch) ∧ s'.tap.tdo = shiftOut (captureDr levels s))) ∧
    (∃ s', exec (.trstN true probe) s = .next s' ∧ s'.pins.trstN = false ∧ s'.tap.sel = .idcode ∧ s'.tap.extest = false ∧
      s'.get pgMast MAST.TAP_STATUS_IR = 2)

/-- In an awake wafer. CHECK and ARM of an idle hoist: the set is the dirty pages, each locked, SET_PAGES counts them, the sequencer is
CHECKING, the FIFO is empty and the error count is 0; of a hoist that is not idle they set REFUSED and leave its state. DISARM of an armed hoist and
ABORT of a running check return it to IDLE with the set unlocked; ABORT leaves the verdict 4 and the entries in the FIFO. In any other
state DISARM and ABORT change nothing. -/
def Obligations.HoistCommands : Prop :=
  ∀ s : State, awake s = true →
    (∀ c ∈ [Instr.check, .arm],
      (hoistState s = 0 → ∃ s', exec c s = .next s' ∧ hoistState s' = 1 ∧ s'.m.hoist.set = dirtyPages s ∧
        s'.m.hoist.arming = decide (c = .arm) ∧ s'.get pgHoist HOIST.SET_PAGES_COUNT =
          (dirtyPages s).length % 2 ^ HOIST.SET_PAGES_COUNT.width ∧
        (∀ p ∈ dirtyPages s, s'.on p HDR.STAGE_STATUS_LOCKED = true) ∧ s'.get pgHoist HOIST.OFFENCES_COUNT = 0 ∧ s'.m.hoist.fifo = []) ∧
      (hoistState s ≠ 0 → ∃ s', exec c s = .next s' ∧ hoistState s' = hoistState s ∧
        s'.on pgHoist HOIST.HOIST_STATUS_REFUSED = true ∧ s'.m = s.m)) ∧
    (hoistState s = 2 → ∃ s', exec .disarm s = .next s' ∧ hoistState s' = 0 ∧ s'.m.hoist.armed = none ∧
      ∀ p ∈ s.m.hoist.set, s'.on p HDR.STAGE_STATUS_LOCKED = false) ∧
    (hoistState s = 1 → ∃ s', exec .abort s = .next s' ∧ hoistState s' = 0 ∧
      s'.get pgHoist HOIST.HOIST_STATUS_VERDICT = 4 ∧ s'.m.hoist.fifo = s.m.hoist.fifo ∧
      ∀ p ∈ s.m.hoist.set, s'.on p HDR.STAGE_STATUS_LOCKED = false) ∧
    (hoistState s ≠ 2 → exec .disarm s = .next s) ∧ (hoistState s ≠ 1 → exec .abort s = .next s)

/-- In an awake wafer, with a set of page addresses (StepKeepsStoresSound says that every step keeps this). CHECK_END of a running
check. With entries that the FIFO has no room for, it pauses: PAUSED is 1, the FIFO is full and the sequencer stays CHECKING. With all
offences of the set in the FIFO, the sequencer is IDLE with verdict FAIL (2) and the set is unlocked. Without an offence a CHECK ends
IDLE with verdict PASS (1), with verdict 1 on every page of the set, and the set unlocked; an ARM leaves the sequencer ARMED with the WTIME
of its pass, unless its MODE 0 instant lies less than 64 cycles ahead, when it ends IDLE with verdict LATE (3). A check that has
judged its set before ends by what it counted. FIFO_HI_READ removes the head of the FIFO, and while a check runs the entries that it
holds back follow as far as there is room. -/
def Obligations.CheckEndAndFifoRead : Prop :=
  ∀ s : State, awake s = true → (∀ p ∈ s.m.hoist.set, pageOf p = p) →
    let h := s.m.hoist; let es := checkEntries h.set s; let room := 64 - h.fifo.length
    let idle := fun (verdict : Nat) (s' : State) => hoistState s' = 0 ∧ s'.get pgHoist HOIST.HOIST_STATUS_VERDICT = verdict ∧
      ∀ p ∈ h.set, s'.on p HDR.STAGE_STATUS_LOCKED = false
    let late := !s.on pgHoist HOIST.HOIST_WHEN_MODE && decide (hoistWtime s < s.m.wtime + 64)
    let armed := fun (s' : State) => hoistState s' = 2 ∧ ∃ a, s'.m.hoist.armed = some a ∧ a.passAt = s.m.wtime ∧
      a.wtime = hoistWtime s ∧ a.slack = s.on pgHoist HOIST.HOIST_WHEN_MODE
    (hoistState s = 1 → h.judged = false →
      (room < es.length → ∃ s', exec .checkEnd s = .next s' ∧ hoistState s' = 1 ∧
        s'.on pgHoist HOIST.HOIST_STATUS_PAUSED = true ∧ s'.m.hoist.fifo = h.fifo ++ es.take room ∧ s'.m.hoist.todo = es.drop room) ∧
      (es.length ≤ room → es ≠ [] → ∃ s', exec .checkEnd s = .next s' ∧ idle 2 s' ∧ s'.m.hoist.fifo = h.fifo ++ es) ∧
      (es = [] → s.get pgHoist HOIST.OFFENCES_COUNT = 0 → ∃ s', exec .checkEnd s = .next s' ∧
        (h.arming = false → idle 1 s' ∧ ∀ p ∈ h.set, s'.get p HDR.STAGE_STATUS_VERDICT = 1) ∧
        (h.arming = true → late = false → armed s') ∧ (h.arming = true → late = true → idle 3 s'))) ∧
    (hoistState s = 1 → h.judged = true →
      (h.todo ≠ [] → exec .checkEnd s = .next s) ∧
      (h.todo = [] → ∃ s', exec .checkEnd s = .next s' ∧
        (s.get pgHoist HOIST.OFFENCES_COUNT ≠ 0 → idle 2 s') ∧
        (s.get pgHoist HOIST.OFFENCES_COUNT = 0 → h.arming = false → idle 1 s') ∧
        (s.get pgHoist HOIST.OFFENCES_COUNT = 0 → h.arming = true → late = false → armed s') ∧
        (s.get pgHoist HOIST.OFFENCES_COUNT = 0 → h.arming = true → late = true → idle 3 s'))) ∧
    (hoistState s ≠ 1 → exec .checkEnd s = .next s) ∧
    (∃ s', exec .fifoHiRead s = .next s' ∧
      (hoistState s ≠ 1 → s'.m.hoist.fifo = h.fifo.tail ∧ s'.live = s.live) ∧
      (hoistState s = 1 → s'.m.hoist.fifo = h.fifo.tail ++ h.todo.take (64 - h.fifo.tail.length) ∧
        s'.m.hoist.todo = h.todo.drop (64 - h.fifo.tail.length)))

/-- HOIST_INSTANT, awake with CSEQ stopped and no opening asked for, of a hoist armed for slack water whose set is one page that can be
reached, of a kind whose application has no further effect (BERTH, NETL flow, FPWR, FTOPO, tile pages 0, 2 and 3):
every word of the page holds its staged fields from the shadow and its other fields as before; the page is not dirty and not
locked; WTIME has run to at least 64 cycles after the pass; the sequencer is IDLE with no hoist armed and LAST_INSTANT shows the
instant. -/
def Obligations.HoistInstantAppliesTheSet : Prop :=
  ∀ (s : State) (a : HoistArm) (p : Nat) (kd : PageKind),
    awake s = true → s.m.hoist.armed = some a → a.slack = true → cseqState s = 0 → s.m.x.openReq = false →
    s.m.hoist.set = [p] → pageOf p = p → kindOf p = some kd → kd ∈ [PageKind.berth, .netlFlow, .fpwr, .ftopo, .tile0, .tile2, .tile3] →
    reachable s p = true →
    ∃ s', exec .hoistInstant s = .next s' ∧
      (∀ w, pageOf w = p → 0x40 ≤ offOf w → s'.word w = stagedWord s w) ∧
      s'.on p HDR.STAGE_STATUS_DIRTY = false ∧ s'.on p HDR.STAGE_STATUS_LOCKED = false ∧
      s'.m.wtime = max s.m.wtime (a.passAt + 64) ∧ hoistState s' = 0 ∧ s'.m.hoist.armed = none ∧
      s'.get2 pgHoist HOIST.LAST_INSTANT_LO_WTIME HOIST.LAST_INSTANT_HI_WTIME = max s.m.wtime (a.passAt + 64) % 2 ^ 64

/-- DISCARD of an unlocked page that can be reached: every staged field of the page has its live value in the shadow, DIRTY, VERDICT
and FIRST_RULE are 0, and no other register word changes. In an awake wafer, for a rig whose page can be reached: HALT_REQ with 1 sets HALT_REQ, with HALTED at once where the rig
does not run; with 0 it clears both for a rig that has been opened and is not in escalated stop; HALT_POINT_REACHED of a running
rig at its bundle boundary with HALT_REQ set leaves HALTED 1. -/
def Obligations.DiscardAndHalt : Prop :=
  ∀ (s : State) (f : FieldId) (t : TileId), let k := keyOf f t; let p := pgTile f.val t.val 0
    (∀ page : BitVec 40, s.power.standby = true → standbyPage (pageOf page.toNat) = true ∨ awake s = true →
      reachable s (pageOf page.toNat) = true → s.on (pageOf page.toNat) HDR.STAGE_STATUS_LOCKED = false →
      ∃ s', exec (.discard page) s = .next s' ∧ s'.on (pageOf page.toNat) HDR.STAGE_STATUS_DIRTY = false ∧
        s'.get (pageOf page.toNat) HDR.STAGE_STATUS_VERDICT = 0 ∧ s'.get (pageOf page.toNat) HDR.STAGE_STATUS_FIRST_RULE = 0 ∧
        (∀ w, pageOf w = pageOf page.toNat → stageMask w &&& s'.shadowWord w = stageMask w &&& s.word w) ∧
        (∀ w, w ≠ pageOf page.toNat + 0x018 → s'.word w = s.word w)) ∧
    (awake s = true → reachable s p = true →
      (∃ s', exec (.haltReq (BitVec.ofNat 40 p) true) s = .next s' ∧ s'.on p HDR.PAGE_CONTROL_HALT_REQ = true ∧
        ((s.rig k).run ≠ .running → s'.on p HDR.PAGE_STATUS_HALTED = true)) ∧
      (∃ s', exec (.haltReq (BitVec.ofNat 40 p) false) s = .next s' ∧ s'.on p HDR.PAGE_CONTROL_HALT_REQ = false ∧
        ((s.rig k).run ≠ .fresh → (s.rig k).run ≠ .escalated → s'.on p HDR.PAGE_STATUS_HALTED = false)) ∧
      (s.on p HDR.PAGE_CONTROL_HALT_REQ = true → atBoundary s k = true →
        ∃ s', exec (.haltPointReached (BitVec.ofNat 40 p)) s = .next s' ∧ s'.on p HDR.PAGE_STATUS_HALTED = true))

/-! ### Power: the wake, mooring, rails, the sideband, the field loop and the standby domain's clock (R91 to R145) -/

/-- Of an awake wafer, MOOR_REQ, a MOOR frame that is taken, and RESET_N, with or without a frame that it discards, moor: WCLK is not
distributed, the main domain is as at reset (no memory, no rig, no crossing is left), and every register word outside the standby
domain's pages is at its reset value, live and staged. With no sideband transaction waiting for a retry PWR_STATE is MOORED at once; every
rail that was on, and the Mast main rail, is written OPERATION = 0x40, and no field or landing rail is on but those whose regulator is
sent nothing. With an OPERATION write waiting that switches a rail off, PWR_STATE is MOORING. A MOOR frame is the command in
progress and will complete with ACK; RESET_N is seen low. -/
def Obligations.MooringLeavesTheStandbyDomain : Prop :=
  ∀ (s : State) (tag : Byte) (frame : Option Frame) (c : Instr), awake s = true → s.tap.extest = false →
    c ∈ [Instr.moorReq, .moor tag, .resetN frame] → (c = .moor tag → s.port.cmd = none) →
    ∃ s', exec c s = .next s' ∧ clocked s' = false ∧ s'.m = MainSt.reset ∧
      (∀ a, standbyPage a = false → s'.word a = resetWord a ∧ s'.shadowWord a = resetWord a) ∧
      (s.power.pmbWaits = [] → pwrState s' = 0 ∧
        (∀ f : FieldId, fieldRail s' f.val = (fieldRail s f.val && !reachesRegulator s (.field f))) ∧
        (∀ k : LandingId, landingRail s' k.val = (landingRail s k.val && !reachesRegulator s (.landing k))) ∧
        (∀ r : Rail, (match r with
            | .field f => fieldRail s f.val = true
            | .landing k => landingRail s k.val = true
            | .main => True) →
          reachesRegulator s r = true → lookup 0 s'.power.operation (railIx r) = 0x40)) ∧
      ((∃ w ∈ s.power.pmbWaits, w.off = true) → pwrState s' = 3) ∧
      (c = .moor tag → s'.port.cmd = some (.answer 0) ∧ s'.port.lastTag = tag ∧ s'.port.lastResult = 1) ∧
      (c = .resetN frame → s'.pins.resetN = false)

/-- In a moored wafer with RESET_N high and EXTEST not in effect: WAKE_N, a WAKE frame that is taken, and RTC_ALARM once the alarm has fired on a
second tick set their bit of WAKE_CAUSE. With MAP_LOST clear and regulators that all answer with readings that
R94 accepts, the wafer is then WAKING with the Mast main rail's step begun: OPERATION 0x80 and the nominal 800 mV written.
With MAP_LOST set it stays moored and nothing is written to a regulator. RTC_ALARM without an alarm that has fired does
nothing. RESET_N_RISE does the same for the sources that were held. -/
def Obligations.WakeSourcesStartAWake : Prop :=
  ∀ (s : State) (tag : Byte), moored s = true → s.tap.extest = false → s.power.moorPending = none →
    let woken := fun (s' : State) (l : List WakeSource) =>
      (∀ w ∈ l, s'.on pgMpwr (causeField w) = true) ∧
      (s.on pgDmap DMAP.MAP_STATUS_MAP_LOST = true → pwrState s' = 0 ∧ s'.power.operation = s.power.operation ∧
        s'.power.vout = s.power.vout) ∧
      (s.on pgDmap DMAP.MAP_STATUS_MAP_LOST = false → pwrState s' = 1 ∧ s'.power.railStep = some .main ∧
        s'.power.phase = .mainRail ∧ lookup 0 s'.power.operation 68 = 0x80 ∧
        lookup 0 s'.power.vout 68 = voutWord s' .main 800)
    (s.pins.resetN = true →
      (∃ s', exec (.wakeN []) s = .next s' ∧ woken s' [.pin]) ∧
      (s.port.cmd = none → ∃ s', exec (.wake tag []) s = .next s' ∧ woken s' [.spi] ∧ s'.port.lastTag = tag ∧
        s'.port.cmd = some (.answer 0)) ∧
      (s.power.alarmDue = true → ∃ s', exec (.rtcAlarm []) s = .next s' ∧ woken s' [.rtc] ∧ s'.power.alarmDue = false) ∧
      (s.power.alarmDue = false → ∀ probe, exec (.rtcAlarm probe) s = .next s)) ∧
    (s.power.heldWakes ≠ [] → ∃ s', exec (.resetNRise []) s = .next s' ∧ woken s' s.power.heldWakes ∧
      s'.pins.resetN = true ∧ s'.power.heldWakes = [])

/-- RAIL_STATUS_POLL of a rail step in progress (no retry waits on its rail, no mooring is pending) whose word shows power good and not
OFF: the main rail goes on to PLL lock, with CLEAR_FAULTS sent where the word shows a fault; with no further rail asked for, a landing's
rail is on, and a field's rail is on in an awake wafer with every tile under test, where its deskew succeeded and nothing of the field is
retired. POWER_GOOD_TIMEOUT of a field: OPERATION 0x00, its fault bit, RAIL_FAULT in the roster and ALERT_N. PLL_LOCKED goes on to
reconciliation; PLL_NO_LOCK moors with PLL_NO_LOCK set. RECONCILED with no copy of the map sets MAP_LOST and moors; otherwise, with
no rail asked for and no sideband transaction waiting, the wafer is awake with WCLK distributed and WTIME 0. -/
def Obligations.WakePhasesEnd : Prop :=
  ∀ (s : State) (w : BitVec 16) (deskew : Bool), s.power.standby = true → s.power.moorPending = none →
    (∀ r, s.power.railStep = some r → (∀ x ∈ s.power.pmbWaits, x.rail ≠ r) →
      (statusOff w = false → statusGood w = true →
        (r = .main → ∃ s', exec (.railStatusPoll (.word w) deskew) s = .next s' ∧ s' = { s with power := s'.power } ∧
          s'.power.railStep = none ∧ s'.power.phase = .pll ∧
          lookup 0 s'.power.sent (256 * 68 + 0x03) = lookup 0 s.power.sent (256 * 68 + 0x03) + bit (showsFault w)) ∧
        (s.power.railQueue = [] → s.power.phase = .none →
          (∀ k, r = .landing k → landingOn s k.val = true → ∃ s', exec (.railStatusPoll (.word w) deskew) s = .next s' ∧
            landingRail s' k.val = true ∧ s'.power.railStep = none) ∧
          (∀ f, r = .field f → fieldOn s f.val = true → clocked s = true → deskew = true →
            (∀ x ∈ retiredRecs s, x.field ≠ f.val) →
            ∃ s', exec (.railStatusPoll (.word w) deskew) s = .next s' ∧ fieldRail s' f.val = true ∧
              fieldState s' f.val = 2 ∧ ∀ t : TileId, tileState s' f.val t.val = 1))) ∧
      (∀ f, r = .field f → s.power.railQueue = [] → s.power.phase = .none → ∃ s', exec .powerGoodTimeout s = .next s' ∧
        fieldState s' f.val = 5 ∧ s'.bit2 pgMpwr MPWR.RAIL_FAULT_LO_FAULT MPWR.RAIL_FAULT_HI_FAULT f.val = true ∧
        bitAt (s'.get pgMast MAST.ALERT_CAUSE) acPower = true ∧ s'.power.railStep = none ∧
        (reachesRegulator s r = true → lookup 0xFF s'.power.operation f.val = 0))) ∧
    (s.power.phase = .pll →
      (∀ fl, ∃ s', exec (.pllLocked fl) s = .next s' ∧ s'.power.phase = .reconciling ∧
        s'.on pgMpwr MPWR.PLL_STATUS_LOCKED = true) ∧
      ∃ s', exec .pllNoLock s = .next s' ∧ pwrState s' = 0 ∧ s'.on pgMpwr MPWR.SIDEBAND_PLL_NO_LOCK = true ∧
        s'.m = MainSt.reset) ∧
    (s.power.phase = .reconciling →
      (reconcile s = none → ∃ s', exec .reconciled s = .next s' ∧ pwrState s' = 0 ∧
        s'.on pgDmap DMAP.MAP_STATUS_MAP_LOST = true) ∧
      (∀ s1, reconcile s = some s1 → s.power.railStep = none → s.power.pmbWaits = [] →
        (∀ f : FieldId, fieldOn s f.val = false) → (∀ k : LandingId, landingOn s k.val = false) →
        ∃ s', exec .reconciled s = .next s' ∧ awake s' = true ∧ clocked s' = true ∧ s'.m.wtime = 0))

/-- With the standby domain ready. PMBUS_RETRY of the oldest transaction that waits, where no wake or mooring is in progress and no rail
is asked for: not acknowledged, its count rises by one before the third retry; at the third the regulator is marked, its fault bit
and the power alert are set and nothing of its rail waits any longer, and a tripped field whose off command is given up keeps its rail; acknowledged, a
visit sets VSET and VOUT_COMMAND, and a write that switches a field's rail off takes the rail off with OPERATION 0x40, or 0x00 of a trip.
SDA_LOW_IDLE with a recovery that fails sets SDA_STUCK and SIDEBAND_ABSENT and drops what waited. SCL_LOW_TIMEOUT leaves a
transaction of the rail waiting. SIDEBAND_RETRY outside a wake with every regulator answering clears both bits and every mark, and writes
each regulator's settings. PMB_ALERT_SERVICE records the regulator's word and sends CLEAR_FAULTS; where the word shows OFF for a field that is on, the
field is off with its request cleared and its fault set. -/
def Obligations.SidebandTransactions : Prop :=
  ∀ s : State, s.power.standby = true →
    (∀ w rest probe, s.power.pmbWaits = w :: rest → s.tap.extest = false →
      (w.tries < 2 → exec (.pmbusRetry .noAck probe) s =
        .next { s with power := { s.power with pmbWaits := ⟨w.rail, w.purpose, w.tries + 1⟩ :: rest } }) ∧
      (∀ f : FieldId, s.power.phase = .none → s.power.railQueue = [] → s.power.moorPending = none → s.power.mooring = none →
        w.rail = .field f →
        (2 ≤ w.tries → w.purpose = .visit ∨ w.purpose = .softOff ∨ w.purpose = .tripOff →
          ∃ s', exec (.pmbusRetry .noAck probe) s = .next s' ∧ Rail.field f ∈ s'.power.silentRails ∧
            s'.bit2 pgMpwr MPWR.RAIL_FAULT_LO_FAULT MPWR.RAIL_FAULT_HI_FAULT f.val = true ∧
            bitAt (s'.get pgMast MAST.ALERT_CAUSE) acPower = true ∧ (∀ x ∈ s'.power.pmbWaits, x.rail ≠ .field f) ∧
            (w.purpose = .tripOff → awake s = true → f.val ∈ s'.m.tripHeld ∧ fieldRail s' f.val = fieldRail s f.val)) ∧
        (∀ reply, reply ≠ .noAck → reachesRegulator s (.field f) = true →
          (w.purpose = .visit → fieldRail s f.val = true → ∃ s', exec (.pmbusRetry reply probe) s = .next s' ∧
            s'.power.pmbWaits = rest ∧
            s'.get pgMpwr (MPWR.VSET_CODE.at f.val) = s.get (pgFpwr f.val) FPWR.LOOP_STATUS_VDEMAND ∧
            lookup 0 s'.power.vout f.val = voutWord s (.field f) (600 + 5 * s.get (pgFpwr f.val) FPWR.LOOP_STATUS_VDEMAND)) ∧
          (w.purpose = .softOff ∨ w.purpose = .tripOff → ∃ s', exec (.pmbusRetry reply probe) s = .next s' ∧
            s'.power.pmbWaits = rest ∧ fieldRail s' f.val = false ∧
            lookup 0xFF s'.power.operation f.val = if w.purpose = .softOff then 0x40 else 0)))) ∧
    exec (.sdaLowIdle true) s = .next s ∧
    (s.tap.extest = false → sidebandAbsent s = false → s.power.phase = .none → s.power.railQueue = [] → s.power.moorPending = none →
      ∃ s', exec (.sdaLowIdle false) s = .next s' ∧ s'.on pgMpwr MPWR.SIDEBAND_SDA_STUCK = true ∧
        sidebandAbsent s' = true ∧ s'.power.pmbWaits = [] ∧ bitAt (s'.get pgMast MAST.ALERT_CAUSE) acPower = true) ∧
    (s.tap.extest = false → s.power.probeAt = none → s.power.phase = .none → s.power.moorPending = none →
      ∃ s', exec (.sidebandRetry []) s = .next s' ∧ s'.on pgMpwr MPWR.SIDEBAND_SDA_STUCK = false ∧
        sidebandAbsent s' = false ∧ s'.power.badRails = [] ∧ s'.power.silentRails = [] ∧
        s'.power.pmbWaits = s.power.pmbWaits.filter PmbWait.off ∧
        ∀ r : Rail, lookup 0 s'.power.sent (256 * railIx r + 0x02) = 0x18 ∧
          lookup 0 s'.power.sent (256 * railIx r + 0x24) = voutWord s' r (voutMax r)) ∧
    (∀ r, reachesRegulator s r = true →
      (∃ s', exec (.sclLowTimeout r) s = .next s' ∧ (∃ w ∈ s'.power.pmbWaits, w.rail = r) ∧ s'.live = s.live) ∧
      (∃ s', exec (.pmbAlertService r .noAck) s = .next s' ∧ (∃ w ∈ s'.power.pmbWaits, w.rail = r) ∧ s'.live = s.live) ∧
      ((∀ w ∈ s.power.pmbWaits, w.rail ≠ r) →
        (∀ w, statusOff w = false → exec (.pmbAlertService r (.word w)) s =
          .next (clearFaults r (raiseEvent { code := 0x1005, arg0 := railAddr r, arg1 := w.toNat } s))) ∧
        (∀ w f, statusOff w = true → r = .field f → fieldRail s f.val = true → s.power.railStep = none →
          ∃ s', exec (.pmbAlertService r (.word w)) s = .next s' ∧ fieldOn s' f.val = false ∧ fieldRail s' f.val = false ∧
            (awake s = true → fieldState s' f.val = 5) ∧
            s'.bit2 pgMpwr MPWR.RAIL_FAULT_LO_FAULT MPWR.RAIL_FAULT_HI_FAULT f.val = true)))

/-- FIELD_ON_SET and LANDING_ON_SET of a clear bit: the bit is set. In an awake wafer with no rail step in progress and nothing waiting,
where the rail may be powered (its regulator usable, off, its field not retired, no retry waiting on it), the rail step starts:
VOUT_COMMAND of the nominal voltage and OPERATION 0x80; with a step in progress the rail waits its turn. In a moored wafer the request is only
recorded. FIELD_ON_CLEAR of a powered field, awake: while CSEQ is stopped its rail is off (OPERATION 0x40) and the field OFF; while
CSEQ runs it is LEAVING. LANDING_ON_CLEAR takes the landing's rail off at once. -/
def Obligations.RailRequestsAct : Prop :=
  ∀ (s : State), s.power.standby = true → s.power.phase = .none →
    (∀ r c, (match r with
        | .field f => c = .fieldOnSet f ∧ fieldOn s f.val = false ∧ fieldRetired s f.val = false ∧ fieldState s f.val ≠ 7 ∧
            fieldRail s f.val = false ∧ s.power.leaving.contains f.val = false
        | .landing k => c = .landingOnSet k ∧ landingOn s k.val = false ∧ landingRail s k.val = false
        | .main => False) →
      ∃ s', exec c s = .next s' ∧
        (match r with
          | .field f => fieldOn s' f.val = true
          | .landing k => landingOn s' k.val = true
          | .main => True) ∧
        (moored s = true → s'.power = s.power) ∧
        (awake s = true → s.power.railStep = none → s.power.railQueue = [] → reachesRegulator s r = true →
          r ∉ s.power.badRails → (∀ w ∈ s.power.pmbWaits, w.rail ≠ r) →
          s'.power.railStep = some r ∧ lookup 0 s'.power.operation (railIx r) = 0x80 ∧
          lookup 0 s'.power.vout (railIx r) = voutWord s r (nominal r)) ∧
        (awake s = true → s.power.railStep ≠ none → s.power.railStep ≠ some r → r ∈ s'.power.railQueue)) ∧
    (∀ f : FieldId, awake s = true → fieldOn s f.val = true → fieldRail s f.val = true → fieldState s f.val ≠ 7 →
      ∃ s', exec (.fieldOnClear f) s = .next s' ∧ fieldOn s' f.val = false ∧
        (cseqStopped s = true → fieldState s' f.val = 0 ∧
          (reachesRegulator s (.field f) = true → (∀ w ∈ s.power.pmbWaits, w.rail ≠ .field f) →
            fieldRail s' f.val = false ∧ lookup 0 s'.power.operation f.val = 0x40)) ∧
        (cseqStopped s = false → f.val ∈ s'.power.leaving ∧ fieldState s' f.val = 8)) ∧
    (∀ k : LandingId, landingOn s k.val = true → landingRail s k.val = true →
      ∃ s', exec (.landingOnClear k) s = .next s' ∧ landingOn s' k.val = false ∧
        (reachesRegulator s (.landing k) = true → (∀ w ∈ s.power.pmbWaits, w.rail ≠ .landing k) →
          landingRail s' k.val = false ∧ lookup 0 s'.power.operation (56 + k.val) = 0x40))

/-- Of an awake wafer and a field whose loop runs. ALLOWANCE_RECOMPUTE: the allowance is the smaller of what the margin supports and the
largest whose estimate keeps within CAP_W (above 300 acts as 300), from 1 to 15, and 1 under a droop hold. DROOP_TRIP: allowance 1, held for
1,024 cycles and counted. DROOP_HOLD_END clears the hold at its WTIME. VDEMAND_RECOMPUTE: the code limited to 4 up to the effective
VCEIL (20 to 36). MAST_VISIT that is acknowledged: VSET takes VDEMAND and VOUT_COMMAND its voltage. DAMAGE_GUARD_SAMPLE
of the field: TJ_MAX is the highest reading; where one exceeds 105.0 degrees the field is TRIPPED with FIELD_ON clear, FIELD_TRIP set and, with no
transaction of its regulator waiting for a retry, its rail off. -/
def Obligations.FieldLoopAndGuard : Prop :=
  ∀ (s : State) (f : FieldId), awake s = true → loopRuns s f.val = true → let p := pgFpwr f.val
    (∀ margin watts, ∃ s', exec (.allowanceRecompute f margin watts) s = .next s' ∧
      let cap := min 300 (s.get p FPWR.POWER_CAP_CAP_W)
      (s.on p FPWR.LOOP_STATUS_DROOP_HOLD = true → s'.get p FPWR.LOOP_STATUS_ALLOWANCE = 1) ∧
      (s.on p FPWR.LOOP_STATUS_DROOP_HOLD = false → ∃ c, 1 ≤ c ∧ c ≤ 15 ∧ (1 < c → watts.getD (c - 1) 0 ≤ cap) ∧
        (∀ b, c < b → b ≤ 15 → cap < watts.getD (b - 1) 0) ∧
        s'.get p FPWR.LOOP_STATUS_ALLOWANCE = max 1 (min margin c)) ∧
      (s'.on p FPWR.LOOP_STATUS_CAP_UNMET = true ↔ cap < watts.getD 0 0)) ∧
    (∃ s', exec (.droopTrip f) s = .next s' ∧ s'.get p FPWR.LOOP_STATUS_ALLOWANCE = 1 ∧
      s'.on p FPWR.LOOP_STATUS_DROOP_HOLD = true ∧
      s'.get p FPWR.DROOP_COUNT_COUNT = min (s.get p FPWR.DROOP_COUNT_COUNT + 1) (2 ^ 32 - 1) ∧
      lookup 0 s'.m.droopUntil f.val = s.m.wtime + 1024) ∧
    (s.on p FPWR.LOOP_STATUS_DROOP_HOLD = true → ∃ s', exec (.droopHoldEnd f) s = .next s' ∧
      s'.on p FPWR.LOOP_STATUS_DROOP_HOLD = false ∧ lookup 0 s.m.droopUntil f.val ≤ s'.m.wtime) ∧
    (∀ code, ∃ s', exec (.vdemandRecompute f code) s = .next s' ∧
      s'.get p FPWR.LOOP_STATUS_VDEMAND = max 4 (min code (max 20 (min 36 (s.get p FPWR.VCEIL_CODE))))) ∧
    (reachesRegulator s (.field f) = true → (∀ w ∈ s.power.pmbWaits, w.rail ≠ .field f) →
      ∃ s', exec (.mastVisit f true) s = .next s' ∧
        s'.get pgMpwr (MPWR.VSET_CODE.at f.val) = s.get p FPWR.LOOP_STATUS_VDEMAND ∧
        lookup 0 s'.power.vout f.val = voutWord s (.field f) (600 + 5 * s.get p FPWR.LOOP_STATUS_VDEMAND)) ∧
    (∀ l : List Nat, (∀ x ∈ l, x < 1024) → ∃ s', exec (.damageGuardSample [(f, l)] []) s = .next s' ∧
      ((∀ x ∈ l, x ≤ 420) → s'.get p FPWR.TJ_TJ_MAX = l.foldl max 0 ∧ fieldState s' f.val = fieldState s f.val) ∧
      ((∃ x ∈ l, 420 < x) → fieldState s' f.val = 6 ∧ fieldOn s' f.val = false ∧
        s'.bit2 pgMpwr MPWR.FIELD_TRIP_LO_TRIP MPWR.FIELD_TRIP_HI_TRIP f.val = true ∧
        (reachesRegulator s (.field f) = true → (∀ w ∈ s.power.pmbWaits, w.rail ≠ .field f) →
          fieldRail s' f.val = false ∧ lookup 0xFF s'.power.operation f.val = 0)))

/-- With the standby domain ready: RTC_SECOND_TICK adds one second; an armed alarm whose time is reached by then fires, which clears ALARM_EN and
no other register word, and otherwise no register word changes. RTC_SECONDS_WRITE loads 16 bits of its word above the last value
written to RTC_SECONDS_LO, RTC_SECONDS_LO_READ latches the upper 16 bits; neither changes a register word. VSTBY_REMOVED leaves no standby
domain, the main domain as at reset, copy A of the defect map and MAP_LOST as they were, and with no logbook write in progress
every logbook slot; every register word but the logbook's own non-volatile ones and MAP_STATUS is at its reset value.
VSTBY_APPLIED then finds the standby domain ready, the wafer moored and every part of the power state as at reset. -/
def Obligations.StandbyDomainClockAndSupply : Prop :=
  ∀ s : State,
    (s.power.standby = true →
      (∃ s', exec .rtcSecondTick s = .next s' ∧ s'.power.rtc = s.power.rtc + 1 ∧
        if s.on pgMpwr MPWR.RTC_ALARM_HI_ALARM_EN = true ∧
            s.get2 pgMpwr MPWR.RTC_ALARM_LO_ALARM MPWR.RTC_ALARM_HI_ALARM ≤ (s.power.rtc + 1).toNat
        then s'.power.alarmDue = true ∧ s'.on pgMpwr MPWR.RTC_ALARM_HI_ALARM_EN = false ∧
          ∀ a, a ≠ pgMpwr + MPWR.RTC_ALARM_HI_ALARM_EN.off → s'.word a = s.word a
        else s'.power.alarmDue = s.power.alarmDue ∧ s'.live = s.live) ∧
      (∀ hi, ∃ s', exec (.rtcSecondsWrite hi) s = .next s' ∧
        s'.power.rtc = BitVec.ofNat 48 (hi.toNat % 2 ^ 16 * 2 ^ 32 + s.power.rtcLoWritten.toNat) ∧ s'.live = s.live) ∧
      (∃ s', exec .rtcSecondsLoRead s = .next s' ∧ s'.power.rtcHiLatch = (s.power.rtc >>> 32).setWidth 16 ∧
        s'.power.rtc = s.power.rtc ∧ s'.live = s.live) ∧
      (∀ n, ∃ s', exec (.vstbyRemoved n) s = .next s' ∧ s'.power.standby = false ∧ s'.m = MainSt.reset ∧
        s'.get pgDmap DMAP.MAP_STATUS_MAP_LOST = s.get pgDmap DMAP.MAP_STATUS_MAP_LOST ∧ mapA s' = mapA s ∧
        (s.log.queue = [] → ∀ q, logSlot s' q = logSlot s q) ∧
        (∀ a, keptWord a = true → s'.word a = s.word a) ∧
        (∀ a, keptWord a = false → a ≠ pgDmap + DMAP.MAP_STATUS_MAP_LOST.off → s'.word a = resetWord a))) ∧
    (s.power.standby = false → ∃ s', exec .vstbyApplied s = .next s' ∧ s'.power = PowerSt.reset ∧ s'.power.standby = true ∧
      (pwrState s = 0 → moored s' = true) ∧ mapA s' = mapA s)

/-! ### The readiness roster, the defect map and the logbook (R146 to R221, R748 to R762, R795) -/

/-- Of an awake wafer. TILE_TEST_END of a tile under test, another tile of its field still under test and no field awaiting its FIELD
record: passed, the tile takes the entry of a tile that has passed, PASSED counts it and copy A's records stay; failed, it is FAILED, FAILED
counts it and the defect map records it where it has room. BIST_TIMEOUT of a field under test: every tile still under test is FAILED,
30,000,000 cycles after the start. LANDING_SELF_TEST_END of a powered landing not yet tested in this wake: READY, or FAILED with
ALERT_N. PORT_WINDOW_EXPIRY of a port of a ready landing that is down counts its window as past. ESCALATION_REACHES_ROSTER: an escalated stop
makes a ready tile STOPPED; a lost tile is LOST while CSEQ runs, and RETIRED at once while it is stopped; a bank awaits its
retirement; a broken link's channel is fenced. -/
def Obligations.TestsAndEscalationsReachTheRoster : Prop :=
  ∀ (s : State), awake s = true →
    (∀ (f : FieldId) (t t' : TileId), t' ≠ t → fieldState s f.val = 2 → tileState s f.val t.val = 1 → tileState s f.val t'.val = 1 →
      NoFieldRecordDue s →
      (s.get (pgTile f.val t.val 0) TP0.BANK_STATUS_IN_SERVICE ≠ 0 → ∃ s', exec (.tileTestEnd f t none []) s = .next s' ∧
        tileState s' f.val t.val = passedState s f.val t.val ∧ recsA s' = recsA s ∧
        s'.get (pgRostf f.val) ROSTF.BIST_RESULT_PASSED =
          (s.get (pgRostf f.val) ROSTF.BIST_RESULT_PASSED + 1) % 2 ^ ROSTF.BIST_RESULT_PASSED.width) ∧
      (∀ part a, (∃ u : TileId, u ≠ t ∧ tileRecorded s f.val u.val = false) → mapA s = some a → NoneErased a →
        a.slots.length < 4094 →
        ∃ s', exec (.tileTestEnd f t (some part) []) s = .next s' ∧ tileState s' f.val t.val = 5 ∧
          tileRecorded s' f.val t.val = true ∧ s'.get (pgRostf f.val) ROSTF.BIST_RESULT_FAILED =
            (s.get (pgRostf f.val) ROSTF.BIST_RESULT_FAILED + 1) % 2 ^ ROSTF.BIST_RESULT_FAILED.width)) ∧
    (∀ f : FieldId, fieldState s f.val = 2 → ∃ s', exec (.bistTimeout f) s = .next s' ∧
      s'.m.wtime = max s.m.wtime (lookup 0 s.m.bistStart f.val + 30000000) ∧
      ∀ t : TileId, tileState s f.val t.val = 1 → tileState s' f.val t.val = 5 ∧
        bitAt (s'.get pgMast MAST.ALERT_CAUSE) acTest = true) ∧
    (∀ k : LandingId, landingRail s k.val = true → k.val ∉ s.m.landingTested → landingReady s k.val = false →
      (∃ s', exec (.landingSelfTestEnd k true) s = .next s' ∧ landingReady s' k.val = true ∧ k.val ∈ s'.m.landingTested) ∧
      (∃ s', exec (.landingSelfTestEnd k false) s = .next s' ∧ bitAt (s'.get pgRoster ROSTER.LANDING_READY_FAILED) k.val = true ∧
        landingReady s' k.val = false ∧ bitAt (s'.get pgMast MAST.ALERT_CAUSE) acTest = true)) ∧
    (∀ (k : LandingId) (p : Nat), landingReady s k.val = true → portUp s k.val p = false → p < landingPorts s k.val →
      ∃ s', exec (.portWindowExpiry k p) s = .next s' ∧ 4 * k.val + p ∈ s'.m.portWindow) ∧
    (∀ (f : FieldId) (t : TileId) (x : BitVec 96), .stop f t x ∈ s.m.x.escs → tileState s f.val t.val = 2 → NoFieldRecordDue s →
      (s.rig (keyOf f t)).run = .escalated → ∃ s', exec (.escalationReachesRoster (.stop f t x)) s = .next s' ∧
        tileState s' f.val t.val = 8) ∧
    (∀ (f : FieldId) (t : TileId) (inRouter : List Nat), tileState s f.val t.val = 2 →
      ∃ s', exec (.escalationReachesRoster (.tileLost f t inRouter)) s = .next s' ∧
        tileState s' f.val t.val = (if cseqStopped s then 6 else 7)) ∧
    (∀ (f : FieldId) (t : TileId) (b : Fin 8) (a : Nat), .bankUe f t b a ∈ s.m.x.escs → cseqStopped s = false →
      ∃ s', exec (.escalationReachesRoster (.bankUe f t b a)) s = .next s' ∧ Retire.bank f.val t.val b.val ∈ s'.m.retire ∧
        bitAt (s'.get (p0 (keyOf f t)) TP0.BANK_STATUS_RETIRE_PENDING) b.val = true) ∧
    (∀ (f : FieldId) (e : Fin 96) (r n : Nat) (ps : List Nat), e.val < 92 → .linkBroken f e r n ps ∈ s.m.x.escs →
      ∃ s', exec (.escalationReachesRoster (.linkBroken f e r n ps)) s = .next s' ∧ chanFenced s' f.val e.val = true)

/-- With the standby domain ready. RETIRE_CMD while not BUSY: an invalid request has RESULT 2 and adds nothing; a valid one has RESULT 0
and its record is in copy A, where there was none and the area has room for it and for the FIELD records of R198; RESULT 1 where it stands already, and
copy A's records stay while no FIELD record is due; RESULT 3 with no copy. MAP_SYNC clears FLASH_FAULT; where no wake has reconciled the
copies that is all; after a wake, with a flash that answers and holds the same records, RECONCILE is 0 and copy A's records stay.
READ_INDEX shows the selected record's 128 bits, 0 past the last. FLASH_BUSY_POLL: a sector erased is followed by the
next, the last by the first page; a record read back right is in copy B; a first mismatch repeats the record in the next slot, and
leaves a torn slot, or the record where the program has completed late. FLASH_OP_TIMEOUT repeats an erase once; a second fault of a program sets FLASH_FAULT
with ALERT_N and stops. -/
def Obligations.DefectMapCommands : Prop :=
  ∀ s : State, s.power.standby = true →
    (s.on pgDmap DMAP.RETIRE_STATUS_BUSY = false → let d := s.get pgDmap DMAP.RETIRE_DESC_DESC
      let e := descEntry d (s.get pgDmap DMAP.RETIRE_REMARK_REMARK)
      (descOk d = false → ∃ s', exec .retireCmd s = .next s' ∧ s'.get pgDmap DMAP.RETIRE_STATUS_RESULT = 2 ∧ recsA s' = recsA s) ∧
      (descOk d = true → mapA s = none → ∃ s', exec .retireCmd s = .next s' ∧ s'.get pgDmap DMAP.RETIRE_STATUS_RESULT = 3) ∧
      (∀ a, descOk d = true → mapA s = some a → NoneErased a → a.slots.length + 57 ≤ 4094 →
        (hasRec s e.kind e.field e.locator = false → ∃ s', exec .retireCmd s = .next s' ∧
          s'.get pgDmap DMAP.RETIRE_STATUS_RESULT = 0 ∧ hasRec s' e.kind e.field e.locator = true) ∧
        (hasRec s e.kind e.field e.locator = true → ∃ s', exec .retireCmd s = .next s' ∧
          s'.get pgDmap DMAP.RETIRE_STATUS_RESULT = 1 ∧ (NoFieldRecordDue s → recsA s' = recsA s)))) ∧
    (∀ fl, (s.map.following = false → ∃ s', exec (.mapSync fl) s = .next s' ∧
        s'.on pgDmap DMAP.MAP_STATUS_FLASH_FAULT = false ∧ s'.map = { s.map with syncDue := false } ∧
        ∀ a, a ≠ pgDmap + DMAP.MAP_STATUS_FLASH_FAULT.off → s'.word a = s.word a) ∧
      (∀ a b, s.map.following = true → fl.meets = true → s.map.flashOp = none → mapA s = some a → mapB s = some b →
        sameRecords a.recs b.recs = true → ∃ s', exec (.mapSync fl) s = .next s' ∧
          s'.get pgDmap DMAP.MAP_STATUS_RECONCILE = 0 ∧ s'.on pgDmap DMAP.MAP_STATUS_FLASH_FAULT = false ∧
          s'.on pgDmap DMAP.MAP_STATUS_FLASH_ABSENT = false ∧ (NoFieldRecordDue s → recsA s' = recsA s))) ∧
    (∀ v : Word, ∃ s', exec (.readIndex v) s = .next s' ∧
      let w := ((recsA s)[v.toNat % 2 ^ DMAP.READ_INDEX_INDEX.width]?.map recBits).getD 0
      s'.get pgDmap DMAP.READ_WORD0_WORD = w % 2 ^ 32 ∧ s'.get pgDmap DMAP.READ_WORD1_WORD = w / 2 ^ 32 % 2 ^ 32 ∧
      s'.get pgDmap DMAP.READ_WORD2_WORD = w / 2 ^ 64 % 2 ^ 32 ∧ s'.get pgDmap DMAP.READ_WORD3_WORD = w / 2 ^ 96 % 2 ^ 32) ∧
    (∀ w i again ok late, s.map.flashOp = some (.erase w i again) →
      (∃ s', exec (.flashBusyPoll ok late) s = .next s' ∧
        s'.map.flashOp = some (if i + 1 < 16 then .erase w (i + 1) false else .page w 0)) ∧
      (again = false → ∃ s', exec (.flashOpTimeout late) s = .next s' ∧ s'.map.flashOp = some (.erase w i true))) ∧
    (∀ r again late, s.map.flashOp = some (.slot r again) →
      (∀ b, mapB s = some b → NoneErased b → r.ok = true →
        (s.map.bWhole = none → s.map.bQueue = [] → ∃ s', exec (.flashBusyPoll true late) s = .next s' ∧
          recsB s' = recsB s ++ [r] ∧ s'.map.flashOp = none) ∧
        (again = false → ∃ s', exec (.flashBusyPoll false late) s = .next s' ∧ s'.map.flashOp = some (.slot r true) ∧
          recsB s' = recsB s ++ (if late = true then [r] else []))) ∧
      (again = true → ∃ s', exec (.flashOpTimeout late) s = .next s' ∧ s'.map.flashOp = none ∧ s'.map.flashStopped = true ∧
        s'.on pgDmap DMAP.MAP_STATUS_FLASH_FAULT = true ∧ bitAt (s'.get pgMast MAST.ALERT_CAUSE) acMap = true))

/-- With the standby domain ready. LOGBOOK_WRITE takes the oldest queued event and its slot holds it. READ_SEQ shows the slot's 256 bits
with STATE 0 where the slot holds that number with a right CHECK, STATE 2 and zeros where its CHECK is wrong, and STATE 1 and zeros
where it is empty. ACK_SEQ takes v when (v - ACK_SEQ) mod 2^32 is no more than UNSAVED; otherwise it is ignored and BAD_ACK is
set. While MARKED is 0, SERVICE_MARK stores its reference, and SERVICE_REASON stores its reason, sets MARKED and raises the
SERVICE_MARK event with both values, which takes the next number at the end of the queue (unless it repeats the newest event or
the queue is full); from then on both are ignored. -/
def Obligations.LogbookCommands : Prop :=
  ∀ s : State, s.power.standby = true →
    (∀ e rest, s.log.queue = e :: rest → ∃ s', exec .logbookWrite s = .next s' ∧ s'.log.queue = rest ∧
      logSlot s' (e.toNat % 2 ^ 32) = e) ∧
    (∀ v : Word, let b := logSlot s v.toNat
      ∃ s', exec (.readSeq v) s = .next s' ∧ s'.get pgLogb LOGB.READ_SEQ_SEQ = v.toNat ∧
        s'.get pgLogb LOGB.READ_STATUS_STATE = (if b = 0 then 1 else if checkRight b = false then 2
          else if b.toNat % 2 ^ 32 = v.toNat then 0 else 1) ∧
        ∀ i, i < 8 → s'.get pgLogb (LOGB.READ_WORD_WORD.at i) =
          (if s'.get pgLogb LOGB.READ_STATUS_STATE = 0 then b.toNat / 2 ^ (32 * i) % 2 ^ 32 else 0)) ∧
    (∀ v : Word, ∃ s', exec (.ackSeq v) s = .next s' ∧
      if (v.toNat + 2 ^ 32 - s.get pgLogb LOGB.ACK_SEQ_SEQ) % 2 ^ 32 ≤ unsaved s
      then s'.get pgLogb LOGB.ACK_SEQ_SEQ = v.toNat ∧ ∀ a, a ≠ pgLogb + LOGB.ACK_SEQ_SEQ.off → s'.word a = s.word a
      else s'.get pgLogb LOGB.ACK_SEQ_SEQ = s.get pgLogb LOGB.ACK_SEQ_SEQ ∧ (s'.word (pgLogb + 0x00C)).getLsbD 18 = true) ∧
    (∀ (v : Word) (r : Byte), s.on pgLogb LOGB.SERVICE_REASON_MARKED = true →
      exec (.serviceMark v) s = .next s ∧ exec (.serviceReason r) s = .next s) ∧
    (∀ (v : Word) (r : Byte), s.on pgLogb LOGB.SERVICE_REASON_MARKED = false →
      (∃ s', exec (.serviceMark v) s = .next s' ∧ s'.get pgLogb LOGB.SERVICE_MARK_REFERENCE = v.toNat ∧
        s'.on pgLogb LOGB.SERVICE_REASON_MARKED = false) ∧
      ∃ s', exec (.serviceReason r) s = .next s' ∧ s'.get pgLogb LOGB.SERVICE_REASON_REASON = r.toNat ∧
        s'.on pgLogb LOGB.SERVICE_REASON_MARKED = true ∧
        let e : Event := { code := 0x5002, arg0 := s.get pgLogb LOGB.SERVICE_MARK_REFERENCE, arg1 := r.toNat }
        (merges s e = false → s.get pgLogb LOGB.REPEAT_COUNT = 0 → s.log.queue.length < 64 →
          s'.log.queue = s.log.queue ++ [eventBits s e (s.get pgLogb LOGB.NEXT_SEQ_SEQ)] ∧
          s'.get pgLogb LOGB.NEXT_SEQ_SEQ = (s.get pgLogb LOGB.NEXT_SEQ_SEQ + 1) % 2 ^ 32))

/-! ### Crossings and slack water (R306 to R350) -/

/-- Of an awake wafer. START of a stopped CSEQ asks for an opening, STEP also sets STOP_PENDING; otherwise both are ignored. STOP sets
STOP_PENDING unless CSEQ is stopped. CUR_NO_LO_READ latches CUR_NO_HI. OPENING opens FIRST_NO, or CUR_NO + 1, one cycle on, latching
CROSS_LEN; with no berth slot used, a ready tile with an identifier and not in escalated stop runs from CX_ENTRY with its registers 0; a
resume that waits is judged by the slot as it stands: accepted, its SUSPENDED bit clears, else RESUME_REFUSED is set (log 54). INGRESS_CLOSE at
the opening's WTIME plus that length begins the drain. DRAIN_LIMIT and RECROSS_STAGE1_LIMIT leave no rig running. SUSPEND of a
used berth: at once while stopped, else at the next slack water. RESUME of a suspended berth waits for the opening. -/
def Obligations.SequencerCommands : Prop :=
  ∀ (s : State), awake s = true →
    (∀ c ∈ [Instr.start, .step],
      (cseqStopped s = true → s.m.x.openReq = false → ∃ s', exec c s = .next s' ∧ s'.m.x.openReq = true ∧
        s'.on pgCseq CSEQ.CSEQ_STATUS_STARTED = true ∧ stopPending s' = (decide (c = .step) || stopPending s)) ∧
      (cseqStopped s = false → exec c s = .next s)) ∧
    (cseqStopped s = false → ∃ s', exec .stop s = .next s' ∧ stopPending s' = true) ∧
    (cseqStopped s = true → exec .stop s = .next s) ∧
    (∃ s', exec .curNoLoRead s = .next s' ∧ s'.m.x.curNoHi = BitVec.ofNat 16 (s.get pgCseq CSEQ.CUR_NO_HI_NO) ∧ s'.live = s.live) ∧
    (s.m.x.openReq = true → clocked s = true → ∃ s', exec .opening s = .next s' ∧ cseqState s' = 1 ∧ s'.m.x.openReq = false ∧
      curNo s' = (if s.m.x.everOpened then (curNo s + 1) % 2 ^ 48 else firstNo s) ∧ s'.m.wtime = (s.m.wtime + 1) % 2 ^ 64 ∧
      s'.m.x.len = s.get2 pgCseq CSEQ.CROSS_LEN_LO_LEN CSEQ.CROSS_LEN_HI_LEN ∧ s'.m.x.closeAt = s'.m.wtime + s'.m.x.len ∧
      (∀ l ∈ liveSlots s, l.berth < 24192 → l.berth ∈ s.m.x.resumeReq →
        (resumable s l = true → berthGet s' l.berth BERTH.OUTCOME_SUSPENDED = 0) ∧
        (resumable s l = false → (s'.word (pgBerth l.berth + 0x00C)).getLsbD 16 = true)) ∧
      (liveSlots s = [] → ∀ (f : FieldId) (t : TileId), tileReady s f.val t.val = true → lidOf s f.val t.val ≠ none →
        (s.rig (keyOf f t)).run ≠ .escalated → (s'.rig (keyOf f t)).run = .running ∧
          (s'.rig (keyOf f t)).pc = s.get (p0 (keyOf f t)) TP0.CX_ENTRY_BUNDLE ∧ ∀ d, regOf s' (keyOf f t) d = 0)) ∧
    (cseqState s = 1 → ∃ s', exec .ingressClose s = .next s' ∧ cseqState s' = 2 ∧ s'.m.wtime = max s.m.wtime s.m.x.closeAt) ∧
    (cseqState s = 2 → s.m.x.recrossings = 0 → stageOneEmpty s = false → ∃ s', exec .drainLimit s = .next s' ∧
      (∀ k, (s'.rig k).run ≠ .running) ∧ s.m.x.closeAt + s.get pgCseq CSEQ.DRAIN_LIMIT_CYCLES ≤ s'.m.wtime) ∧
    (cseqState s = 4 → ∃ s', exec .recrossStage1Limit s = .next s' ∧ cseqState s' = 2 ∧ ∀ k, (s'.rig k).run ≠ .running) ∧
    (∀ b : Fin 24192, b.val ∉ s.m.x.suspended → 1 ≤ (slotOf s b.val).count → ∃ s', exec (.suspend b) s = .next s' ∧
      (cseqStopped s = true → b.val ∈ s'.m.x.suspended ∧ berthGet s' b.val BERTH.OUTCOME_SUSPENDED = 1 ∧
        bitAt (s'.get pgMast MAST.ALERT_CAUSE) acEscalation = true) ∧
      (cseqStopped s = false → b.val ∈ s'.m.x.suspendReq)) ∧
    (∀ b : Fin 24192, b.val ∈ s.m.x.suspended → ∃ s', exec (.resume b) s = .next s' ∧ b.val ∈ s'.m.x.resumeReq ∧ s'.live = s.live)

/-- Of an awake wafer. CXDONE at the head of a running rig's I/O queue, its snapshot copied, ends the tile's work; while a copy is in progress
nothing changes. OVERRUN at the budget stops every tile of the berth. SNAPSHOT_LINE_COPIED of an only copy moves 64 bytes to
the holder and goes on to the next line. EGRESS_RELEASE with stages 1 to 4 empty releases the landings. SLACK_WATER, its test passed and step 1
with nothing to do: with no berth, CSEQ stops or asks for the next opening; a berth whose tiles have all written CXDONE ends
COMPLETED; one that is damaged is to be restored and re-crossed; any other ending is restored, but for a replay berth, which just
ends. RESTORE_END opens the re-crossing one cycle on, or is the final slack water. -/
def Obligations.BoundaryCommands : Prop :=
  ∀ (s : State), awake s = true →
    (∀ (f : FieldId) (t : TileId), let k := keyOf f t
      (∀ q rest, (s.rig k).iouQ = q :: rest → (s.rig k).run = .running → q.write = true → q.addr = 0x200 →
        q.data.getLsbD 0 = true →
        ((∀ c ∈ s.m.x.copies, c.tile ≠ k) → ∃ s', exec (.cxdone f t) s = .next s' ∧ (s'.rig k).run = .idle ∧
          (s'.rig k).iouQ = rest) ∧
        ((∃ c ∈ s.m.x.copies, c.tile = k) → exec (.cxdone f t) s = .next s)) ∧
      (∀ b, (lidOf s f.val t.val).bind (berthOfLid s) = some b → (s.rig k).run = .running → budgetSpent s k = true →
        cxdoneWaits s k = false → ∃ s', exec (.overrun f t) s = .next s' ∧ (s'.rig k).run = .stopped ∧
          (∀ j ∈ berthTiles s b.slot, (s'.rig j).run ≠ .running) ∧
          ∀ r ∈ s'.m.x.berths, r.slot.berth = b.slot.berth → r.overrun = true) ∧
      (∀ c, s.m.x.copies = [c] → c.tile = k → s.m.inject = [] → s.m.dmemErr = [] → (s.ferry k).act = none →
        let src := c.src + 64 * c.next; let dst := c.dst + 64 * c.next
        src + 64 ≤ 0x40000 → dmemKind s k src false false = none → m3Kind s c.holder dst 64 = none →
        ∃ s', exec (.snapshotLineCopied f t false) s = .next s' ∧ (∀ i, i < 64 → s'.byte c.holder (dst + i) = s.byte k (src + i)) ∧
          s'.m.x.copies = (if c.next + 1 < c.lines then [{ c with next := c.next + 1 }] else []))) ∧
    (cseqState s = 2 → stagesEmpty s = true → s.m.x.openReq = false →
      ∃ s', exec .egressRelease s = .next s' ∧ s'.m.x.released = true) ∧
    (slackTest s = true → s.m.retire = [] → s.power.leaving = [] →
      (∀ f : FieldId, s.on (pgFtopo f.val) FTOPO.ROUTE_STATUS_PENDING = false ∧ (fieldState s f.val = 2 → underTest s f.val = true)) →
      s.m.hoist.armed = none → s.m.x.suspendReq = [] → s.m.x.recrossings = 0 →
      (s.m.x.berths = [] → ∃ s', exec .slackWater s = .next s' ∧
        s'.get2 pgCseq CSEQ.SLACK_WTIME_LO_WTIME CSEQ.SLACK_WTIME_HI_WTIME = s.m.wtime % 2 ^ 64 ∧ stopPending s' = false ∧
        (stopPending s = true → cseqState s' = 0) ∧ (stopPending s = false → s'.m.x.openReq = true)) ∧
      (∀ r, s.m.x.berths = [r] → r.runs = true → r.slot.berth < 24192 → suspendDue s r = false →
        ∃ s', exec .slackWater s = .next s' ∧
          (berthClean s r = true → berthGet s' r.slot.berth BERTH.OUTCOME_ENDING = 1 ∧
            berthGet s' r.slot.berth BERTH.OUTCOME_NO_NO = curNo s % 2 ^ 32) ∧
          (berthClean s r = false → r.slot.replay = true → berthGet s' r.slot.berth BERTH.OUTCOME_ENDING = brokenEnding r ∧
            s'.m.x.restoring = []) ∧
          (berthClean s r = false → r.slot.replay = false → r.holderLost = false →
            (r.damaged = true → r.recrossings < s.get pgCseq CSEQ.RECROSS_LIMIT_LIMIT →
              cseqState s' = 3 ∧ s'.m.x.toRecross = [r.slot.berth]) ∧
            (r.damaged = false → cseqState s' = 3 ∧ s'.m.x.restoring = [r.slot.berth] ∧
              s'.m.x.toRecross = [] ∧ berthGet s' r.slot.berth BERTH.OUTCOME_ENDING = brokenEnding r)))) ∧
    (cseqState s = 3 → s.m.x.openReq = false → ∃ s', exec .restoreEnd s = .next s' ∧ s'.m.x.restoring = [] ∧
      (s.m.x.toRecross ≠ [] → cseqState s' = 4 ∧ s'.m.x.recrossings = s.m.x.recrossings + 1 ∧
        s'.m.wtime = (s.m.wtime + 1) % 2 ^ 64) ∧
      (s.m.x.toRecross = [] → s.m.hoist.armed = none → s.power.leaving = [] → (stopPending s = true → cseqState s' = 0) ∧
        (stopPending s = false → s'.m.x.openReq = true)))

/-! ### The mesh, far accesses, routes and the ferry engine (R446 to R458, R565 to R625) -/

/-- A request of the row's kind that has arrived at a ready tile, in a tile without ECC errors. While the matrix is halted, for a line that
has not been copied, or while another master ranks before M3, the packet waits. Else it is served: where T11 does not take it, FAR_READ answers
with the bytes lowest first, FAR_WRITE and BLOCK_WRITE store their bytes and answer ACK, FAR_ATOMIC answers with the word found and
leaves the new one, BLOCK_READ answers with its bytes, IMEM_WRITE of 16 bytes stores a bundle, and POST that begins is collected; no
other byte changes. Of berth-world packets the halves of the tile's post bay are apart: a write there changes no byte, and a read of the
collecting half has no value here (log 40). What T11 takes is answered ERROR, and no memory changes. A tile that is not ready has the
request's unit answered with ERROR. READ_RESP and ACK complete the LSU access that waits for them, ERROR raises its BUS_ERROR, and
BLOCK_RESP gives a FOLD its bytes. -/
def Obligations.MeshPacketsServedAndAnswered : Prop :=
  ∀ (s : State) (i : Nat) (p : Pkt), p.dstField < 56 → let k := p.tile; let a := p.addr.toNat
    let rows : List Instr := [.farRead i, .farWrite i, .farAtomic i, .blockWrite i, .imemWrite i, .post i, .egress i, .blockRead i]
    let need := fun kind => if kind = 3 then p.flits.length else if kind = 7 then p.data.toNat else if kind = 2 then 4 else opSize p.op
    let sender := (lidOf s p.srcField p.srcTile).getD 0
    (∀ kind, kind < 8 → kind ≠ 6 → arrived kind i s = some p → ∀ c, rows[kind]? = some c →
      (tileReady s p.dstField p.dstTile = false → p.dead = false → p.vc = 0 → tileInUse s p.srcField p.srcTile = true →
        ∃ s', exec c s = .next s' ∧ errorFor p ∈ s'.m.net) ∧
      (tileReady s p.dstField p.dstTile = true →
        (matrixHalted s k = true ∨ pktWaits s p = true ∨ (pktReq s p).all (wins s k 3) = false → exec c s = .next s) ∧
        (matrixHalted s k = false → pktWaits s p = false → (pktReq s p).all (wins s k 3) = true → s.m.inject = [] → s.m.dmemErr = [] →
          ∃ kd v fl s1, exec c s = .next (answer p kd v fl (drainIf k (ifWaits s1 k).length s1)) ∧
            s1.m.net.length + 1 = s.m.net.length ∧
            (kind ≠ 4 → kind ≠ 5 → ∀ e, m3Kind s k a (need kind) = some e → kd = 11 ∧ s1.m.dmem = s.m.dmem ∧
              s1.get (pgTk k 1) TP1.ERR_LAST_KIND = e % 8) ∧
            (m3Kind s k a (need kind) = none →
              (kind = 0 → kd = 8 ∧ s1.m.dmem = s.m.dmem ∧ (p.world = false ∨ bayPart s k a ≠ .collecting →
                v = wordOf ((List.range (opSize p.op)).map fun j => s.byte k (a + j)))) ∧
              (kind = 7 → kd = 10 ∧ s1.m.dmem = s.m.dmem ∧ (p.world = false ∨ bayPart s k a ≠ .collecting →
                fl = (List.range p.data.toNat).map fun j => s.byte k (a + j))) ∧
              (p.world = true → bayPart s k a ≠ .outside → (kind = 1 → kd = 9 ∧ s1.m.dmem = s.m.dmem) ∧
                (kind = 2 → kd = 8 ∧ s1.m.dmem = s.m.dmem) ∧ (kind = 3 → kd = 9 ∧ s1.m.dmem = s.m.dmem)) ∧
              (p.world = false ∨ bayPart s k a = .outside →
                (kind = 1 → kd = 9 ∧ (∀ j, j < opSize p.op → s1.byte k (a + j) = BitVec.ofNat 8 (p.data.toNat / 256 ^ j)) ∧
                  ∀ key, key < dkey k a ∨ dkey k a + opSize p.op ≤ key → lookup 0 s1.m.dmem key = lookup 0 s.m.dmem key) ∧
                (kind = 2 → kd = 8 ∧ v = wordOf ((List.range 4).map fun j => s.byte k (a + j)) ∧
                  (∀ j, j < 4 → s1.byte k (a + j) = BitVec.ofNat 8 ((if p.op = 3 then p.data else if p.op = 4 then v + p.data
                    else if v = wordOf (p.flits.take 4) then p.data else v).toNat / 256 ^ j)) ∧
                  ∀ key, key < dkey k a ∨ dkey k a + 4 ≤ key → lookup 0 s1.m.dmem key = lookup 0 s.m.dmem key) ∧
                (kind = 3 → kd = 9 ∧ (∀ j, j < p.flits.length → s1.byte k (a + j) = p.flits.getD j 0) ∧
                  ∀ key, key < dkey k a ∨ dkey k a + p.flits.length ≤ key → lookup 0 s1.m.dmem key = lookup 0 s.m.dmem key))) ∧
            (kind = 4 → p.flits.length = 16 → a < 4096 → kd = 9 ∧ s1.m.dmem = s.m.dmem ∧
              imemAt s1 k a = BitVec.ofNat 128 (p.flits.foldr (fun b x => b.toNat + 256 * x) 0)) ∧
            (kind = 5 → s1.m.dmem = s.m.dmem ∧
              (p.addr = 0 → (∀ d, postAddr s k p.flits.length = some d → postBarred s k sender = true ∨
                  m3Kind s k d p.flits.length = none) →
                kd = 9 ∧ (lookup [] s1.m.x.collect k).length = (lookup [] s.m.x.collect k).length + 1) ∧
              (∀ d e, postAddr s k p.flits.length = some d → postBarred s k sender = false →
                m3Kind s k d p.flits.length = some e → kd = 11))))) ∧
    (∀ x rest, (s.rig k).lsuQ = x :: rest → x.sent = true → x.slot % 65536 = p.tag → p.unit = .lsu →
      (arrived 8 i s = some p → ∃ s', exec (.readResp i) s = .next s' ∧ (s'.rig k).lsuQ = rest ∧
        (∀ n sg, x.kind = .load n sg → (s'.rig k).lsuIlk = markDone (some (loadValue n sg p.data)) (s.rig k).lsuIlk)) ∧
      (arrived 9 i s = some p → ∃ s', exec (.ack i) s = .next s' ∧ (s'.rig k).lsuQ = rest) ∧
      (arrived 11 i s = some p → (s.rig k).run ≠ .escalated → ∃ s', exec (.error i) s = .next s' ∧ (s'.rig k).lsuQ = rest ∧
        (⟨0x09, 1, x.bundle, x.slot, x.addr⟩ : Raised) ∈ (s'.rig k).raised)) ∧
    (
      let s1 := settleRig k s; let fo := (s1.rig k).fold
      arrived 10 i s = some p → p.unit = .fold → fo.busy = true →
      fo.sent = true → fo.slot % 65536 = p.tag → p.flits.length ≤ fo.rem.toNat →
      ∃ s', exec (.blockResp i) s = .next s' ∧ (s'.rig k).fold.sent = false ∧
        (s'.rig k).fold.ptr = fo.ptr + BitVec.ofNat 32 p.flits.length ∧
        (s'.rig k).fold.acc = p.flits.foldl (fun c b => crcByte fo.alg (sock s1 k 0x077) (sock s1 k 0x078) c (b.setWidth 32)) fo.acc)

/-- CREDIT_WINDOW runs to the next multiple of 100 and sets every credit to its live share. ROUTE_COMPUTE_END: while CSEQ runs after a
crossing the routes wait for slack water, else they are live: routers and seam channels as the roster has them. LOOKUP_IN
shows the tile in use that holds the identifier. DESCRIPTOR_START of an idle engine whose matrix runs and whose request wins its arbitration, no
older LSU access outstanding: an address that is no multiple of 32 below 0x40000 gives DESC_ERROR; of a clean descriptor a reserved bit
gives RESERVED, else the first check that fails its code, with no byte moved; with no snapshot copy and no other master's request in the way, a
keeper-world move within one 256-byte block at both sides of local DMEM, not from a collecting half nor into a visible one, moves its
bytes. DESCRIPTOR_COMPLETE with nothing left to move or to be answered: done counts it, the code shows, NEXT is followed on OK alone,
and EVENT raises FERRY. -/
def Obligations.FerryAndRoutes : Prop :=
  ∀ (s : State) (f : FieldId) (t : TileId), let k := keyOf f t; let p := pgFtopo f.val
    (awake s = true → clocked s = true → ∃ s', exec .creditWindow s = .next s' ∧ s'.m.wtime % 100 = 0 ∧ s.m.wtime ≤ s'.m.wtime ∧
      s'.m.wtime < s.m.wtime + 100 ∧
      ∀ m j, m < 5 → j < 11 → lookup 0 s'.m.credits ((5 * k + m) * 16 + j) = shareOf s k m j) ∧
    (awake s = true → s.on p FTOPO.ROUTE_STATUS_COMPUTING = true → ∃ s', exec (.routeComputeEnd f) s = .next s' ∧
      s'.on p FTOPO.ROUTE_STATUS_COMPUTING = false ∧
      (routesAtOnce s = false → s'.on p FTOPO.ROUTE_STATUS_PENDING = true) ∧
      (routesAtOnce s = true → (∀ u : TileId,
          bitAt (s'.get p (FTOPO.ROUTER_LIVE_LIVE.at (u.val / 32))) (u.val % 32) = routerIn s f.val u.val) ∧
        ∀ i, i < 18 → bitAt (s'.get p FTOPO.SEAM_E_LIVE_LIVE) i = channelIn s f.val i)) ∧
    (∀ lid : BitVec 16, awake s = true → reachable s p = true → ∃ s', exec (.lookupIn f lid) s = .next s' ∧
      lookupOut s' f.val = (match tileOfLid s lid.toNat with
        | some j => j % 512 + j / 512 * 2 ^ 16 + 2 ^ 31
        | none => 0)) ∧
    (∀ r e', (s.ferry k).act = none → nextRequest (s.ferry k) = some (r, e') → (∀ x ∈ (s.rig k).lsuQ, r.slot ≤ x.slot) →
      matrixHalted s k = false → let d := r.addr.toNat; let w := (List.range 8).map fun i => s.dword k (d + 4 * i)
      let a := descriptorOf r w
      wins s k 2 ⟨bankOf d, 2, min (if r.berth then s.get (pgTk k 2) TP2.FRY_CTL_BERTH_QCAP else 7)
        (s.get (pgTk k 1) TP1.MQOS_CAP_M2)⟩ = true →
      ∃ s' b, exec (.descriptorStart f t) s = .next s' ∧ (s'.ferry k).act = some b ∧ b.req = r ∧
        s'.get (pgTk k 2) TP2.FRY_CUR_ADDR = d % 2 ^ TP2.FRY_CUR_ADDR.width ∧
        (d % 32 ≠ 0 ∨ 0x40000 ≤ d → b.code = some 3 ∧ s'.m.dmem = s.m.dmem) ∧
        (d % 32 = 0 → d < 0x40000 → dmemKind s k d r.berth false = none → s.m.inject = [] → s.m.dmemErr = [] →
          (descriptorReserved w = true → b.code = some 2 ∧ s'.m.dmem = s.m.dmem) ∧
          (descriptorReserved w = false → ∀ c, checkDescriptor s k a = some c → b.code = some c ∧ s'.m.dmem = s.m.dmem) ∧
          (∀ sd dd, descriptorReserved w = false → checkDescriptor s k a = none → a.dkind = 0 → a.row = 0 → r.berth = false →
            copying s k = false → waiting s k = [] →
            0 < a.len → a.src.toNat % 256 + a.len ≤ 256 → a.dst.toNat % 256 + a.len ≤ 256 →
            placeSpan s k a.src.toNat a.len false = .dmem sd → placeSpan s k a.dst.toNat a.len false = .dmem dd →
            bayPart s k sd ≠ .collecting → bayPart s k dd ≠ .visible →
            b.code = none ∧ b.pos = a.len ∧ (∀ j, j < a.len → s'.byte k (dd + j) = s.byte k (sd + j)) ∧
            ∀ key, key < dkey k dd ∨ dkey k dd + a.len ≤ key → lookup 0 s'.m.dmem key = lookup 0 s.m.dmem key))) ∧
    (∀ a, (s.ferry k).act = some a → a.moved = true → a.reading = none → a.writes = 0 →
      let code := a.code.getD 0
      ∃ s', exec (.descriptorComplete f t) s = .next s' ∧ (s'.ferry k).act = none ∧
        s'.get (pgTk k 2) TP2.FRY_DONE_COUNT = (s.get (pgTk k 2) TP2.FRY_DONE_COUNT + 1) % 2 ^ TP2.FRY_DONE_COUNT.width ∧
        s'.get (pgTk k 2) TP2.FRY_STATUS_CODE = code % 2 ^ TP2.FRY_STATUS_CODE.width ∧
        (s'.ferry k).chain = (match a.next with
          | some n => if code = 0 ∧ (s.ferry k).closed = false then some { a.req with addr := BitVec.ofNat 32 n } else none
          | none => none) ∧
        (a.event = true → s'.on (p0 k) TP0.EVENTS_FERRY = true) ∧
        (code ≠ 0 → (s'.word (pgTk k 2 + 0x00C)).getLsbD 16 = true))

/-! ### The Hawser link layer (R626 to R678) -/

/-- At an existing end of an awake wafer whose link is UP, once both ends have sent what they may. A DATA packet whose TYPE copies both fail
or disagree, or whose LEN and VC copies do, breaks the link for FRAMING, and one of another TYPE for PROTOCOL; bytes on RETIRING lanes
count as bad. A DATA packet with the expected SEQ, good parity and room advances EXP and leaves NAK_SENT; a parity error, another SEQ or no room
sets NAK_SENT with EXP as it was; an older SEQ gets an ACK; no payload or more than 32 units is answered NAK MALFORMED and breaks the
link. ACK and NAK release the packets they name, and a NAK cuts off the replay in progress and begins another, or they break the link
for PROTOCOL; LANE of the next generation sheds and adds; FLOW sets XOFF of both channels. The ACK timer counts an expiry, past REPLAY_LIMIT it
breaks the link; ACK_DUE at the first item boundary 128 cycles after the first delivery, and FLOW_REFRESH, transmit their command; an XOFF held
too long breaks for CREDIT; more than four bad lanes for BURST, one bad lane is retired and reported. A broken link is in QUIET with
its reason, its replay buffers empty, and its escalation raised. -/
def Obligations.HawserLinkTraffic : Prop :=
  ∀ (s : State) (h : HostId) (e : EndId), let P := pgEnd h.val e.val; let r := reportEnd h.val e.val
    let pt := partnerEnd h.val e.val; let y := s.haw h.val e.val
    let s1 := settleEnd h.val e.val (settleEnd pt.1 pt.2 s); let x := s1.haw h.val e.val
    let broken := fun (reason : Nat) (o : Out) => ∃ s', o = .next s' ∧ linkState s' h.val e.val = 7 ∧
      s'.get P HAWS.LAST_BREAK_REASON = reason ∧ (s'.haw h.val e.val).v0.held = [] ∧ (s'.haw h.val e.val).v1.held = [] ∧
      ∃ n ps, s'.m.x.escs.getLast? = some (.linkBroken (fin 56 r.1) (fin 96 r.2) reason n ps)
    awake s = true → endExists h.val e.val = true →
    (2 ≤ linkState s h.val e.val → linkState s h.val e.val ≤ 6 → broken 8 (exec (.linkBreak h e) s)) ∧
    (linkState s h.val e.val = 6 →
      (∀ (hd : BitVec 64) (parity : Bool) (badType badLen : BitVec 2) (taken : Bool),
        let o := exec (.dataPacket h e hd parity badType badLen taken) s
        let bad' := fun i => bitAt (badBytes badType badLen) i || retiringByte s h.val e.val i
        let type := copyOf (bits hd.toNat 0 8) (bits hd.toNat 56 8) (bad' 0) (bad' 7)
        let lv := headerLenVc hd.toNat (bad' 1) (bad' 6)
        (type = none → broken 4 o) ∧
        (∀ n, type = some n → n ≠ 0x96 → n ≠ 0x69 → n ≠ 0 → broken 5 o) ∧
        (∀ n, type = some n → n = 0x69 ∨ n = 0 → ∃ s', o = .next s' ∧ s'.live = s1.live) ∧
        (type = some 0x96 → lv = none → broken 4 o) ∧
        (∀ len v, type = some 0x96 → lv = some (len, v) → let q := bits hd.toNat 24 12; let ex := s.get P (expField v)
          let room := bufUsed s h.val e.val v + 16 * (len + 1) ≤ 16384
          let wrong := parity = true ∨ ∃ i, i < 8 + 16 * len ∧ (if i < 8 then bad' i else retiringByte s h.val e.val i) = true
          (len = 0 ∨ 32 < len → broken 1 o ∧ ∃ s', o = .next s' ∧
            (⟨2, BitVec.ofNat 32 (ex + 5 * 4096 + v * 2 ^ 24)⟩ : HCmd) ∈ (s'.haw h.val e.val).out) ∧
          (1 ≤ len → len ≤ 32 →
            (¬ wrong → q = ex → room → ∃ s', o = .next s' ∧ s'.get P (expField v) = (ex + 1) % 4096 ∧
              bitAt (s'.get P HAWS.FLOW_NAK_SENT) v = false) ∧
            (wrong ∨ (q = ex ∧ ¬ room) ∨ (q ≠ ex ∧ 48 < (ex + 4096 - q) % 4096) → ∃ s', o = .next s' ∧
              s'.get P (expField v) = ex ∧ bitAt (s'.get P HAWS.FLOW_NAK_SENT) v = true) ∧
            (¬ wrong → q ≠ ex → (ex + 4096 - q) % 4096 ≤ 48 → ∃ s', o = .next s' ∧ s'.live = s1.live ∧
              (⟨1, BitVec.ofNat 32 ((ex + 4095) % 4096 + v * 2 ^ 24)⟩ : HCmd) ∈ (s'.haw h.val e.val).out)))) ∧
      (∀ w : Word, let v := bits w.toNat 24 1
        (
          let n := (bits w.toNat 0 12 + 1 + 4096 - oldest s1 h.val e.val v) % 4096
          (n ≤ (x.vc v).held.length → x.v0.wait = [] → x.v1.wait = [] → ∃ s', exec (.hawserAck h e w) s = .next s' ∧
            linkState s' h.val e.val = 6 ∧ ((s'.haw h.val e.val).vc v).held = (x.vc v).held.drop n) ∧
          ((x.vc v).held.length < n → broken 5 (exec (.hawserAck h e w) s))) ∧
        (∀ sent : Nat,
          let n := (bits w.toNat 0 12 + 4096 - oldest s h.val e.val v) % 4096; let reason := bits w.toNat 12 4
          (1 ≤ reason → reason ≤ 3 → bits w.toNat 23 1 = 0 → n ≤ (y.vc v).held.length → y.v0.wait = [] → y.v1.wait = [] →
            ∃ s', exec (.nak h e w sent) s = .next s' ∧ linkState s' h.val e.val = 6 ∧
              ((s'.haw h.val e.val).vc v).held = (y.vc v).held.drop n ∧
              ((s'.haw h.val e.val).vc v).replay = ((y.vc v).held.drop n).head?.map Prod.fst ∧
              s'.get P HAWS.CNT_REPLAYED_COUNT = min (s.get P HAWS.CNT_REPLAYED_COUNT +
                if peerXoff s h.val e.val v = true then 0 else min sent (y.vc v).left) (2 ^ 32 - 1)) ∧
          (reason = 5 → broken 1 (exec (.nak h e w sent) s)) ∧
          (reason = 0 ∨ 5 < reason → broken 5 (exec (.nak h e w sent) s)) ∧
          (reason ≠ 5 → (y.vc v).held.length < n → broken 5 (exec (.nak h e w sent) s))) ∧
        (
          let g := (s.get P HAWS.LINK_GEN_RX + 1) % 16; let shed := bits w.toNat 0 7; let add := bits w.toNat 8 7
          (bits w.toNat 16 4 ≠ g → broken 5 (exec (.lane h e w) s)) ∧
          (bits w.toNat 16 4 = g → bits w.toNat 7 1 = 1 → bits w.toNat 15 1 = 1 → laneState s h.val e.val shed = 1 →
            laneState s h.val e.val add = 2 → 8 ≤ lanesIn s h.val e.val (fun v => v == 1 || v == 3) →
            ∃ s', exec (.lane h e w) s = .next s' ∧
              linkState s' h.val e.val = 6 ∧ laneState s' h.val e.val shed = 0 ∧ laneState s' h.val e.val add = 1 ∧
              s'.get P HAWS.LINK_GEN_RX = g)) ∧
        (∀ sent0 sent1 : Nat, ∃ s', exec (.flow h e w sent0 sent1) s = .next s' ∧ linkState s' h.val e.val = 6 ∧
          peerXoff s' h.val e.val 0 = w.getLsbD 0 ∧ peerXoff s' h.val e.val 1 = w.getLsbD 1) ∧
        broken 5 (exec (.trainMask h e w) s) ∧ broken 5 (exec (.trainReady h e w false) s)) ∧
      (∀ framing : Bool, broken (if framing then 4 else 5) (exec (.unknownItemType h e framing) s)) ∧
      (∀ v : Fin 2, let c := x.vc v.val
        (∀ t, c.timer = some t → let w := max s.m.wtime (t + s.get P HAWS.ACK_TIMEOUT_CYCLES)
          (c.expiries + 1 ≤ s.get P HAWS.REPLAY_LIMIT_COUNT → ∃ s', exec (.ackTimerExpiry h e v) s = .next s' ∧ s'.m.wtime = w ∧
            ((s'.haw h.val e.val).vc v.val).expiries = c.expiries + 1 ∧ ((s'.haw h.val e.val).vc v.val).timer = some w ∧
            ((s'.haw h.val e.val).vc v.val).held = c.held ∧
            ((s'.haw h.val e.val).vc v.val).replay = c.held.head?.map Prod.fst) ∧
          (s.get P HAWS.REPLAY_LIMIT_COUNT < c.expiries + 1 → broken 3 (exec (.ackTimerExpiry h e v) s))) ∧
        (∀ c0, c.freshFrom = some c0 → ∃ s', exec (.ackDue h e v) s = .next s' ∧ ((s'.haw h.val e.val).vc v.val).fresh = 0 ∧
          s'.m.wtime = max s.m.wtime (wordTime (c0 + 128)) ∧
          (⟨1, BitVec.ofNat 32 ((s.get P (expField v.val) + 4095) % 4096 + v.val * 2 ^ 24)⟩ : HCmd) ∈ (s'.haw h.val e.val).out) ∧
        (∀ t, c.xoffFrom = some t → broken 2 (exec (.creditTimeout h e v) s))) ∧
      (∃ s', exec (.flowRefresh h e) s = .next s' ∧ linkState s' h.val e.val = 6 ∧
        (⟨4, BitVec.ofNat 32 (s'.get P HAWS.FLOW_OWN_XOFF)⟩ : HCmd) ∈ (s'.haw h.val e.val).out) ∧
      (∀ (lanes : List Nat) (inside : Option (Fin 2)),
        4 < ((List.range (laneCount h.val e.val)).filter fun n => lanes.contains n &&
          (laneState s h.val e.val n == 1 || laneState s h.val e.val n == 2)).length →
        broken 6 (exec (.laneParityError h e lanes inside) s)) ∧
      (∀ n (inside : Option (Fin 2)), n < laneCount h.val e.val →
        laneState s h.val e.val n = 1 ∨ laneState s h.val e.val n = 2 →
        ∃ s', exec (.laneParityError h e [n] inside) s = .next s' ∧ bitAt (s'.haw h.val e.val).gone n = true ∧
          laneState s' h.val e.val n = (if laneState s h.val e.val n = 1 then 3 else 0) ∧
          (.laneRetired (fin 56 r.1) (fin 96 r.2) n : Escalation) ∈ s'.m.x.escs))

/-- At an existing end of an awake wafer, once its partner has sent what it may. LANE_JUDGED_GOOD in PROBE or EXCHANGE marks a lane that is not out. PROBE_WINDOW_END takes PROBE to
EXCHANGE 256 cycles after the first good lane, its masks transmitted. TRAIN MASK in EXCHANGE adds the segment; with every segment received, at
least 8 usable lanes lead to READY_SENT and fewer fail the attempt. TRAIN READY in READY_SENT leads to UP_WAIT when it is equal, else fails the
attempt; the link format in UP_WAIT, no active lane having left service since, leads to UP with sequence numbers 0; any in PROBE of the training format to EXCHANGE.
UP_WAIT_READY_INTERVAL transmits READY. QUIET_END leads to PROBE. The attempt's timeout, 1,200,000 cycles on, fails it and fences a field's channel. A
failed attempt is in PROBE and counted. -/
def Obligations.HawserTraining : Prop :=
  ∀ (s : State) (h : HostId) (e : EndId), let P := pgEnd h.val e.val; let x := s.haw h.val e.val; let st := linkState s h.val e.val
    let pt := partnerEnd h.val e.val; let s1 := settleEnd pt.1 pt.2 s
    let failed := fun (o : Out) => ∃ s', o = .next s' ∧ linkState s' h.val e.val = 2 ∧ (s'.haw h.val e.val).firstGood = none ∧
      s'.get P HAWS.CNT_LINK_ATTEMPTS = min (s.get P HAWS.CNT_LINK_ATTEMPTS + 1) (2 ^ 16 - 1)
    awake s = true → endExists h.val e.val = true →
    (∀ n, st = 2 ∨ st = 3 → n < laneCount h.val e.val → bitAt x.gone n = false →
      ∃ s', exec (.laneJudgedGood h e n) s = .next s' ∧ s'.live = s1.live ∧ bitAt (s'.haw h.val e.val).good n = true ∧
        (s'.haw h.val e.val).firstGood = some (x.firstGood.getD s.m.wtime)) ∧
    (∀ t, st = 2 → x.firstGood = some t → ∃ s', exec (.probeWindowEnd h e) s = .next s' ∧ linkState s' h.val e.val = 3 ∧
      s'.m.wtime = max s.m.wtime (t + 256) ∧
      ∀ i, i < (if isStay h.val e.val then 4 else 2) →
        (⟨5, BitVec.ofNat 32 (maskW (x.good &&& (2 ^ 80 - 1 - x.gone % 2 ^ 80)) i)⟩ : HCmd) ∈ (s'.haw h.val e.val).out) ∧
    (∀ w : Word, st = 3 → let seg := bits w.toNat 2 2; let all := if isStay h.val e.val then 15 else 3
      let y := { x with mask := x.mask ||| bits w.toNat 4 24 * 2 ^ (24 * seg), segs := putBit x.segs seg true }
      (y.segs &&& all ≠ all → ∃ s', exec (.trainMask h e w) s = .next s' ∧ linkState s' h.val e.val = 3 ∧
        (s'.haw h.val e.val).mask = y.mask ∧ (s'.haw h.val e.val).segs = y.segs) ∧
      (y.segs &&& all = all → 8 ≤ (lanesOf y.usableSet).length → ∃ s', exec (.trainMask h e w) s = .next s' ∧
        linkState s' h.val e.val = 4 ∧ (s'.haw h.val e.val).usable = y.usableSet ∧
        (s'.haw h.val e.val).out.getLast? = some ⟨5, BitVec.ofNat 32 (readyW y.usableSet)⟩) ∧
      (y.segs &&& all = all → (lanesOf y.usableSet).length < 8 → failed (exec (.trainMask h e w) s))) ∧
    (∀ (w : Word) (link : Bool),
      (st = 4 → w.toNat = readyW x.usable → ∃ s', exec (.trainReady h e w link) s = .next s' ∧ linkState s' h.val e.val = 5) ∧
      (st = 4 → w.toNat ≠ readyW x.usable → failed (exec (.trainReady h e w link) s)) ∧
      (st = 5 → link = true → (∀ n, n < laneCount h.val e.val → bitAt x.gone n = false ∨ bitAt x.txActive n = false) →
        ∃ s', exec (.trainReady h e w link) s = .next s' ∧ linkState s' h.val e.val = 6 ∧
        ∀ v, v < 2 → s'.get P (nextField v) = 0 ∧ s'.get P (expField v) = 0 ∧ peerXoff s' h.val e.val v = false) ∧
      (st = 2 → link = false → ∃ s', exec (.trainReady h e w link) s = .next s' ∧ linkState s' h.val e.val = 3)) ∧
    (st = 5 → ∃ s', exec (.upWaitReadyInterval h e) s = .next s' ∧ s'.live = s1.live ∧
      (s'.haw h.val e.val).out = x.out ++ [⟨5, BitVec.ofNat 32 (readyW x.usable)⟩]) ∧
    (st = 7 → ∃ s', exec (.quietEnd h e) s = .next s' ∧ linkState s' h.val e.val = 2 ∧
      s'.m.wtime = max s.m.wtime (x.since + 12000)) ∧
    (2 ≤ st → st ≤ 5 → failed (exec (.trainingAttemptTimeout h e) s) ∧
      ∃ s', exec (.trainingAttemptTimeout h e) s = .next s' ∧ s'.m.wtime = max s.m.wtime (x.since + 1200000) ∧
        (h.val < 56 → e.val < 92 → chanFenced s' h.val e.val = true))

/-! ### The landings (R679 to R716) -/

/-- At a ready net landing of an awake wafer. NET_PORT_UP sets the port's bits, NET_PORT_DOWN clears them, counts LINK_DOWN and discards the
port's waiting frames. The FEC codewords that come with a frame are counted. A frame with a bad FCS, length or FEC counts as bad; an accepted one without a flow is counted, one of a barred berth and one
with no room dropped and counted, any other held with its crossing, flow, port and number (no half being released yet). PAUSE sets the quanta that hold the
port; their expiry sends its frames. BAY_RELEASE releases the next crossing: its held frames leave the buffer, every bay's half
starts empty. An EGRESS packet that completes a frame is refused, dropped for a full buffer, or accepted, with ACK or ERROR; a store
landing refuses it. EGRESS_TIMEOUT discards the port's frames. -/
def Obligations.NetLandingCommands : Prop :=
  ∀ (s : State),
    (∀ (k : NetId) (p : Fin 2), let n := s.netSt k.val; let L := pgLanding k.val 0; let up := pstat s k.val p.val 0
      let cnt := fun (t : State) (i : Nat) => t.get L (pcnt p.val i)
      let mine := n.sending.filter fun g => g.port == p.val
      awake s = true → landingReady s k.val = true →
      (∀ pause : Bool, up = false → ∃ s', exec (.netPortUp k p pause) s = .next s' ∧ pstat s' k.val p.val 0 = true ∧
        pstat s' k.val p.val 1 = s.on L NETL.NCTL_AN_EN ∧ pstat s' k.val p.val 2 = true ∧ pstat s' k.val p.val 4 = pause) ∧
      (up = true → ∃ s', exec (.netPortDown k p) s = .next s' ∧ (∀ i, i < 5 → pstat s' k.val p.val i = false) ∧
        cnt s' 8 = min (cnt s 8 + 1) (2 ^ 32 - 1) ∧ (s'.netSt k.val).sending = n.sending.filter fun g => g.port != p.val) ∧
      (∀ (bs : List Byte) (corr uncorr : Nat), up = true → let o := exec (.netFrameRx k p bs corr uncorr) s
        (∃ s', o = .next s' ∧ cnt s' 6 = min (cnt s 6 + corr) (2 ^ 32 - 1) ∧ cnt s' 7 = min (cnt s 7 + uncorr) (2 ^ 32 - 1)) ∧
        (uncorr ≠ 0 ∨ frameGood bs = false → ∃ s', o = .next s' ∧ cnt s' 1 = min (cnt s 1 + 1) (2 ^ 32 - 1) ∧
          s'.netSt k.val = n) ∧
        (uncorr = 0 → frameGood bs = true → ¬ (byteAt bs 12 = 0x88 ∧ byteAt bs 13 = 0x08) →
          match flowFor s k.val p.val (vidOf bs) (beNat (bs.take 6)) with
          | none => ∃ s', o = .next s' ∧ s'.netSt k.val = n ∧ cnt s' 0 = min (cnt s 0 + 1) (2 ^ 32 - 1) ∧
              cnt s' 2 = min (cnt s 2 + 1) (2 ^ 32 - 1)
          | some j => let body := bs.take (bs.length - 4); let m := frameCrossing s
            let drop := fun i => ∃ s', o = .next s' ∧ s'.netSt k.val = n ∧
              s'.get L (NETL.LCNT_COUNT.at i) = min (s.get L (NETL.LCNT_COUNT.at i) + 1) (2 ^ 32 - 1)
            (flowBarred s k.val j = true → drop 2) ∧
            (flowBarred s k.val j = false →
              (4194304 < holdBytes n + body.length → drop 0) ∧
              (holdBytes n + body.length ≤ 4194304 → n.released = none → ∃ s', o = .next s' ∧
                (s'.netSt k.val).hold = n.hold ++ [⟨m, j, p.val, lookup 0 n.seqs m, body⟩] ∧
                lookup 0 (s'.netSt k.val).seqs m = lookup 0 n.seqs m + 1)))) ∧
      (∀ q : BitVec 16, up = true → s.on L NETL.NCTL_PAUSE_RX_EN = true → ∃ s', exec (.pauseFrame k p 1 q) s = .next s' ∧
        lookup 0 (s'.netSt k.val).quanta p.val = q.toNat ∧ pstat s' k.val p.val 3 = (q != 0) ∧
        cnt s' 3 = min (cnt s 3 + 1) (2 ^ 32 - 1)) ∧
      (up = true → lookup 0 n.quanta p.val ≠ 0 → ∃ s', exec (.pauseQuantaExpiry k p) s = .next s' ∧
        lookup 0 (s'.netSt k.val).quanta p.val = 0 ∧ pstat s' k.val p.val 3 = false ∧
        (s'.netSt k.val).line = n.line ++ mine.map (fun g => (p.val, g.bytes)) ∧
        (s'.netSt k.val).sending = n.sending.filter fun g => g.port != p.val) ∧
      (∀ m, nextRelease s k.val = some m → ∃ s', exec (.bayRelease k) s = .next s' ∧ (s'.netSt k.val).released = some m ∧
        (s'.netSt k.val).hold = n.hold.filter (fun f => !(f.crossing == m || noPlus f.crossing 1 == m)) ∧
        (n.hold = [] → ∀ j ∈ validBays s k.val, bayAt s' k.val j (m % 2) = ⟨0, 0, 1⟩)) ∧
      (nextRelease s k.val = none → exec (.bayRelease k) s = .next s) ∧
      (∀ w, n.since = some w → mine ≠ [] → ∃ s', exec (.egressTimeout k p) s = .next s' ∧
        (s'.netSt k.val).sending = n.sending.filter (fun g => g.port != p.val) ∧
        s'.m.wtime = max s.m.wtime (w + s.get L NETL.NCTL_EGRESS_TIMEOUT * 1200000) ∧
        cnt s' 5 = min (cnt s 5 + mine.length) (2 ^ 32 - 1))) ∧
    (∀ (i : Nat) (p : Pkt), arrived 6 i s = some p → p.dstField = 63 → let k := p.dstTile; let len := p.data.toNat % 65536
      let n := s.netSt k; let L := pgLanding k 0
      let lost := fun c => ∃ s1, exec (.egress i) s = .next (answer p 11 0 [] s1) ∧ (s1.netSt k).egress = n.egress ∧
        s1.get L (NETL.LCNT_COUNT.at c) = min (s.get L (NETL.LCNT_COUNT.at c) + 1) (2 ^ 32 - 1)
      (8 ≤ k → ∃ s1, exec (.egress i) s = .next (answer p 11 0 [] s1) ∧ s1.m.nets = s.m.nets) ∧
      (k < 8 → p.data.toNat / 65536 = 0 → len ≤ p.flits.length →
        match judgeEgress s k p.world ⟨tileKey p.srcField p.srcTile, p.addr.toNat, len, p.flits⟩ with
        | .refused => lost 4
        | .full => lost 5
        | .accepted f => ∃ s1, exec (.egress i) s = .next (answer p 9 0 [] s1) ∧ (s1.netSt k).egress = n.egress ++ [f]))

/-- XCTL with GO of a free slot takes the slot's fields: while CSEQ is neither stopped nor open it waits, else its
first check fails with RANGE or PORT_DOWN, or it runs; a busy slot takes no second transfer. A drive's completion moves its bytes, or gives
NVME_ERROR; with nothing open a transfer ends with its result and its bytes; past XFER_TIMEOUT it ends TIMEOUT and its port is reset. PE_PERST_N
rises; a link, then a controller with 512- or 4,096-byte blocks, come up; a device not ready in time has its port
reset; a link lost clears the port, counts LINK_DOWN and ends its transfers; messages, requests and AER errors are counted. -/
def Obligations.StoreLandingCommands : Prop :=
  ∀ (s : State) (k : StoreId), let K := 8 + k.val; let L := pgLanding K 0
    let F := fun (p i : Nat) => (if p = 0 then STRL.SCNT0 else if p = 1 then STRL.SCNT1 else if p = 2 then STRL.SCNT2
      else STRL.SCNT3).at i
    let counted := fun (t : State) (p i : Nat) => t.get L (F p i) = min (s.get L (F p i) + 1) (2 ^ 32 - 1)
    let ended := fun (t : State) (i res : Nat) => xferOf t K i = none ∧ slotGet t K i STRLX.XSTAT_STATE = 3 ∧
      slotGet t K i STRLX.XSTAT_RESULT = res
    (∀ (i : Fin 16) (v : Word), reachable s (pgLanding K 1) = true → v.getLsbD 0 = true →
      (xferOf s K i.val = none →
        let x : Xfer := { slot := i.val, port := bits v.toNat 8 2, toDrive := v.getLsbD 4, imem := v.getLsbD 5
                          base := slotGet s K i.val STRLX.TILES_BASE, count := slotGet s K i.val STRLX.TILES_COUNT
                          addr := slotGet s K i.val STRLX.TADDR_ADDR, blocks := slotGet s K i.val STRLX.BLOCKS_COUNT
                          lba := slotGet s K i.val STRLX.LBA_LO_LBA + slotGet s K i.val STRLX.LBA_HI_LBA * 2 ^ 32
                          reserved := v &&& 0xFFFFFCCE != 0, start := none, inCrossing := false, len := 0, asked := false
                          issued := 0, moved := 0, open' := 0, staged := [], skipped := [], result := none }
        (1 < cseqState s → ∃ s', exec (.xctlGo k i v) s = .next s' ∧ slotGet s' K i.val STRLX.XSTAT_STATE = 1 ∧
          xferOf s' K i.val = some x) ∧
        (cseqState s ≤ 1 → (∀ res, firstResult s K x = some res → ∃ s', exec (.xctlGo k i v) s = .next s' ∧ ended s' i.val res) ∧
          (firstResult s K x = none → ∃ s', exec (.xctlGo k i v) s = .next s' ∧ slotGet s' K i.val STRLX.XSTAT_STATE = 2 ∧
            (xferOf s' K i.val).bind Xfer.start = some s.m.wtime))) ∧
      (xferOf s K i.val ≠ none → ∃ s', exec (.xctlGo k i v) s = .next s' ∧ s'.m.stores = s.m.stores ∧
        slotGet s' K i.val STRLX.XSTAT_STATE = slotGet s K i.val STRLX.XSTAT_STATE)) ∧
    (awake s = true → landingReady s K = true →
      (∀ (i : Fin 16) (x : Xfer), xferOf s K i.val = some x → x.start ≠ none →
        (∀ (status : Nat) (data : List Byte) (c : NvmeCmd), x.result = none → nextCmd s K i.val x = some c → x.port < 4 →
          let o := exec (.nvmeCompletion k i status data) s; let n := c.bytes (portStat s K x.port STRL.PORT_STAT_LBADS)
          (status ≠ 0 → ∃ s', o = .next s' ∧ counted s' x.port 1 ∧ (s'.nvme K x.port).io = (s.nvme K x.port).io.erase c ∧
            (xferOf s' K i.val).bind Xfer.result = some 3) ∧
          (status = 0 → c.write = true ∨ data.length = n → ∃ s', o = .next s' ∧ counted s' x.port 0 ∧
            (s'.nvme K x.port).io = (s.nvme K x.port).io.erase c ∧
            (xferOf s' K i.val).map Xfer.moved = some (x.moved + n))) ∧
        (x.open' = 0 → nextCmd s K i.val x = none → x.result ≠ none ∨ x.moved = x.len → ∃ s', exec (.storeTransferComplete k i) s = .next s' ∧
          ended s' i.val (x.result.getD 0 % 256) ∧ slotGet s' K i.val STRLX.XBYTES_BYTES = x.moved % 2 ^ 24) ∧
        (∀ w, x.start = some w → x.port < 4 → ∃ s', exec (.xferTimeout k i) s = .next s' ∧ ended s' i.val 4 ∧
          inReset s' K x.port = true ∧ portStat s' K x.port STRL.PORT_STAT_LINK = 0 ∧
          s'.m.wtime = max s.m.wtime (w + s.get L STRL.SCTL_XFER_TIMEOUT * 1200000))) ∧
      (∀ p : Fin 4, (∀ q, (s.storeSt K).perst.find? (fun q => q.1 == p.val) = some q → ∃ s', exec (.pePerstNRelease k p) s = .next s' ∧
          (∀ j ∈ perstPins s K p.val, inReset s' K j = false) ∧ s'.m.wtime = max s.m.wtime (q.2 + 120000000)) ∧
        (p.val < landingPorts s K →
          (∀ gen width, inReset s K p.val = false → storeLink s K p.val = false →
            gen ≤ s.get L STRL.SCTL_MAX_GEN → 1 ≤ width → width ≤ portLanes s K → ∃ s', exec (.storeLinkUp k p gen width) s = .next s' ∧
              storeLink s' K p.val = true ∧ portStat s' K p.val STRL.PORT_STAT_GEN = gen % 4 ∧
              portStat s' K p.val STRL.PORT_STAT_WIDTH = width % 32) ∧
          (∀ l, storeLink s K p.val = true → storeUp s K p.val = false → l = 9 ∨ l = 12 →
            ∃ s', exec (.storePortUp k p l) s = .next s' ∧ storeUp s' K p.val = true ∧
              portStat s' K p.val STRL.PORT_STAT_LBADS = l ∧ (s'.nvme K p.val).admin = bringUp) ∧
          (storeLink s K p.val = true → storeUp s K p.val = false → ∃ s', exec (.deviceReadyTimeout k p) s = .next s' ∧
            inReset s' K p.val = true ∧ storeLink s' K p.val = false ∧
            s'.m.wtime = max s.m.wtime ((s.nvme K p.val).upAt + 2400000000)) ∧
          (storeLink s K p.val = true → ∃ s', exec (.storeLinkDown k p) s = .next s' ∧ storeLink s' K p.val = false ∧
            storeUp s' K p.val = false ∧ counted s' p.val 3 ∧
            ∀ x ∈ (s'.storeSt K).xfers, x.port = p.val → x.start = none) ∧
          (storeLink s K p.val = true → (∃ s', exec (.inboundRequest k p .msix) s = .next s' ∧ counted s' p.val 4) ∧
            (∃ s', exec (.inboundRequest k p .other) s = .next s' ∧ counted s' p.val 2) ∧
            ∀ i : Fin 16, ((∃ x ∈ (s.storeSt K).xfers, x.slot = i.val ∧ x.port = p.val ∧ x.start ≠ none) →
                exec (.inboundRequest k p (.staging i)) s = .next s) ∧
              ((∀ x ∈ (s.storeSt K).xfers, x.slot = i.val → x.port = p.val → x.start = none) →
                ∃ s', exec (.inboundRequest k p (.staging i)) s = .next s' ∧ counted s' p.val 2)) ∧
          (∃ s', exec (.intDrop k p) s = .next s' ∧ counted s' p.val 7) ∧
          ∀ u : Bool, ∃ s', exec (.aerError k p u) s = .next s' ∧ counted s' p.val (if u then 6 else 5))))
end

