-- ==== Sys2Proof/Laws/Store.lean ====
section
/-! SUPPORT. The laws of the sparse maps and of the register store: a read after a write to the same place gives the value
written, a write leaves every other place alone, and every write keeps the canonical form. -/
namespace Sys2Proof.Machine

variable {α : Type}

/-! ### Sparse maps -/

theorem lookup_erase_same (d : α) (m : List (Nat × α)) (i : Nat) : lookup d (erase i m) i = d := by
  induction m with
  | nil => rfl
  | cons e r ih =>
    obtain ⟨k, v⟩ := e
    by_cases h : k = i
    · simpa [erase, h] using ih
    · simpa [erase, h, lookup] using ih

theorem lookup_erase_other (d : α) (m : List (Nat × α)) {i j : Nat} (hj : j ≠ i) :
    lookup d (erase i m) j = lookup d m j := by
  induction m with
  | nil => rfl
  | cons e r ih =>
    obtain ⟨k, v⟩ := e
    by_cases h : k = i
    · subst h
      simpa [erase, lookup, Ne.symm hj] using ih
    · by_cases hk : k = j
      · subst hk
        simp [erase, h, lookup]
      · simpa [erase, h, lookup, hk] using ih

theorem lookup_insert_same (d : α) (m : List (Nat × α)) (i : Nat) (x : α) : lookup d (insert i x m) i = x := by
  induction m with
  | nil => simp [insert, lookup]
  | cons e r ih =>
    obtain ⟨k, v⟩ := e
    unfold insert
    split
    · simp [lookup]
    · split
      · simp [lookup]
      · simp [lookup, *]

theorem lookup_insert_other (d : α) (m : List (Nat × α)) {i j : Nat} (x : α) (hj : j ≠ i) :
    lookup d (insert i x m) j = lookup d m j := by
  induction m with
  | nil => simp [insert, lookup, Ne.symm hj]
  | cons e r ih =>
    obtain ⟨k, v⟩ := e
    unfold insert
    split
    · next h => subst h; simp [lookup, Ne.symm hj]
    · split
      · simp [lookup, Ne.symm hj]
      · by_cases hk : k = j
        · simp [lookup, hk]
        · simpa [lookup, hk] using ih

/-- A read after a write to the same key. -/
@[simp] theorem lookup_put_same [DecidableEq α] (d : α) (m : List (Nat × α)) (i : Nat) (x : α) :
    lookup d (put d m i x) i = x := by
  unfold put
  split
  · next h => simp [lookup_erase_same, h]
  · exact lookup_insert_same d m i x

/-- A write leaves every other key alone, whatever the default it is read with. -/
theorem lookup_put_other [DecidableEq α] (d e : α) (m : List (Nat × α)) {i j : Nat} (x : α) (hj : j ≠ i) :
    lookup e (put d m i x) j = lookup e m j := by
  unfold put
  split
  · exact lookup_erase_other e m hj
  · exact lookup_insert_other e m x hj

/-! ### Canonical form -/

theorem risingFrom_mono {a b : Nat} {m : List (Nat × α)} (hab : a ≤ b) (h : risingFrom b m = true) :
    risingFrom a m = true := by
  cases m with
  | nil => rfl
  | cons e r =>
    simp only [risingFrom, Bool.and_eq_true, decide_eq_true_eq] at h ⊢
    exact ⟨le_trans hab h.1, h.2⟩

theorem risingFrom_filter {a : Nat} {m : List (Nat × α)} (p : Nat × α → Bool) (h : risingFrom a m = true) :
    risingFrom a (m.filter p) = true := by
  induction m generalizing a with
  | nil => rfl
  | cons e r ih =>
    simp only [risingFrom, Bool.and_eq_true, decide_eq_true_eq] at h
    rw [List.filter_cons]
    split
    · simp only [risingFrom, Bool.and_eq_true, decide_eq_true_eq]
      exact ⟨h.1, ih h.2⟩
    · exact ih (risingFrom_mono (le_trans h.1 (Nat.le_succ _)) h.2)

theorem risingFrom_insert {a i : Nat} {m : List (Nat × α)} (x : α) (hi : a ≤ i) (h : risingFrom a m = true) :
    risingFrom a (insert i x m) = true := by
  induction m generalizing a with
  | nil => simp [insert, risingFrom, hi]
  | cons e r ih =>
    obtain ⟨k, v⟩ := e
    simp only [risingFrom, Bool.and_eq_true, decide_eq_true_eq] at h
    unfold insert
    split
    · next hk => subst hk; simp [risingFrom, h.1, h.2]
    · split
      · next _ hlt => simp [risingFrom, hi, h.2, Nat.succ_le_of_lt hlt]
      · next hne hlt =>
        simp only [risingFrom, Bool.and_eq_true, decide_eq_true_eq]
        exact ⟨h.1, ih (by omega) h.2⟩

theorem mem_insert_value {i : Nat} {x : α} {m : List (Nat × α)} {e : Nat × α} (h : e ∈ insert i x m) :
    e = (i, x) ∨ e ∈ m := by
  induction m with
  | nil => simpa [insert] using h
  | cons a r ih =>
    obtain ⟨k, v⟩ := a
    unfold insert at h
    split at h
    · rcases List.mem_cons.1 h with h | h
      · exact .inl h
      · exact .inr (List.mem_cons_of_mem _ h)
    · split at h
      · rcases List.mem_cons.1 h with h | h
        · exact .inl h
        · exact .inr h
      · rcases List.mem_cons.1 h with h | h
        · exact .inr (h ▸ List.mem_cons_self)
        · rcases ih h with h | h
          · exact .inl h
          · exact .inr (List.mem_cons_of_mem _ h)

/-- Taking keys out keeps the canonical form. -/
theorem canonical_filter [DecidableEq α] {d : Nat → α} {m : List (Nat × α)} (p : Nat × α → Bool)
    (h : canonical d m = true) : canonical d (m.filter p) = true := by
  simp only [canonical, Bool.and_eq_true, List.all_eq_true] at h ⊢
  exact ⟨risingFrom_filter p h.1, fun e he => h.2 e (List.mem_filter.1 he).1⟩

/-- Keeping the keys of a property keeps the canonical form. -/
theorem canonical_keep [DecidableEq α] {d : Nat → α} {m : List (Nat × α)} (p : Nat → Bool)
    (h : canonical d m = true) : canonical d (keep p m) = true := canonical_filter _ h

/-- A write keeps the canonical form. -/
theorem canonical_put [DecidableEq α] {d : Nat → α} {m : List (Nat × α)} (i : Nat) (x : α)
    (h : canonical d m = true) : canonical d (put (d i) m i x) = true := by
  unfold put
  split
  · exact canonical_filter _ h
  · next hx =>
    simp only [canonical, Bool.and_eq_true, List.all_eq_true, decide_eq_true_eq] at h ⊢
    refine ⟨risingFrom_insert x (Nat.zero_le _) h.1, fun e he => ?_⟩
    rcases mem_insert_value he with rfl | he
    · exact hx
    · exact h.2 e he

/-! ### Bits of a word -/

/-- The field that `setBits` writes reads as the value cut to its width. -/
theorem getBits_setBits_same (x : Word) {lo w : Nat} (v : Nat) (h : lo + w ≤ 32) :
    getBits (setBits x lo w v) lo w = v % 2 ^ w := by
  have hv : v % 2 ^ w < 2 ^ w := Nat.mod_lt _ (Nat.two_pow_pos w)
  unfold getBits setBits maskBits
  apply Nat.eq_of_testBit_eq
  intro i
  rw [Nat.testBit_mod_two_pow, Nat.testBit_div_two_pow]
  by_cases hi : i < w
  · have h32 : i + lo < 32 := by omega
    have hb : ∀ y : Word, y.toNat.testBit (i + lo) = y.getLsbD (i + lo) := fun y => rfl
    simp only [hi, decide_true, Bool.true_and]
    rw [hb, BitVec.getLsbD_or, BitVec.getLsbD_and, BitVec.getLsbD_not, BitVec.getLsbD_ofNat, BitVec.getLsbD_ofNat]
    simp [h32, Nat.testBit_mul_two_pow, hi, Nat.testBit_two_pow_sub_one]
  · have : (v % 2 ^ w).testBit i = false :=
      Nat.testBit_lt_two_pow (lt_of_lt_of_le hv (Nat.pow_le_pow_right (by omega) (by omega)))
    simp [hi, this]

/-- A field whose bits lie apart from those that `setBits` writes reads as before. -/
theorem getBits_setBits_disjoint (x : Word) {lo w lo' w' : Nat} (v : Nat) (h : lo' + w' ≤ 32)
    (hd : lo + w ≤ lo' ∨ lo' + w' ≤ lo) : getBits (setBits x lo w v) lo' w' = getBits x lo' w' := by
  have hv : v % 2 ^ w < 2 ^ w := Nat.mod_lt _ (Nat.two_pow_pos w)
  unfold getBits setBits maskBits
  apply Nat.eq_of_testBit_eq
  intro i
  rw [Nat.testBit_mod_two_pow, Nat.testBit_div_two_pow, Nat.testBit_mod_two_pow, Nat.testBit_div_two_pow]
  by_cases hi : i < w'
  · have h32 : i + lo' < 32 := by omega
    have hb : ∀ y : Word, y.toNat.testBit (i + lo') = y.getLsbD (i + lo') := fun y => rfl
    simp only [hi, decide_true, Bool.true_and]
    rw [hb, hb, BitVec.getLsbD_or, BitVec.getLsbD_and, BitVec.getLsbD_not, BitVec.getLsbD_ofNat, BitVec.getLsbD_ofNat]
    rcases hd with hd | hd
    · have hge : i + lo' - lo ≥ w := by omega
      have hlow : (v % 2 ^ w).testBit (i + lo' - lo) = false :=
        Nat.testBit_lt_two_pow (lt_of_lt_of_le hv (Nat.pow_le_pow_right (by omega) hge))
      simp [h32, Nat.testBit_mul_two_pow, Nat.testBit_two_pow_sub_one, hlow, Nat.not_lt.2 hge]
    · have hlt : ¬ lo ≤ i + lo' := by omega
      simp [h32, Nat.testBit_mul_two_pow, hlt]
  · simp [hi]

/-! ### Register words -/

@[simp] theorem word_setWord_same (s : State) (a : Nat) (v : Word) : (s.setWord a v).word a = v := by
  simp [State.setWord, State.word]

theorem word_setWord_other (s : State) {a b : Nat} (v : Word) (h : b ≠ a) : (s.setWord a v).word b = s.word b := by
  simp only [State.setWord, State.word]
  exact lookup_put_other _ _ _ _ h

@[simp] theorem shadowWord_setShadow_same (s : State) (a : Nat) (v : Word) : (s.setShadow a v).shadowWord a = v := by
  simp [State.setShadow, State.shadowWord]

theorem shadowWord_setShadow_other (s : State) {a b : Nat} (v : Word) (h : b ≠ a) :
    (s.setShadow a v).shadowWord b = s.shadowWord b := by
  simp only [State.setShadow, State.shadowWord]
  exact lookup_put_other _ _ _ _ h

@[simp] theorem word_setShadow (s : State) (a b : Nat) (v : Word) : (s.setShadow a v).word b = s.word b := rfl
@[simp] theorem shadowWord_setWord (s : State) (a b : Nat) (v : Word) : (s.setWord a v).shadowWord b = s.shadowWord b := rfl

/-- A field reads back what was written to it, cut to its width. -/
theorem get_set_same (s : State) (p : Nat) (F : Fld) (v : Nat) (h : F.lo + F.width ≤ 32) :
    (s.set p F v).get p F = v % 2 ^ F.width := by
  simp only [State.set, State.get, word_setWord_same]
  exact getBits_setBits_same _ _ h

/-- A write of a field leaves every other word alone. -/
theorem word_set_other (s : State) {p b : Nat} {F : Fld} (v : Nat) (h : b ≠ p + F.off) :
    (s.set p F v).word b = s.word b := word_setWord_other s _ h

/-- A write of a field leaves a field of another word alone. -/
theorem get_set_other (s : State) {p q : Nat} {F G : Fld} (v : Nat) (h : q + G.off ≠ p + F.off) :
    (s.set p F v).get q G = s.get q G := by
  simp only [State.get]
  rw [word_set_other s v h]

/-- A write of a field leaves another field of its word alone. -/
theorem get_set_disjoint (s : State) {p q : Nat} {F G : Fld} (v : Nat) (h : q + G.off = p + F.off)
    (hG : G.lo + G.width ≤ 32) (hd : F.lo + F.width ≤ G.lo ∨ G.lo + G.width ≤ F.lo) :
    (s.set p F v).get q G = s.get q G := by
  simp only [State.get, State.set, h, word_setWord_same]
  exact getBits_setBits_disjoint _ _ hG hd

end Sys2Proof.Machine
end

