-- ==== Sys2Proof/Laws/State.lean ====
section
/-! SUPPORT. What each update of the state leaves alone: one lemma per field and update, true by unfolding, so that no later
proof unfolds a record update. -/
namespace Sys2Proof.Machine

variable (s : State) (p a k v w : Nat) (F L H : Fld) (x : Word) (b : Bool)

/-! ### s.setWord a x -/
@[simp] theorem setWord_shadow : (s.setWord a x).shadow = s.shadow := (rfl)
@[simp] theorem setWord_power : (s.setWord a x).power = s.power := (rfl)
@[simp] theorem setWord_port : (s.setWord a x).port = s.port := (rfl)
@[simp] theorem setWord_tap : (s.setWord a x).tap = s.tap := (rfl)
@[simp] theorem setWord_pins : (s.setWord a x).pins = s.pins := (rfl)
@[simp] theorem setWord_log : (s.setWord a x).log = s.log := (rfl)
@[simp] theorem setWord_map : (s.setWord a x).map = s.map := (rfl)
@[simp] theorem setWord_m : (s.setWord a x).m = s.m := (rfl)
@[simp] theorem setWord_pending : (s.setWord a x).pending = s.pending := (rfl)

/-! ### s.setShadow a x -/
@[simp] theorem setShadow_live : (s.setShadow a x).live = s.live := (rfl)
@[simp] theorem setShadow_power : (s.setShadow a x).power = s.power := (rfl)
@[simp] theorem setShadow_port : (s.setShadow a x).port = s.port := (rfl)
@[simp] theorem setShadow_tap : (s.setShadow a x).tap = s.tap := (rfl)
@[simp] theorem setShadow_pins : (s.setShadow a x).pins = s.pins := (rfl)
@[simp] theorem setShadow_log : (s.setShadow a x).log = s.log := (rfl)
@[simp] theorem setShadow_map : (s.setShadow a x).map = s.map := (rfl)
@[simp] theorem setShadow_m : (s.setShadow a x).m = s.m := (rfl)
@[simp] theorem setShadow_pending : (s.setShadow a x).pending = s.pending := (rfl)

/-! ### s.set p F v -/
@[simp] theorem set_shadow : (s.set p F v).shadow = s.shadow := (rfl)
@[simp] theorem set_power : (s.set p F v).power = s.power := (rfl)
@[simp] theorem set_port : (s.set p F v).port = s.port := (rfl)
@[simp] theorem set_tap : (s.set p F v).tap = s.tap := (rfl)
@[simp] theorem set_pins : (s.set p F v).pins = s.pins := (rfl)
@[simp] theorem set_log : (s.set p F v).log = s.log := (rfl)
@[simp] theorem set_map : (s.set p F v).map = s.map := (rfl)
@[simp] theorem set_m : (s.set p F v).m = s.m := (rfl)
@[simp] theorem set_pending : (s.set p F v).pending = s.pending := (rfl)

/-! ### s.set2 p L H v -/
@[simp] theorem set2_shadow : (s.set2 p L H v).shadow = s.shadow := (rfl)
@[simp] theorem set2_power : (s.set2 p L H v).power = s.power := (rfl)
@[simp] theorem set2_port : (s.set2 p L H v).port = s.port := (rfl)
@[simp] theorem set2_tap : (s.set2 p L H v).tap = s.tap := (rfl)
@[simp] theorem set2_pins : (s.set2 p L H v).pins = s.pins := (rfl)
@[simp] theorem set2_log : (s.set2 p L H v).log = s.log := (rfl)
@[simp] theorem set2_map : (s.set2 p L H v).map = s.map := (rfl)
@[simp] theorem set2_m : (s.set2 p L H v).m = s.m := (rfl)
@[simp] theorem set2_pending : (s.set2 p L H v).pending = s.pending := (rfl)

/-! ### s.bump p F -/
@[simp] theorem bump_shadow : (s.bump p F).shadow = s.shadow := (rfl)
@[simp] theorem bump_power : (s.bump p F).power = s.power := (rfl)
@[simp] theorem bump_port : (s.bump p F).port = s.port := (rfl)
@[simp] theorem bump_tap : (s.bump p F).tap = s.tap := (rfl)
@[simp] theorem bump_pins : (s.bump p F).pins = s.pins := (rfl)
@[simp] theorem bump_log : (s.bump p F).log = s.log := (rfl)
@[simp] theorem bump_map : (s.bump p F).map = s.map := (rfl)
@[simp] theorem bump_m : (s.bump p F).m = s.m := (rfl)
@[simp] theorem bump_pending : (s.bump p F).pending = s.pending := (rfl)

/-! ### s.bumpSat p F v -/
@[simp] theorem bumpSat_shadow : (s.bumpSat p F v).shadow = s.shadow := (rfl)
@[simp] theorem bumpSat_power : (s.bumpSat p F v).power = s.power := (rfl)
@[simp] theorem bumpSat_port : (s.bumpSat p F v).port = s.port := (rfl)
@[simp] theorem bumpSat_tap : (s.bumpSat p F v).tap = s.tap := (rfl)
@[simp] theorem bumpSat_pins : (s.bumpSat p F v).pins = s.pins := (rfl)
@[simp] theorem bumpSat_log : (s.bumpSat p F v).log = s.log := (rfl)
@[simp] theorem bumpSat_map : (s.bumpSat p F v).map = s.map := (rfl)
@[simp] theorem bumpSat_m : (s.bumpSat p F v).m = s.m := (rfl)
@[simp] theorem bumpSat_pending : (s.bumpSat p F v).pending = s.pending := (rfl)

/-! ### s.setBit p F v b -/
@[simp] theorem setBit_shadow : (s.setBit p F v b).shadow = s.shadow := (rfl)
@[simp] theorem setBit_power : (s.setBit p F v b).power = s.power := (rfl)
@[simp] theorem setBit_port : (s.setBit p F v b).port = s.port := (rfl)
@[simp] theorem setBit_tap : (s.setBit p F v b).tap = s.tap := (rfl)
@[simp] theorem setBit_pins : (s.setBit p F v b).pins = s.pins := (rfl)
@[simp] theorem setBit_log : (s.setBit p F v b).log = s.log := (rfl)
@[simp] theorem setBit_map : (s.setBit p F v b).map = s.map := (rfl)
@[simp] theorem setBit_m : (s.setBit p F v b).m = s.m := (rfl)
@[simp] theorem setBit_pending : (s.setBit p F v b).pending = s.pending := (rfl)

/-! ### s.atTime w -/
@[simp] theorem atTime_live : (s.atTime w).live = s.live := (rfl)
@[simp] theorem atTime_shadow : (s.atTime w).shadow = s.shadow := (rfl)
@[simp] theorem atTime_power : (s.atTime w).power = s.power := (rfl)
@[simp] theorem atTime_port : (s.atTime w).port = s.port := (rfl)
@[simp] theorem atTime_tap : (s.atTime w).tap = s.tap := (rfl)
@[simp] theorem atTime_pins : (s.atTime w).pins = s.pins := (rfl)
@[simp] theorem atTime_log : (s.atTime w).log = s.log := (rfl)
@[simp] theorem atTime_map : (s.atTime w).map = s.map := (rfl)
@[simp] theorem atTime_pending : (s.atTime w).pending = s.pending := (rfl)

@[simp] theorem atTime_wtime : (s.atTime w).m.wtime = w := (rfl)

section rig
variable (r : Rig) (g : Rig → Rig)

/-! ### s.setRig k r -/
@[simp] theorem setRig_live : (s.setRig k r).live = s.live := (rfl)
@[simp] theorem setRig_shadow : (s.setRig k r).shadow = s.shadow := (rfl)
@[simp] theorem setRig_power : (s.setRig k r).power = s.power := (rfl)
@[simp] theorem setRig_port : (s.setRig k r).port = s.port := (rfl)
@[simp] theorem setRig_tap : (s.setRig k r).tap = s.tap := (rfl)
@[simp] theorem setRig_pins : (s.setRig k r).pins = s.pins := (rfl)
@[simp] theorem setRig_log : (s.setRig k r).log = s.log := (rfl)
@[simp] theorem setRig_map : (s.setRig k r).map = s.map := (rfl)
@[simp] theorem setRig_pending : (s.setRig k r).pending = s.pending := (rfl)

/-! ### s.modRig k g -/
@[simp] theorem modRig_live : (s.modRig k g).live = s.live := (rfl)
@[simp] theorem modRig_shadow : (s.modRig k g).shadow = s.shadow := (rfl)
@[simp] theorem modRig_power : (s.modRig k g).power = s.power := (rfl)
@[simp] theorem modRig_port : (s.modRig k g).port = s.port := (rfl)
@[simp] theorem modRig_tap : (s.modRig k g).tap = s.tap := (rfl)
@[simp] theorem modRig_pins : (s.modRig k g).pins = s.pins := (rfl)
@[simp] theorem modRig_log : (s.modRig k g).log = s.log := (rfl)
@[simp] theorem modRig_map : (s.modRig k g).map = s.map := (rfl)
@[simp] theorem modRig_pending : (s.modRig k g).pending = s.pending := (rfl)

@[simp] theorem setRig_m_wtime : (s.setRig k r).m.wtime = s.m.wtime := (rfl)
@[simp] theorem setRig_m_bistStart : (s.setRig k r).m.bistStart = s.m.bistStart := (rfl)
@[simp] theorem setRig_m_portWindow : (s.setRig k r).m.portWindow = s.m.portWindow := (rfl)
@[simp] theorem setRig_m_fieldsDoneSeen : (s.setRig k r).m.fieldsDoneSeen = s.m.fieldsDoneSeen := (rfl)
@[simp] theorem setRig_m_tripHeld : (s.setRig k r).m.tripHeld = s.m.tripHeld := (rfl)
@[simp] theorem setRig_m_droopUntil : (s.setRig k r).m.droopUntil = s.m.droopUntil := (rfl)
@[simp] theorem setRig_m_retire : (s.setRig k r).m.retire = s.m.retire := (rfl)
@[simp] theorem setRig_m_hoist : (s.setRig k r).m.hoist = s.m.hoist := (rfl)
@[simp] theorem setRig_m_x : (s.setRig k r).m.x = s.m.x := (rfl)
@[simp] theorem setRig_m_dmem : (s.setRig k r).m.dmem = s.m.dmem := (rfl)
@[simp] theorem setRig_m_imem : (s.setRig k r).m.imem = s.m.imem := (rfl)
@[simp] theorem setRig_m_dmemErr : (s.setRig k r).m.dmemErr = s.m.dmemErr := (rfl)
@[simp] theorem setRig_m_imemErr : (s.setRig k r).m.imemErr = s.m.imemErr := (rfl)
@[simp] theorem setRig_m_inject : (s.setRig k r).m.inject = s.m.inject := (rfl)
@[simp] theorem setRig_m_fry : (s.setRig k r).m.fry = s.m.fry := (rfl)
@[simp] theorem setRig_m_patrol : (s.setRig k r).m.patrol = s.m.patrol := (rfl)
@[simp] theorem setRig_m_net : (s.setRig k r).m.net = s.m.net := (rfl)
@[simp] theorem setRig_m_haws : (s.setRig k r).m.haws = s.m.haws := (rfl)
@[simp] theorem setRig_m_nets : (s.setRig k r).m.nets = s.m.nets := (rfl)
@[simp] theorem setRig_m_stores : (s.setRig k r).m.stores = s.m.stores := (rfl)
@[simp] theorem setRig_m_credits : (s.setRig k r).m.credits = s.m.credits := (rfl)
@[simp] theorem setRig_m_granted : (s.setRig k r).m.granted = s.m.granted := (rfl)
@[simp] theorem setRig_m_reports : (s.setRig k r).m.reports = s.m.reports := (rfl)
@[simp] theorem setRig_m_releases : (s.setRig k r).m.releases = s.m.releases := (rfl)
@[simp] theorem setRig_m_landingTested : (s.setRig k r).m.landingTested = s.m.landingTested := (rfl)
@[simp] theorem setRig_m_unrecorded : (s.setRig k r).m.unrecorded = s.m.unrecorded := (rfl)
@[simp] theorem setRig_m_waits : (s.setRig k r).m.waits = s.m.waits := (rfl)
@[simp] theorem setRig_m_ifWaits : (s.setRig k r).m.ifWaits = s.m.ifWaits := (rfl)
@[simp] theorem modRig_m_wtime : (s.modRig k g).m.wtime = s.m.wtime := (rfl)
@[simp] theorem modRig_m_bistStart : (s.modRig k g).m.bistStart = s.m.bistStart := (rfl)
@[simp] theorem modRig_m_portWindow : (s.modRig k g).m.portWindow = s.m.portWindow := (rfl)
@[simp] theorem modRig_m_fieldsDoneSeen : (s.modRig k g).m.fieldsDoneSeen = s.m.fieldsDoneSeen := (rfl)
@[simp] theorem modRig_m_tripHeld : (s.modRig k g).m.tripHeld = s.m.tripHeld := (rfl)
@[simp] theorem modRig_m_droopUntil : (s.modRig k g).m.droopUntil = s.m.droopUntil := (rfl)
@[simp] theorem modRig_m_retire : (s.modRig k g).m.retire = s.m.retire := (rfl)
@[simp] theorem modRig_m_hoist : (s.modRig k g).m.hoist = s.m.hoist := (rfl)
@[simp] theorem modRig_m_x : (s.modRig k g).m.x = s.m.x := (rfl)
@[simp] theorem modRig_m_dmem : (s.modRig k g).m.dmem = s.m.dmem := (rfl)
@[simp] theorem modRig_m_imem : (s.modRig k g).m.imem = s.m.imem := (rfl)
@[simp] theorem modRig_m_dmemErr : (s.modRig k g).m.dmemErr = s.m.dmemErr := (rfl)
@[simp] theorem modRig_m_imemErr : (s.modRig k g).m.imemErr = s.m.imemErr := (rfl)
@[simp] theorem modRig_m_inject : (s.modRig k g).m.inject = s.m.inject := (rfl)
@[simp] theorem modRig_m_fry : (s.modRig k g).m.fry = s.m.fry := (rfl)
@[simp] theorem modRig_m_patrol : (s.modRig k g).m.patrol = s.m.patrol := (rfl)
@[simp] theorem modRig_m_net : (s.modRig k g).m.net = s.m.net := (rfl)
@[simp] theorem modRig_m_haws : (s.modRig k g).m.haws = s.m.haws := (rfl)
@[simp] theorem modRig_m_nets : (s.modRig k g).m.nets = s.m.nets := (rfl)
@[simp] theorem modRig_m_stores : (s.modRig k g).m.stores = s.m.stores := (rfl)
@[simp] theorem modRig_m_credits : (s.modRig k g).m.credits = s.m.credits := (rfl)
@[simp] theorem modRig_m_granted : (s.modRig k g).m.granted = s.m.granted := (rfl)
@[simp] theorem modRig_m_reports : (s.modRig k g).m.reports = s.m.reports := (rfl)
@[simp] theorem modRig_m_releases : (s.modRig k g).m.releases = s.m.releases := (rfl)
@[simp] theorem modRig_m_landingTested : (s.modRig k g).m.landingTested = s.m.landingTested := (rfl)
@[simp] theorem modRig_m_unrecorded : (s.modRig k g).m.unrecorded = s.m.unrecorded := (rfl)
@[simp] theorem modRig_m_waits : (s.modRig k g).m.waits = s.m.waits := (rfl)
@[simp] theorem modRig_m_ifWaits : (s.modRig k g).m.ifWaits = s.m.ifWaits := (rfl)

/-! ### The rig of a tile -/
@[simp] theorem rig_setRig_same : (s.setRig k r).rig k = r := by simp [State.setRig, State.rig]
theorem rig_setRig_other {j : Nat} (h : j ≠ k) : (s.setRig k r).rig j = s.rig j := by
  simp only [State.setRig, State.rig]
  exact lookup_put_other _ _ _ _ h
@[simp] theorem rig_modRig_same : (s.modRig k g).rig k = g (s.rig k) := by simp [State.modRig]
theorem rig_modRig_other {j : Nat} (h : j ≠ k) : (s.modRig k g).rig j = s.rig j := rig_setRig_other s k _ h
@[simp] theorem rig_setWord (j : Nat) : (s.setWord a x).rig j = s.rig j := (rfl)
@[simp] theorem rig_set (j : Nat) : (s.set p F v).rig j = s.rig j := (rfl)
@[simp] theorem rig_set2 (j : Nat) : (s.set2 p L H v).rig j = s.rig j := (rfl)
@[simp] theorem rig_bumpSat (j : Nat) : (s.bumpSat p F v).rig j = s.rig j := (rfl)
@[simp] theorem rig_atTime (j : Nat) : (s.atTime w).rig j = s.rig j := (rfl)
@[simp] theorem word_setRig : (s.setRig k r).word a = s.word a := (rfl)
@[simp] theorem word_modRig : (s.modRig k g).word a = s.word a := (rfl)
@[simp] theorem get_setRig : (s.setRig k r).get p F = s.get p F := (rfl)
@[simp] theorem get_modRig : (s.modRig k g).get p F = s.get p F := (rfl)
@[simp] theorem on_setRig : (s.setRig k r).on p F = s.on p F := (rfl)
@[simp] theorem on_modRig : (s.modRig k g).on p F = s.on p F := (rfl)
@[simp] theorem word_atTime : (s.atTime w).word a = s.word a := (rfl)
@[simp] theorem get_atTime : (s.atTime w).get p F = s.get p F := (rfl)
@[simp] theorem on_atTime : (s.atTime w).on p F = s.on p F := (rfl)

end rig

/-! ### A channel end -/
section haw
variable (h e h' e' : Nat) (y : HawEnd) (g : HawEnd → HawEnd)

@[simp] theorem setHaw_live : (s.setHaw h e y).live = s.live := (rfl)
@[simp] theorem modHaw_live : (s.modHaw h e g).live = s.live := (rfl)
@[simp] theorem word_setHaw : (s.setHaw h e y).word a = s.word a := (rfl)
@[simp] theorem word_modHaw : (s.modHaw h e g).word a = s.word a := (rfl)
@[simp] theorem get_setHaw : (s.setHaw h e y).get p F = s.get p F := (rfl)
@[simp] theorem get_modHaw : (s.modHaw h e g).get p F = s.get p F := (rfl)
@[simp] theorem haw_setWord : (s.setWord a x).haw h e = s.haw h e := (rfl)
@[simp] theorem haw_set : (s.set p F v).haw h e = s.haw h e := (rfl)
@[simp] theorem haw_bumpSat : (s.bumpSat p F v).haw h e = s.haw h e := (rfl)
@[simp] theorem haw_setHaw_same : (s.setHaw h e y).haw h e = y := by simp [State.setHaw, State.haw]
@[simp] theorem haw_modHaw_same : (s.modHaw h e g).haw h e = g (s.haw h e) := by simp [State.modHaw]
theorem haw_setHaw_other (hk : endKey h' e' ≠ endKey h e) : (s.setHaw h e y).haw h' e' = s.haw h' e' := by
  simp only [State.setHaw, State.haw]
  exact lookup_put_other _ _ _ _ hk

end haw

end Sys2Proof.Machine
end

