-- ==== Sys2Proof/Laws/Memory.lean ====
section
/-! SUPPORT. What the operations on memory do: the bytes they write read back, every other byte stays, a read leaves every byte
as it was, and every operation keeps the canonical form. -/
namespace Sys2Proof.Machine

/-! ### Errors and alerts touch registers alone -/

theorem alert_m (c : Nat) (s : State) : (alert c s).m = s.m := (rfl)

@[simp] theorem pageAlert_m (p : Nat) (s : State) : (pageAlert p s).m = s.m := by
  unfold pageAlert
  split <;> rfl

@[simp] theorem pageEvent_m (p : Nat) (s : State) : (pageEvent p s).m = s.m := by
  unfold pageEvent
  split
  · exact pageAlert_m p s
  · rfl

@[simp] theorem afterError_m (b : Bool) (p : Nat) (s : State) : (afterError b p s).m = s.m := by
  unfold afterError
  split
  · exact pageEvent_m p s
  · rfl

@[simp] theorem setError_m (p n : Nat) (s : State) : (setError p n s).m = s.m := by simp [setError]

@[simp] theorem alertError_m (p n : Nat) (s : State) : (alertError p n s).m = s.m := by
  unfold alertError
  dsimp only
  split <;> simp

/-! ### Bytes of DMEM -/

@[simp] theorem byte_setByte_same (s : State) (k a : Nat) (v : Byte) : (s.setByte k a v).byte k a = v := by
  simp [State.setByte, State.byte]

/-- A byte written leaves every other byte of every tile alone. -/
theorem dmem_setByte_other (s : State) {k a key : Nat} (v : Byte) (h : key ≠ dkey k a) :
    lookup 0 (s.setByte k a v).m.dmem key = lookup 0 s.m.dmem key := lookup_put_other _ _ _ _ h

@[simp] theorem setByte_live (s : State) (k a : Nat) (v : Byte) : (s.setByte k a v).live = s.live := (rfl)
@[simp] theorem setByte_imem (s : State) (k a : Nat) (v : Byte) : (s.setByte k a v).m.imem = s.m.imem := (rfl)
@[simp] theorem setByte_rig (s : State) (k a j : Nat) (v : Byte) : (s.setByte k a v).rig j = s.rig j := (rfl)
@[simp] theorem setWordErr_live (s : State) (k a v : Nat) : (s.setWordErr k a v).live = s.live := (rfl)
@[simp] theorem setWordErr_dmem (s : State) (k a v : Nat) : (s.setWordErr k a v).m.dmem = s.m.dmem := (rfl)
@[simp] theorem setWordErr_imem (s : State) (k a v : Nat) : (s.setWordErr k a v).m.imem = s.m.imem := (rfl)
@[simp] theorem setWordErr_rig (s : State) (k a v j : Nat) : (s.setWordErr k a v).rig j = s.rig j := (rfl)

/-- Bytes stored leave every key outside them alone. -/
theorem dmem_putBytes_other (k : Nat) (bs : List Byte) (a key : Nat) (s : State)
    (h : key < dkey k a ∨ dkey k a + bs.length ≤ key) :
    lookup 0 (putBytes k a bs s).m.dmem key = lookup 0 s.m.dmem key := by
  induction bs generalizing a s with
  | nil => rfl
  | cons b bs ih =>
    have hk : dkey k (a + 1) = dkey k a + 1 := by simp only [dkey]; omega
    simp only [List.length_cons] at h
    rw [putBytes, ih (a + 1) (s.setByte k a b) (by omega)]
    exact dmem_setByte_other s b (by omega)

/-- The bytes stored read back. -/
theorem byte_putBytes (k : Nat) (bs : List Byte) (a : Nat) (s : State) (j : Nat) (h : j < bs.length) :
    (putBytes k a bs s).byte k (a + j) = bs.getD j 0 := by
  induction bs generalizing a s j with
  | nil => simp at h
  | cons b bs ih =>
    cases j with
    | zero =>
      have := dmem_putBytes_other k bs (a + 1) (dkey k a) (s.setByte k a b) (.inl (by simp [dkey]))
      simp only [putBytes, State.byte, Nat.add_zero] at this ⊢
      rw [this]
      exact byte_setByte_same s k a b
    | succ j =>
      have := ih (a + 1) (s.setByte k a b) j (by simpa using h)
      rw [show a + (j + 1) = a + 1 + j by omega]
      simpa [putBytes] using this

theorem putBytes_imem (k : Nat) (bs : List Byte) (a : Nat) (s : State) : (putBytes k a bs s).m.imem = s.m.imem := by
  induction bs generalizing a s with
  | nil => rfl
  | cons b bs ih => simpa [putBytes] using ih (a + 1) (s.setByte k a b)

/-! ### A read leaves memory as it was -/

@[simp] theorem modX_dmem (s : State) (g : XingSt → XingSt) : (s.modX g).m.dmem = s.m.dmem := (rfl)
@[simp] theorem modX_imem (s : State) (g : XingSt → XingSt) : (s.modX g).m.imem = s.m.imem := (rfl)

theorem countCe_dmem (k a : Nat) (r : Bool) (s : State) :
    (countCe k a r s).m.dmem = s.m.dmem ∧ (countCe k a r s).m.imem = s.m.imem := by
  generalize hg : countCe k a r s = t
  unfold countCe at hg
  cases r <;> (simp only [] at hg; subst hg; simp)

theorem countUe_dmem (k a : Nat) (s : State) :
    (countUe k a s).m.dmem = s.m.dmem ∧ (countUe k a s).m.imem = s.m.imem := by
  generalize hg : countUe k a s = t
  unfold countUe at hg
  simp only [] at hg
  split at hg <;> (subst hg; simp)

theorem countInjUe_dmem (k a : Nat) (r : Bool) (s : State) :
    (countInjUe k a r s).m.dmem = s.m.dmem ∧ (countInjUe k a r s).m.imem = s.m.imem := by
  generalize hg : countInjUe k a r s = t
  unfold countInjUe at hg
  cases r <;> (simp only [] at hg; subst hg; simp)

theorem findReal_dmem (k a : Nat) (s : State) :
    (findReal k a s).m.dmem = s.m.dmem ∧ (findReal k a s).m.imem = s.m.imem := by
  have hc := countCe_dmem k a true s
  have hu := countUe_dmem k a s
  generalize hg : findReal k a s = t
  unfold findReal at hg
  split at hg
  · subst hg; exact ⟨Eq.refl _, Eq.refl _⟩
  · generalize countCe k a true s = u at hc hg
    simp only [] at hg
    split at hg
    · subst hg; simpa only [setWordErr_dmem, setWordErr_imem] using hc
    · subst hg; exact hc
  · rw [← hg]; exact hu

theorem readWord_dmem (k a : Nat) (s : State) :
    (readWord k a s).1.m.dmem = s.m.dmem ∧ (readWord k a s).1.m.imem = s.m.imem := by
  have hf := findReal_dmem k a s
  generalize hg : readWord k a s = t
  unfold readWord at hg
  generalize findReal k a s = u at hf hg
  simp only [] at hg
  split at hg
  · split at hg
    · subst hg; simpa only [countInjUe_dmem] using hf
    · split at hg
      · subst hg; simpa only [bumpSat_m] using hf
      · subst hg; simpa only [countCe_dmem] using hf
  · subst hg; exact hf

theorem readWords_dmem (k n a : Nat) (s : State) :
    (readWords k a n s).1.m.dmem = s.m.dmem ∧ (readWords k a n s).1.m.imem = s.m.imem := by
  induction n generalizing a s with
  | zero => exact ⟨rfl, rfl⟩
  | succ n ih =>
    have h := ih (a + 4) (readWord k a s).1
    have g := readWord_dmem k a s
    exact ⟨h.1.trans g.1, h.2.trans g.2⟩

/-- Reading bytes changes no byte and no bundle. -/
theorem readBytes_dmem (k a n : Nat) (s : State) :
    (readBytes k a n s).1.m.dmem = s.m.dmem ∧ (readBytes k a n s).1.m.imem = s.m.imem := readWords_dmem k _ _ s

/-! ### The canonical form is kept -/

theorem setByte_wf (s : State) (k a : Nat) (v : Byte) (h : Memory.wf s.m = true) : Memory.wf (s.setByte k a v).m = true := by
  simp only [Memory.wf, Bool.and_eq_true] at h ⊢
  exact ⟨canonical_put (d := fun _ => (0 : Byte)) _ _ h.1, h.2⟩

theorem putBytes_wf (k : Nat) (bs : List Byte) (a : Nat) (s : State) (h : Memory.wf s.m = true) :
    Memory.wf (putBytes k a bs s).m = true := by
  induction bs generalizing a s with
  | nil => exact h
  | cons b bs ih => exact ih (a + 1) (s.setByte k a b) (setByte_wf s k a b h)

theorem writeBundle_wf (k a : Nat) (b : BitVec 128) (s : State) (h : Memory.wf s.m = true) :
    Memory.wf (writeBundle k a b s).m = true := by
  simp only [Memory.wf, Bool.and_eq_true] at h ⊢
  exact ⟨h.1, canonical_put (d := fun _ => (0 : BitVec 128)) _ _ h.2⟩

theorem wf_of_eq {m n : MainSt} (h : Memory.wf m = true) (hd : n.dmem = m.dmem) (hi : n.imem = m.imem) :
    Memory.wf n = true := by
  simp only [Memory.wf, hd, hi]
  exact h

theorem readWord_wf (k a : Nat) (s : State) (h : Memory.wf s.m = true) : Memory.wf (readWord k a s).1.m = true :=
  wf_of_eq h (readWord_dmem k a s).1 (readWord_dmem k a s).2

theorem readBytes_wf (k a n : Nat) (s : State) (h : Memory.wf s.m = true) : Memory.wf (readBytes k a n s).1.m = true :=
  wf_of_eq h (readBytes_dmem k a n s).1 (readBytes_dmem k a n s).2

theorem storeWord_wf (k a o : Nat) (bs : List Byte) (s : State) (h : Memory.wf s.m = true) :
    Memory.wf (storeWord k a o bs s).1.m = true := by
  unfold storeWord
  split
  · exact putBytes_wf k bs a s h
  · dsimp only
    split
    · exact readWord_wf k a s h
    · exact putBytes_wf k bs (a + o) _ (readWord_wf k a s h)

theorem storeBytes_wf (k n a : Nat) (bs : List Byte) (s : State) (h : Memory.wf s.m = true) :
    Memory.wf (storeBytes k n a bs s).1.m = true := by
  induction n generalizing a bs s with
  | zero => exact h
  | succ n ih =>
    unfold storeBytes
    split
    · exact h
    · exact ih _ _ _ (storeWord_wf k _ _ _ s h)

theorem writeBytes_wf (k a : Nat) (bs : List Byte) (s : State) (h : Memory.wf s.m = true) :
    Memory.wf (writeBytes k a bs s).1.m = true := storeBytes_wf k _ a bs s h

/-- A read by a rig changes no byte and no bundle. -/
theorem readAs_dmem (rig : Bool) (k d n : Nat) (s : State) :
    (readAs rig k d n s).1.m.dmem = s.m.dmem ∧ (readAs rig k d n s).1.m.imem = s.m.imem := by
  unfold readAs
  split
  · exact ⟨rfl, rfl⟩
  · exact readBytes_dmem k d n s

theorem readAs_wf (rig : Bool) (k d n : Nat) (s : State) (h : Memory.wf s.m = true) :
    Memory.wf (readAs rig k d n s).1.m = true :=
  wf_of_eq h (readAs_dmem rig k d n s).1 (readAs_dmem rig k d n s).2

theorem writeAs_wf (rig berth : Bool) (k d : Nat) (bs : List Byte) (s : State) (h : Memory.wf s.m = true) :
    Memory.wf (writeAs rig berth k d bs s).1.m = true := by
  unfold writeAs
  split
  · exact h
  · exact writeBytes_wf k d bs s h

/-- An access performed on a tile's DMEM keeps the canonical form, whatever its kind and its outcome. -/
theorem dmemAccess_wf (rig berth : Bool) (k d : Nat) (kind : LsuKind) (data cmp : Word) (s : State) (h : Memory.wf s.m = true) :
    Memory.wf (dmemAccess rig berth k d kind data cmp s).1.m = true := by
  have hr := readAs_wf rig k d 4 s h
  unfold dmemAccess
  split
  · exact readAs_wf rig k d _ s h
  · exact writeAs_wf rig berth k d _ s h
  · exact h
  · dsimp only
    split
    · exact hr
    · split
      · exact hr
      · exact writeAs_wf rig berth k d _ _ hr

theorem putBundles_wf (k n a : Nat) (bs : List Byte) (s : State) (h : Memory.wf s.m = true) :
    Memory.wf (putBundles k n a bs s).m = true := by
  induction n generalizing a bs s with
  | zero => exact h
  | succ n ih =>
    unfold putBundles
    split
    · exact h
    · exact ih _ _ _ (writeBundle_wf k _ _ s h)

end Sys2Proof.Machine
end

