-- ==== Sys2Proof/Laws/Sound.lean ====
section
/-! SUPPORT. The shared operations keep the stores sound: register writes, alerts, page errors, events, the rig of a tile and the
bytes of memory, and the folds and choices that put them together. -/
namespace Sys2Proof.Machine

/-- Soundness looks at the register words, the staged words, the memories and the hoist set alone. -/
theorem sound_of_eq {s t : State} (h : StoresSound s) (hl : t.live = s.live) (hs : t.shadow = s.shadow)
    (hd : t.m.dmem = s.m.dmem) (hi : t.m.imem = s.m.imem) (hh : t.m.hoist.set = s.m.hoist.set) : StoresSound t := by
  simp only [StoresSound, StoresCanonical, Memory.wf, hl, hs, hd, hi, hh]
  exact h

theorem sound_setWord {s : State} (a : Nat) (v : Word) (h : StoresSound s) : StoresSound (s.setWord a v) := by
  obtain ⟨⟨hl, hs, hm⟩, hh⟩ := h
  exact ⟨⟨canonical_put (d := resetWord) a v hl, hs, hm⟩, hh⟩

theorem sound_setShadow {s : State} (a : Nat) (v : Word) (h : StoresSound s) : StoresSound (s.setShadow a v) := by
  obtain ⟨⟨hl, hs, hm⟩, hh⟩ := h
  exact ⟨⟨hl, canonical_put (d := resetWord) a v hs, hm⟩, hh⟩

theorem sound_set {s : State} (p : Nat) (F : Fld) (v : Nat) (h : StoresSound s) : StoresSound (s.set p F v) :=
  sound_setWord _ _ h

theorem sound_set2 {s : State} (p : Nat) (L H : Fld) (v : Nat) (h : StoresSound s) : StoresSound (s.set2 p L H v) :=
  sound_set _ _ _ (sound_set _ _ _ h)

theorem sound_bump {s : State} (p : Nat) (F : Fld) (h : StoresSound s) : StoresSound (s.bump p F) := sound_set _ _ _ h

theorem sound_bumpSat {s : State} (p : Nat) (F : Fld) (n : Nat) (h : StoresSound s) : StoresSound (s.bumpSat p F n) :=
  sound_set _ _ _ h

theorem sound_setBit {s : State} (p : Nat) (F : Fld) (i : Nat) (b : Bool) (h : StoresSound s) :
    StoresSound (s.setBit p F i b) := sound_set _ _ _ h

theorem sound_setBit2 {s : State} (p : Nat) (L H : Fld) (i : Nat) (b : Bool) (h : StoresSound s) :
    StoresSound (s.setBit2 p L H i b) := by
  unfold State.setBit2
  split <;> exact sound_set _ _ _ h

/-! ### Choices and folds -/

theorem sound_ite {c : Prop} [Decidable c] {s t : State} (hs : c → StoresSound s) (ht : ¬ c → StoresSound t) :
    StoresSound (if c then s else t) := by
  split
  · next h => exact hs h
  · next h => exact ht h

theorem sound_foldl {α : Type} {g : State → α → State} (hg : ∀ s a, StoresSound s → StoresSound (g s a)) (l : List α)
    {s : State} (h : StoresSound s) : StoresSound (l.foldl g s) := by
  induction l generalizing s with
  | nil => exact h
  | cons a l ih => exact ih (hg s a h)

/-! ### Alerts, page errors and events -/

theorem sound_alert {s : State} (c : Nat) (h : StoresSound s) : StoresSound (alert c s) := sound_setBit _ _ _ _ h

theorem sound_pageAlert {s : State} (p : Nat) (h : StoresSound s) : StoresSound (pageAlert p s) :=
  sound_alert _ (sound_ite (fun _ => h) fun _ => sound_set _ _ _ (sound_set _ _ _ (sound_set _ _ _ h)))

theorem sound_pageEvent {s : State} (p : Nat) (h : StoresSound s) : StoresSound (pageEvent p s) :=
  sound_ite (fun _ => sound_pageAlert p h) fun _ => h

theorem sound_afterError {s : State} (b : Bool) (p : Nat) (h : StoresSound s) : StoresSound (afterError b p s) :=
  sound_ite (fun _ => sound_pageEvent p h) fun _ => h

theorem sound_setError {s : State} (p n : Nat) (h : StoresSound s) : StoresSound (setError p n s) :=
  sound_afterError _ _ (sound_setWord _ _ h)

theorem sound_alertError {s : State} (p n : Nat) (h : StoresSound s) : StoresSound (alertError p n s) :=
  sound_ite (fun _ => sound_setError _ _ h) fun _ => sound_pageEvent _ (sound_setError _ _ h)

theorem sound_logAlert {s : State} (n : Nat) (h : StoresSound s) : StoresSound (logAlert n s) :=
  sound_setError _ _ (sound_alert _ h)

/-- The logbook's own fields are no part of the stores. -/
theorem sound_log {s : State} (l : LogSt) (h : StoresSound s) : StoresSound { s with log := l } := h

/-- The level alert that numbering an event may raise. -/
theorem sound_levelAlert {s : State} (h : StoresSound s) :
    StoresSound (if unsaved s = alertLevel s then logAlert 16 s else s) :=
  sound_ite (fun _ => sound_logAlert _ h) fun _ => h

theorem sound_numberEvent {s : State} (e : Event) (h : StoresSound s) : StoresSound (numberEvent e s) := by
  have h2 := sound_levelAlert (sound_set pgLogb LOGB.NEXT_SEQ_SEQ (s.get pgLogb LOGB.NEXT_SEQ_SEQ + 1) h)
  exact sound_ite (fun _ => sound_log _ h2) fun _ =>
    sound_ite (fun _ => sound_bumpSat _ _ _ h2) fun _ => sound_logAlert _ (sound_bumpSat _ _ _ h2)

theorem sound_flushRepeat {s : State} (h : StoresSound s) : StoresSound (flushRepeat s) :=
  sound_ite (fun _ => h) fun _ => sound_numberEvent _ (sound_set _ _ _ h)

theorem sound_raiseEvent {s : State} (e : Event) (h : StoresSound s) : StoresSound (raiseEvent e s) := by
  unfold raiseEvent
  cases e.alert with
  | none => exact sound_ite (fun _ => sound_bump _ _ h) fun _ => sound_numberEvent _ (sound_flushRepeat h)
  | some c =>
    have h := sound_alert c h
    exact sound_ite (fun _ => sound_bump _ _ h) fun _ => sound_numberEvent _ (sound_flushRepeat h)

/-! ### The rig of a tile, time, and memory -/

theorem sound_setRig {s : State} (k : Nat) (r : Rig) (h : StoresSound s) : StoresSound (s.setRig k r) := h

theorem sound_modRig {s : State} (k : Nat) (g : Rig → Rig) (h : StoresSound s) : StoresSound (s.modRig k g) := h

theorem sound_atTime {s : State} (w : Nat) (h : StoresSound s) : StoresSound (s.atTime w) := h

theorem sound_modX {s : State} (g : XingSt → XingSt) (h : StoresSound s) : StoresSound (s.modX g) := h

theorem sound_modNet {s : State} (g : List Pkt → List Pkt) (h : StoresSound s) : StoresSound (s.modNet g) := h

theorem sound_setHaw {s : State} (f e : Nat) (x : HawEnd) (h : StoresSound s) : StoresSound (s.setHaw f e x) := h

theorem sound_setWordErr {s : State} (k a v : Nat) (h : StoresSound s) : StoresSound (s.setWordErr k a v) := h

theorem sound_setByte {s : State} (k a : Nat) (v : Byte) (h : StoresSound s) : StoresSound (s.setByte k a v) :=
  ⟨⟨h.1.1, h.1.2.1, setByte_wf s k a v h.1.2.2⟩, h.2⟩

theorem sound_putBytes {s : State} (k : Nat) (bs : List Byte) (a : Nat) (h : StoresSound s) :
    StoresSound (putBytes k a bs s) := by
  induction bs generalizing a s with
  | nil => exact h
  | cons b bs ih => exact ih (a + 1) (sound_setByte k a b h)

theorem sound_writeBundle {s : State} (k a : Nat) (b : BitVec 128) (h : StoresSound s) :
    StoresSound (writeBundle k a b s) :=
  ⟨⟨h.1.1, h.1.2.1, writeBundle_wf k a b s h.1.2.2⟩, h.2⟩

end Sys2Proof.Machine
end

