-- ==== Sys2Proof/Laws/Guards.lean ====
section
/-! SUPPORT. The guards of the commands: with its condition a command acts, without it the state stays. What an alert and a page
error change. -/
namespace Sys2Proof.Machine

theorem ifStandby_on {g : State → State} {s : State} (h : s.power.standby = true) : ifStandby g s = .next (g s) := by
  simp [ifStandby, h]

theorem ifStandby_off {g : State → State} {s : State} (h : s.power.standby = false) : ifStandby g s = .next s := by
  simp [ifStandby, h]

theorem ifAwake_on {g : State → State} {s : State} (h : awake s = true) : ifAwake g s = .next (g s) := by
  simp [ifAwake, h]

theorem ifAwake_off {g : State → State} {s : State} (h : awake s = false) : ifAwake g s = .next s := by
  simp [ifAwake, h]

theorem ifTile_on {f : FieldId} {t : TileId} {g : State → State} {s : State} (ha : awake s = true)
    (ht : tileReady s f.val t.val = true) : ifTile f t g s = .next (g s) := by
  simp [ifTile, ifAwake, ha, ht]

theorem atEnd_on {h : HostId} {e : EndId} {g : State → State} {s : State} (ha : awake s = true)
    (he : endExists h.val e.val = true) :
    atEnd h e g s = .next (transmit h.val e.val (g (settleEnd (partnerEnd h.val e.val).1 (partnerEnd h.val e.val).2 s))) := by
  simp [atEnd, ifAwake, ha, he]

theorem atEndNow_on {h : HostId} {e : EndId} {g : State → State} {s : State} (ha : awake s = true)
    (he : endExists h.val e.val = true) :
    atEndNow h e g s = .next (transmit h.val e.val (g (settleEnd h.val e.val
      (settleEnd (partnerEnd h.val e.val).1 (partnerEnd h.val e.val).2 s)))) := atEnd_on ha he

/-- What an edge's order of events can change: the logbook's queue and its newest event, and the records linked to them (R750). -/
theorem orderEdge_frame (s0 s : State) :
    (orderEdge s0 s).live = s.live ∧ (orderEdge s0 s).shadow = s.shadow ∧ (orderEdge s0 s).m = s.m ∧
      (orderEdge s0 s).power = s.power ∧ (orderEdge s0 s).pending = s.pending := by
  unfold orderEdge
  dsimp only
  split <;> exact ⟨rfl, rfl, rfl, rfl, rfl⟩

theorem ifLanding_on {k : Nat} {g : State → State} {s : State} (ha : awake s = true) (hk : landingReady s k = true) :
    ifLanding k g s = .next (g s) := by
  simp [ifLanding, ifAwake, ha, hk]

/-! ### Alerts and page errors -/

/-- A page alert changes ALERT_CAUSE and ALERT_PAGE alone. -/
theorem word_pageAlert_other (p b : Nat) (s : State) (h1 : b ≠ pgMast + MAST.ALERT_CAUSE.off)
    (h2 : b ≠ pgMast + MAST.ALERT_PAGE_LO_ADDRESS.off) (h3 : b ≠ pgMast + MAST.ALERT_PAGE_HI_ADDRESS.off)
    (h4 : b ≠ pgMast + MAST.ALERT_PAGE_HI_VALID.off) : (pageAlert p s).word b = s.word b := by
  generalize hg : pageAlert p s = t
  unfold pageAlert alert State.setBit at hg
  split at hg
  · subst hg; exact word_set_other _ _ h1
  · subst hg
    rw [word_set_other _ _ h1, word_set_other _ _ h4, word_set_other _ _ h3, word_set_other _ _ h2]

/-- An alert event of a page changes ALERT_CAUSE and ALERT_PAGE alone. -/
theorem word_pageEvent_other (p b : Nat) (s : State) (h1 : b ≠ pgMast + MAST.ALERT_CAUSE.off)
    (h2 : b ≠ pgMast + MAST.ALERT_PAGE_LO_ADDRESS.off) (h3 : b ≠ pgMast + MAST.ALERT_PAGE_HI_ADDRESS.off)
    (h4 : b ≠ pgMast + MAST.ALERT_PAGE_HI_VALID.off) : (pageEvent p s).word b = s.word b := by
  unfold pageEvent
  split
  · exact word_pageAlert_other p b s h1 h2 h3 h4
  · exact Eq.refl _

/-- A page error changes its page's PAGE_ERROR, ALERT_CAUSE and ALERT_PAGE alone. -/
theorem word_setError_other (p n b : Nat) (s : State) (h0 : b ≠ p + 0x00C) (h1 : b ≠ pgMast + MAST.ALERT_CAUSE.off)
    (h2 : b ≠ pgMast + MAST.ALERT_PAGE_LO_ADDRESS.off) (h3 : b ≠ pgMast + MAST.ALERT_PAGE_HI_ADDRESS.off)
    (h4 : b ≠ pgMast + MAST.ALERT_PAGE_HI_VALID.off) : (setError p n s).word b = s.word b := by
  unfold setError afterError
  split
  · rw [word_pageEvent_other p b _ h1 h2 h3 h4]; exact word_setWord_other _ _ h0
  · exact word_setWord_other _ _ h0

end Sys2Proof.Machine
end

