-- ==== Sys2Proof/Machine/Image.lean ====
section
/-! DEFINITION. The Zenvik load image and the Nimior loader and assembler (R733 to R747), which run on the cabinet controller: what
an image holds, when a load is refused, which identifiers, holders and values it gives, and the rows that the loader sends for
it.  No row of the table calls them; they say what the sender of the rows does (log 58). -/
namespace Sys2Proof.Machine
open Sys2Proof

/-! ### The image (R733 to R736) -/

/-- A role (R734): KIND 0 berth tile, 1 keeper of a fixed count, 2 keeper that fills. -/
structure Role where
  kind : Nat
  index : Nat
  count : Nat
  entry : Nat
  cxEntry : Nat
  sectFirst : Nat
  sectCount : Nat
  name : List Byte
deriving DecidableEq, Repr

/-- A section (R735): TYPE 0 IMEM, 1 DMEM, 2 sail plan, 3 register records; `pad` is the byte that must be zero. -/
structure Section where
  role : Nat
  type : Nat
  pad : Nat
  addr : Nat
  size : Nat
  fileOff : Nat
deriving DecidableEq, Repr

/-- A relocation (R736); `pad` are the two bytes that must be zero. -/
structure Reloc where
  sect : Nat
  kind : Nat
  form : Nat
  offset : Nat
  role : Nat
  pad : Nat
  addend : Int
deriving DecidableEq, Repr

/-- An image: the fields of its header (R733), its tables, and its bytes. -/
structure Image where
  coreMajor : Nat
  coreMinor : Nat
  emulate : Bool
  berthTiles : Nat
  berthsMin : Nat
  berthsMax : Nat
  snapBase : Nat
  snapPages : Nat
  holdBase : Nat
  holderRole : Nat
  budgetLo : Nat
  budgetHi : Nat
  roles : List Role
  sections : List Section
  relocs : List Reloc
  bytes : List Byte
deriving DecidableEq, Repr

/-- The number that n bytes hold from an offset on, least significant byte first (R6). -/
def leAt (bs : List Byte) (off n : Nat) : Nat :=
  ((bs.drop off).take n).foldr (fun b acc => b.toNat + 256 * acc) 0

def roleAt (bs : List Byte) (o : Nat) : Role :=
  ⟨leAt bs o 1, leAt bs (o + 1) 1, leAt bs (o + 2) 2, leAt bs (o + 4) 2, leAt bs (o + 6) 2, leAt bs (o + 8) 2,
   leAt bs (o + 10) 2, (bs.drop (o + 12)).take 20⟩

def sectionAt (bs : List Byte) (o : Nat) : Section :=
  ⟨leAt bs o 2, leAt bs (o + 2) 1, leAt bs (o + 3) 1, leAt bs (o + 4) 4, leAt bs (o + 8) 4, leAt bs (o + 12) 4⟩

def relocAt (bs : List Byte) (o : Nat) : Reloc :=
  ⟨leAt bs o 2, leAt bs (o + 2) 1, leAt bs (o + 3) 1, leAt bs (o + 4) 4, leAt bs (o + 8) 2, leAt bs (o + 10) 2,
   signed (leAt bs (o + 12) 4) 32⟩

/-- The CRC of an image, its own four bytes taken as zero (R733). -/
def imageCheck (bs : List Byte) : Word := crc32c (bs.take 0x3C ++ [0, 0, 0, 0] ++ bs.drop 0x40)

/-- The image that a byte string holds: none where MAGIC, FORMAT or CHECK is wrong or a table lies outside LENGTH (R733, R746). -/
def parseImage (raw : List Byte) : Option Image :=
  let len := leAt raw 0x1C 4
  let bs := raw.take len
  let nr := leAt bs 0x08 2; let ns := leAt bs 0x0A 2; let nx := leAt bs 0x0C 4
  let ro := leAt bs 0x10 4; let so := leAt bs 0x14 4; let xo := leAt bs 0x18 4
  if raw.length < 64 ∨ len < 64 ∨ raw.length < len ∨ leAt bs 0 4 ≠ 0x4B564E5A ∨ leAt bs 4 2 ≠ 1 ∨
      leAt bs 0x3C 4 ≠ (imageCheck bs).toNat ∨ len < ro + 32 * nr ∨ len < so + 16 * ns ∨ len < xo + 16 * nx then none
  else some
    { coreMajor := leAt bs 7 1, coreMinor := leAt bs 6 1, emulate := leAt bs 0x21 1 % 2 == 1,
      berthTiles := leAt bs 0x20 1, berthsMin := leAt bs 0x22 2, berthsMax := leAt bs 0x24 2,
      snapBase := leAt bs 0x26 1, snapPages := leAt bs 0x27 1, holdBase := leAt bs 0x28 1, holderRole := leAt bs 0x29 1,
      budgetLo := leAt bs 0x2C 4, budgetHi := leAt bs 0x30 1,
      roles := (List.range nr).map fun i => roleAt bs (ro + 32 * i),
      sections := (List.range ns).map fun i => sectionAt bs (so + 16 * i),
      relocs := (List.range nx).map fun i => relocAt bs (xo + 16 * i), bytes := bs }

/-- The bytes of a section in the image. -/
def Image.content (m : Image) (x : Section) : List Byte := (m.bytes.drop x.fileOff).take x.size

/-- A role's entry holds to R734. -/
def Image.roleOk (m : Image) (r : Role) : Bool :=
  decide (r.sectFirst + r.sectCount ≤ m.sections.length) &&
  (match r.kind with
   | 0 => decide (r.index < m.berthTiles) && r.count == 0
   | 1 => decide (1 ≤ r.count) && decide (r.count ≤ 24192)
   | 2 => r.count == 0
   | _ => false)

/-- The roles together hold to R734: one role for each position of the berth, and at most one that fills. -/
def Image.rolesOk (m : Image) : Bool :=
  decide (1 ≤ m.roles.length) && decide (m.roles.length ≤ 64) && m.roles.all m.roleOk &&
  ((List.range m.berthTiles).all fun i => (m.roles.filter fun r => r.kind == 0 && r.index == i).length == 1) &&
  decide ((m.roles.filter fun r => r.kind == 2).length ≤ 1)

/-- A register record names no register that the loader writes itself, and no page header (R735). -/
def recordOk (page off : Nat) : Bool :=
  decide (0x040 ≤ off) &&
  !(page == 0 && (off == 0x100 || off == 0x108 || off == 0x204 || decide (0x240 ≤ off ∧ off < 0x280))) &&
  !(page == 2 && off == 0x800)

/-- The register records of a TYPE 3 section: tile page, offset and value. -/
def records (bs : List Byte) : List (Nat × Nat × Nat) :=
  (List.range (bs.length / 8)).map fun i =>
    (bits (leAt bs (8 * i) 4) 12 2, bits (leAt bs (8 * i) 4) 0 12, leAt bs (8 * i + 4) 4)

/-- A section holds to R735. -/
def Image.sectionOk (m : Image) (x : Section) : Bool :=
  decide (x.role < m.roles.length) && x.pad == 0 && decide (x.fileOff + x.size ≤ m.bytes.length) &&
  (match x.type with
   | 0 => x.size % 16 == 0 && decide (x.addr + x.size / 16 ≤ 4096)
   | 1 => decide (x.addr + x.size ≤ 0x40000)
   | 2 => x.addr == 0 && x.size % 8 == 0 && decide (8 ≤ x.size) && decide (x.size ≤ 64)
   | 3 => x.addr == 0 && x.size % 8 == 0 && (records (m.content x)).all fun r => recordOk r.1 r.2.1
   | _ => false)

/-- The bytes that a relocation of a form replaces, and what its offset must be a multiple of (R736). -/
def formBytes (form : Nat) : Nat := match form with | 0 => 4 | 1 => 4 | 2 => 3 | _ => 2
def formAlign (form : Nat) : Nat := match form with | 0 => 4 | 1 => 16 | 2 => 16 | _ => 2

/-- A relocation holds to R736: FORM 1 patches a class 2 bundle and FORM 2 a class 1 bundle. -/
def Image.relocOk (m : Image) (r : Reloc) : Bool :=
  match m.sections[r.sect]? with
  | none => false
  | some x =>
    decide (1 ≤ r.kind) && decide (r.kind ≤ 4) && decide (r.form ≤ 3) && r.pad == 0 &&
    r.offset % formAlign r.form == 0 && decide (r.offset + formBytes r.form ≤ x.size) &&
    (r.role == 0xFFFF || (r.kind == 2 && decide (r.role < m.roles.length))) &&
    (r.kind != 4 || r.addend == 0) &&
    (match r.form with
     | 1 => x.type == 0 && leAt (m.content x) (r.offset + 15) 1 / 32 == 2
     | 2 => x.type == 0 && leAt (m.content x) (r.offset + 15) 1 / 32 == 1
     | _ => true)

/-! ### Sizing, identifiers and holders (R739 to R741) -/

/-- F: the tiles of the keeper roles of a fixed count. -/
def Image.fixedTiles (m : Image) : Nat := total ((m.roles.filter fun r => r.kind == 1).map fun r => r.count)

/-- k: the berths that one holder tile holds; 0 for an image without berths. -/
def Image.perHolder (m : Image) : Nat := (64 - m.holdBase) / (m.berthTiles * m.snapPages)

/-- The tiles of the holder role, where it is of KIND 1. -/
def Image.holders (m : Image) : Option Nat :=
  match m.roles[m.holderRole]? with
  | some r => if r.kind = 1 then some r.count else none
  | none => none

/-- B: the berths placed on t ready tiles; an image without berths places none. -/
def Image.berths (m : Image) (t : Nat) : Nat :=
  if m.berthTiles = 0 then 0
  else min m.berthsMax (min ((t - m.fixedTiles) / m.berthTiles) (m.perHolder * m.holders.getD 0))

/-- The sizing succeeds on t ready tiles. -/
def Image.sizes (m : Image) (t : Nat) : Bool :=
  decide (m.fixedTiles ≤ t) && decide (m.berthsMin ≤ m.berths t) &&
  (m.berthTiles == 0 || (m.perHolder != 0 && m.holders.isSome))

/-- The first identifier of berth b. -/
def Image.berthBase (m : Image) (b : Nat) : Nat := m.fixedTiles + b * m.berthTiles

/-- The first identifier of a role: a fixed keeper's after those before it in the table, a berth position's that of berth 0, and the
filling role's after the berths (R737, R740). -/
def Image.roleFirst (m : Image) (t i : Nat) : Nat :=
  match m.roles[i]? with
  | none => 0
  | some r => match r.kind with
    | 1 => total (((m.roles.take i).filter fun q => q.kind == 1).map fun q => q.count)
    | 0 => m.berthBase 0 + r.index
    | _ => m.berthBase (m.berths t)

/-- How many identifiers the load gives on t ready tiles. -/
def Image.lids (m : Image) (t : Nat) : Nat :=
  if m.roles.any fun r => r.kind == 2 then t else m.berthBase (m.berths t)

/-- The role of an identifier (R740). -/
def Image.roleOf (m : Image) (t lid : Nat) : Option Nat :=
  (List.range m.roles.length).find? fun i =>
    match m.roles[i]? with
    | none => false
    | some r => match r.kind with
      | 1 => decide (m.roleFirst t i ≤ lid) && decide (lid < m.roleFirst t i + r.count)
      | 0 => decide (m.fixedTiles ≤ lid) && decide (lid < m.berthBase (m.berths t)) &&
          (lid - m.fixedTiles) % m.berthTiles == r.index
      | _ => decide (m.berthBase (m.berths t) ≤ lid) && decide (lid < t)

/-- The holder's identifier and page of berth b (R741). -/
def Image.holderOf (m : Image) (t b : Nat) : Nat × Nat :=
  (m.roleFirst t m.holderRole + b / m.perHolder, m.holdBase + b % m.perHolder * m.berthTiles * m.snapPages)

/-! ### Relocations (R737, R738) -/

/-- FIELD_SHAPE of a field: its number, its logical tiles and the fields that are ready (R737). -/
def fieldShape (s : State) (f : Nat) : Nat :=
  f + s.get (pgRostf f) ROSTF.LOGICAL_COUNT * 2 ^ 8 +
    ((List.range 56).filter fun g => s.bit2 pgRoster ROSTER.FIELD_READY_LO_READY ROSTER.FIELD_READY_HI_READY g).length * 2 ^ 24

/-- The value of a relocation for a tile in a field: `own` is the first identifier of its own group, and t the value of
TILE_COUNT.READY read for the load (R737). -/
def Image.resolve (m : Image) (s : State) (t f own : Nat) (r : Reloc) : Int :=
  (match r.kind with
   | 1 => (t : Int)
   | 2 => if r.role = 0xFFFF then (own : Int) else (m.roleFirst t r.role : Int)
   | 3 => (m.berths t : Int)
   | _ => (fieldShape s f : Int)) + r.addend

/-- The range of a form (R736). -/
def formFits (form : Nat) (v : Int) : Bool :=
  match form with
  | 2 => decide (-8388608 ≤ v) && decide (v ≤ 8388607)
  | 3 => decide (0 ≤ v) && decide (v ≤ 65535)
  | _ => decide (0 ≤ v) && decide (v ≤ 0xFFFFFFFF)

/-- The bytes with n of them replaced from an offset on by a number's, least significant first. -/
def putLe (bs : List Byte) (off n : Nat) (v : Int) : List Byte :=
  bs.take off ++ (List.range n).map (fun i => BitVec.ofNat 8 ((v % 2 ^ 32).toNat / 256 ^ i)) ++ bs.drop (off + n)

/-- A section's bytes as one tile receives them: each relocation's field replaced by its value (R736). -/
def Image.patched (m : Image) (s : State) (t f own i : Nat) (x : Section) : List Byte :=
  (m.relocs.filter fun r => r.sect == i).foldl
    (fun bs r => putLe bs r.offset (formBytes r.form) (m.resolve s t f own r)) (m.content x)

/-- The first identifier of an identifier's own group: its berth's, or its role's (R737). -/
def Image.ownFirst (m : Image) (t lid : Nat) : Nat :=
  match m.roleOf t lid with
  | none => lid
  | some i => match (m.roles[i]?).map fun r => r.kind with
    | some 0 => m.berthBase ((lid - m.fixedTiles) / m.berthTiles)
    | _ => m.roleFirst t i

/-! ### Placement and refusal (R742, R743, R746) -/

/-- Why a load is refused. -/
inductive LoadRefusal
  | badImage | core | relocRange | noFit | busy
deriving DecidableEq, Repr

/-- The sections of a role, with their numbers. -/
def Image.roleSections (m : Image) (i : Nat) : List (Nat × Section) :=
  match m.roles[i]? with
  | none => []
  | some r => (List.range r.sectCount).filterMap fun j => (m.sections[r.sectFirst + j]?).map fun x => (r.sectFirst + j, x)

/-- A tile may take a role: it is READY or READY_DEGRADED, and the role's DMEM sections need no bank that is out of service
(R742, R743). -/
def Image.tileFits (m : Image) (s : State) (i key : Nat) : Bool :=
  let v := tileState s (key / 512) (key % 512)
  (v == 2 || v == 3) && (m.roleSections i).all fun p =>
    p.2.type != 1 || p.2.size == 0 || (List.range 8).all fun b =>
      decide (p.2.addr + p.2.size ≤ 32768 * b) || decide (32768 * (b + 1) ≤ p.2.addr) ||
        bitAt (s.get (p0 key) TP0.BANK_STATUS_IN_SERVICE) b

/-- Fields joined by channels in the live routes (R172). -/
def fieldsJoined (s : State) (fs : List Nat) : Bool := fs.all fun f => fs.all fun g => bitAt (reach s f) g

/-- A placement, a tile key for each identifier in ascending order, is one that the loader may choose (R742, R743). -/
def Image.placed (m : Image) (s : State) (t : Nat) (keys : List Nat) : Bool :=
  keys.length == m.lids t && decide keys.Nodup &&
  ((List.range keys.length).all fun lid => match m.roleOf t lid with
    | none => false
    | some i => m.tileFits s i (keys.getD lid 0)) &&
  ((List.range (m.berths t)).all fun b =>
    let fs := ((keys.drop (m.berthBase b)).take m.berthTiles).map fun k => k / 512
    fs.all (fun f => f == fs.headD 0) || fieldsJoined s fs)

/-- Every relocation of an identifier's role resolves to a value that its form takes. -/
def Image.relocsFit (m : Image) (s : State) (t lid key : Nat) : Bool :=
  match m.roleOf t lid with
  | none => true
  | some i => (m.roleSections i).all fun p => (m.relocs.filter fun r => r.sect == p.1).all fun r =>
      formFits r.form (m.resolve s t (key / 512) (m.ownFirst t lid) r)

/-- The loader's judgement of a full load of a byte string with a placement, its cases in the order of R746's table (DESIGN CHOICE,
log 58): none is a load that it makes. -/
def loadRefused (raw : List Byte) (s : State) (keys : List Nat) : Option LoadRefusal :=
  match parseImage raw with
  | none => some .badImage
  | some m =>
    let t := s.get pgRoster ROSTER.TILE_COUNT_READY
    if m.coreMajor ≠ TP0.CORE_VERSION_MAJOR.reset then some .core
    else if TP0.CORE_VERSION_MINOR.reset < m.coreMinor ∧ !m.emulate then some .core
    else if !(m.rolesOk && m.sections.all m.sectionOk && m.relocs.all m.relocOk) then some .badImage
    else if !((List.range keys.length).all fun lid => m.relocsFit s t lid (keys.getD lid 0)) then some .relocRange
    else if !(m.sizes t && m.placed s t keys) then some .noFit
    else if !cseqStopped s then some .busy
    else none

/-! ### The rows of a load (R744, R745) -/

/-- A write by the loader. -/
def loaderWrite (addr v : Nat) : Instr := .registerWrite .management (BitVec.ofNat 40 addr) (BitVec.ofNat 32 v)

/-- HALT_REQ of a tile, the other bit of its word kept. -/
def haltWrite (s : State) (key b : Nat) : Instr :=
  loaderWrite (p0 key + 0x008) (b + 2 * s.get (p0 key) HDR.PAGE_CONTROL_ALERT_EN)

/-- Steps 2 and 3 for one tile: PMODE (split for a berth role, gated for a keeper), ENTRY, LID, CX_ENTRY, the regions and the
register records. -/
def Image.tileRows (m : Image) (s : State) (t lid key : Nat) : List Instr :=
  match m.roleOf t lid with
  | none => []
  | some i => match m.roles[i]? with
    | none => []
    | some r =>
      let own := m.ownFirst t lid
      let data := fun (p : Nat × Section) => m.patched s t (key / 512) own p.1 p.2
      [loaderWrite (p0 key + 0x100) (if r.kind = 0 then 1 else 0), loaderWrite (p0 key + 0x108) r.entry,
       loaderWrite (pgTk key 2 + 0x800) (lid + 2 ^ 31), loaderWrite (p0 key + 0x204) r.cxEntry] ++
      (((m.roleSections i).filter fun p => p.2.type == 2).flatMap fun p =>
        (List.range (p.2.size / 4)).map fun w => loaderWrite (p0 key + 0x240 + 4 * w) (leAt (data p) (4 * w) 4)) ++
      (((m.roleSections i).filter fun p => p.2.type == 3).flatMap fun p =>
        (records (data p)).map fun q => loaderWrite (pgTk key q.1 + q.2.1) q.2.2)

/-- Step 4 for one tile: what its memories receive, by store transfers, IFS and management writes in whichever way the loader
chooses: TYPE, address and bytes of each section. -/
def Image.tileData (m : Image) (s : State) (t lid key : Nat) : List (Nat × Nat × List Byte) :=
  match m.roleOf t lid with
  | none => []
  | some i => ((m.roleSections i).filter fun p => p.2.type == 0 || p.2.type == 1).map fun p =>
      (p.2.type, p.2.addr, m.patched s t (key / 512) (m.ownFirst t lid) p.1 p.2)

/-- The slot of berth b staged with a first identifier (R741, R745). -/
def Image.slotRows (m : Image) (t b base : Nat) : List Instr :=
  let h := m.holderOf t b
  let a := pgBerth b + 0x040 + 0x40 * (b % 48)
  [loaderWrite a (base + m.berthTiles * 2 ^ 16), loaderWrite (a + 0x04) m.budgetLo, loaderWrite (a + 0x08) m.budgetHi,
   loaderWrite (a + 0x0C) h.1, loaderWrite (a + 0x10) (m.snapBase + m.snapPages * 2 ^ 8 + h.2 * 2 ^ 16),
   loaderWrite (a + 0x1C) h.1]

/-- Step 6: one hoist with MODE 1. -/
def armRows : List Instr := [loaderWrite (pgHoist + 0x044) 1, .arm]

/-- The register rows of a full load in the order of R744: step 1 for every tile, steps 2 and 3, 5 and 6; step 7 follows the hoist
instant. -/
def Image.loadRows (m : Image) (s : State) (keys : List Nat) : List Instr × List Instr × List Instr :=
  let t := s.get pgRoster ROSTER.TILE_COUNT_READY
  (keys.map fun k => haltWrite s k 1,
   ((List.range keys.length).flatMap fun lid => m.tileRows s t lid (keys.getD lid 0)) ++
     ((List.range (m.berths t)).flatMap fun b => m.slotRows t b (m.berthBase b)) ++ armRows,
   keys.map fun k => haltWrite s k 0)

/-- The first identifier that a berth's reload takes: the highest in use plus 1 (R745). -/
def reloadBase (s : State) : Nat := (lidMap s).foldl (fun n e => max n (e.1 + 1)) 0

/-- The rows that stage a reloaded berth's slot and arm its hoist (R745). -/
def Image.reloadRows (m : Image) (s : State) (t b : Nat) : List Instr := m.slotRows t b (reloadBase s) ++ armRows

/-! ### The assembler's sources (R747) -/

/-- A source that the loader resolves: its relocation's KIND and ROLE. -/
inductive ShapeSource
  | tilecount | tileidBase | tileidBaseOf (role : Nat) | berthCount | fieldShape
deriving DecidableEq, Repr

def ShapeSource.kindRole : ShapeSource → Nat × Nat
  | .tilecount => (1, 0xFFFF)
  | .tileidBase => (2, 0xFFFF)
  | .tileidBaseOf r => (2, r)
  | .berthCount => (3, 0xFFFF)
  | .fieldShape => (4, 0xFFFF)

/-- The class 2 bundle of a move of a shape source to a destination, alone in its bundle: slot 0 moves LIMM, slots 1 and 2 are never
enabled, and the immediate field is 0. -/
def shapeBundle (dst : Nat) : BitVec 128 :=
  BitVec.ofNat 128 (2 * 2 ^ 125 + (0xE0 * 2 ^ 11 + dst) * 2 ^ 96 + 0xE00000 * 2 ^ 72 + 0xE00000 * 2 ^ 48)

/-- The relocation of a shape source at a byte offset of a section, with addend n. -/
def ShapeSource.reloc (x : ShapeSource) (sect off : Nat) (n : Int) : Reloc := ⟨sect, x.kindRole.1, 1, off, x.kindRole.2, 0, n⟩

/-- A directive of the Nimior assembler, or a bundle's line. -/
inductive AsmLine
  | roleBerth (i : Nat) | roleKeeper (name : List Byte) (count : Nat) | roleFill (name : List Byte)
  | region (h : Nat) | endregion
  | bundle (w : BitVec 128)
deriving DecidableEq, Repr

/-- What the lines give for one role: its KIND, INDEX, COUNT and NAME, its bundles and its regions (first, last, H). -/
structure AsmRole where
  kind : Nat
  index : Nat
  count : Nat
  name : List Byte
  bundles : List (BitVec 128)
  regions : List (Nat × Nat × Nat)
  opened : Option (Nat × Nat)
deriving DecidableEq, Repr

/-- One line taken: none where regions nest, one closes that is not open, or a role would hold more than 8 (R747). -/
def AsmLine.take (x : AsmLine) (done : List AsmRole) : Option (List AsmRole) :=
  let start := fun (r : AsmRole) => if done.all fun q => q.opened.isNone then some (r :: done) else none
  match x, done with
  | .roleBerth i, _ => start ⟨0, i, 0, [], [], [], none⟩
  | .roleKeeper n c, _ => start ⟨1, 0, c, n, [], [], none⟩
  | .roleFill n, _ => start ⟨2, 0, 0, n, [], [], none⟩
  | _, [] => none
  | .bundle w, r :: rest => some ({ r with bundles := r.bundles ++ [w] } :: rest)
  | .region h, r :: rest =>
    if r.opened.isNone ∧ r.regions.length < 8 then some ({ r with opened := some (r.bundles.length, h) } :: rest) else none
  | .endregion, r :: rest => match r.opened with
    | some (a, h) => if a < r.bundles.length then
        some ({ r with opened := none, regions := r.regions ++ [(a, r.bundles.length - 1, h)] } :: rest) else none
    | none => none

/-- The roles of a text's lines, in their order. -/
def assemble (lines : List AsmLine) : Option (List AsmRole) :=
  match lines.foldlM (fun done x => x.take done) [] with
  | some done => if done.all fun r => r.opened.isNone then some done.reverse else none
  | none => none

end Sys2Proof.Machine
end

