-- ==== Sys2Proof/Tests/Slice0.lean ====
section
/-! SUPPORT. Tests: ill-formed commands that WellFormed refuses, the spec's worked examples, and for each statement a witness of
its hypotheses, clause by clause, with what the step then gives. -/
namespace Sys2Proof.Tests
open Sys2Proof Sys2Proof.Machine

set_option Elab.async false

/-! ### States and helpers -/

/-- The next state of an outcome. -/
def nextOf (o : Out) : State :=
  match o with
  | .next s => s
  | _ => State.reset

/-- Field 9 has all its neighbours, and no landing; 100 is a tile of row 3. -/
def f9 : FieldId := 9
def t100 : TileId := 100
def k9 : Nat := keyOf f9 t100

/-- An awake wafer with its clock distributed. -/
def up : State := (State.reset.set pgMpwr MPWR.PWR_STATE_STATE 2).set pgMpwr MPWR.PLL_STATUS_DISTRIBUTING 1

/-- Field 9 powered and ready, with tile 100 ready and its matrix released. -/
def upField : State :=
  (setTileState 9 100 2 (setFieldState 9 3 (up.setBit2 pgMpwr MPWR.FIELD_RAIL_LO_RAIL MPWR.FIELD_RAIL_HI_RAIL 9 true))).set
    (pgTk k9 1) HDR.PAGE_STATUS_HALTED 0

/-- A reef region over all of IMEM lets 15 heavy triggers issue in 16 slots (R718). -/
def withRegion (s : State) : State :=
  ((s.set (p0 k9) (TP0.REGION_A_END.at 0) 4095).set (p0 k9) (TP0.REGION_B_H.at 0) 15).set (p0 k9) (TP0.REGION_B_EN.at 0) 1

/-- The tile runs, with bundles from address 0 on. -/
def running (bs : List (BitVec 128)) (s : State := upField) : State :=
  withRegion ((((List.range bs.length).foldl (fun s i => writeBundle k9 i (bs.getD i 0) s) s).modRig k9
    fun r => { r with run := .running }).set (p0 k9) HDR.PAGE_STATUS_HALTED 0)

/-- A bundle of one move in slot 0 and four that never act. -/
def oneMove (src dst : Nat) : BitVec 128 :=
  encodeMoves ⟨0, src, dst⟩ ⟨7, 0, 0⟩ ⟨7, 0, 0⟩ ⟨7, 0, 0⟩ ⟨7, 0, 0⟩

/-- A port or register set. -/
def withPort (d : Nat) (v : Word) (s : State) : State := s.modRig k9 fun r => { r with ports := put 0 r.ports d v }

/-! ### The step and WellFormed -/

theorem witness_StepRunsTheFrontCommand :
    nextOf (step { upField with pending := [.start, .stop] }) = nextOf (exec .start { upField with pending := [.stop] }) ∧
    (nextOf (step { upField with pending := [.start, .stop] })).pending = [.stop] := by decide +kernel

theorem witness_IdleStepCountsWtime : up.pending = [] ∧ clocked up = true ∧ (nextOf (step up)).m.wtime = 1 ∧
    State.reset.pending = [] ∧ clocked State.reset = false ∧ nextOf (step State.reset) = State.reset := by decide +kernel

/-- WTIME is 64 bits (R133). -/
theorem test_wtime_wraps : (nextOf (step (up.atTime (2 ^ 64 - 1)))).m.wtime = 0 := by decide +kernel

theorem test_stores_sound : StoresSound (running [oneMove 0x305 0x000]) :=
  ⟨by unfold StoresCanonical; decide +kernel, by decide +kernel⟩

theorem test_reset_memory_wf : Memory.wf State.reset.m = true := by decide +kernel

theorem witness_StepKeepsStoresSound :
    let s' := nextOf (step { running [oneMove 0x305 0x000] with pending := [.move f9 t100] })
    regOf s' k9 0 = 5 ∧ (canonical resetWord s'.live && Memory.wf s'.m) = true := by decide +kernel

theorem witness_BundleEncodingRoundTrip :
    let m : Move := ⟨7, 1023, 2047⟩
    (∀ x ∈ [m, m, m, m, m], x.guard < 8 ∧ x.src < 1024 ∧ x.dst < 2048) ∧
      encodeMoves m m m m m = BitVec.ofNat 128 (2 ^ 120 - 1) := by decide +kernel

/-- The spec's worked bundle (R357, R358): a long immediate into a2, a1 into b1, and −3 into a3 where g0 is clear. -/
theorem test_bundle_example :
    bundleOf 0x200700020008219FE803E000000004E1 =
      ⟨1, [⟨0, 0x0E0, 0x002⟩, ⟨0, 0x001, 0x021⟩, ⟨4, 0x3FD, 0x003⟩, nopMove], 0x4E1⟩ := by decide +kernel

/-- The block has no instruction words (log 2). -/
theorem test_no_word_decodes : decodeTableWord 32 0x20070002 = none := rfl

/-! Each check of WellFormed refuses a term. -/

theorem test_wf_probe_place : (Instr.wake 0 [(69, .noAck)]).wf = false ∧ (Instr.wakeN [(68, .noAck)]).wf = true := by
  decide +kernel
theorem test_wf_probe_repeat : (Instr.rtcAlarm [(3, .noAck), (3, .noAck)]).wf = false := by decide +kernel
theorem test_wf_retry_probe : (Instr.pmbusRetry .noAck [(70, .noAck)]).wf = false := by decide +kernel
theorem test_wf_bypass : (Instr.bypass 2 []).wf = false ∧ (Instr.bypass 16 []).wf = false ∧ (Instr.bypass 3 []).wf = true ∧
    (Instr.bypass 15 []).wf = true := by decide +kernel
theorem test_wf_frame : (Instr.rejectedFrame ⟨16, [1]⟩ []).wf = false ∧ (Instr.resetN (some ⟨8, []⟩)).wf = false ∧
    (Instr.extest (some ⟨8, []⟩)).wf = false := by decide +kernel
theorem test_wf_watts : (Instr.allowanceRecompute f9 0 (List.replicate 14 1)).wf = false := by decide +kernel
theorem test_wf_vdemand : (Instr.vdemandRecompute f9 256).wf = false := by decide +kernel
theorem test_wf_guard : (Instr.damageGuardSample [(f9, [1])] []).wf = false ∧
    (Instr.damageGuardSample [] [f9, f9]).wf = false := by decide +kernel
theorem test_wf_tile_test : (Instr.tileTestEnd f9 t100 (some 0) []).wf = false ∧
    (Instr.tileTestEnd f9 t100 (some 8) []).wf = false ∧ (Instr.tileTestEnd f9 t100 none [8]).wf = false ∧
    (Instr.tileTestEnd f9 t100 none [1, 1]).wf = false := by decide +kernel
theorem test_wf_port : (Instr.portWindowExpiry 7 2).wf = false ∧ (Instr.portWindowExpiry 8 4).wf = false ∧
    (Instr.portWindowExpiry 8 3).wf = true := by decide +kernel
theorem test_wf_escalation : (Instr.escalationReachesRoster (.bankUe f9 t100 1 262144)).wf = false ∧
    (Instr.escalationReachesRoster (.laneRetired f9 4 80)).wf = false ∧
    (Instr.escalationReachesRoster (.linkBroken f9 4 9 0 [])).wf = false ∧
    (Instr.escalationReachesRoster (.linkBroken f9 4 0 0 [])).wf = false ∧
    (Instr.escalationReachesRoster (.linkBroken f9 4 1 0 [65536])).wf = false := by decide +kernel
theorem test_wf_release : (Instr.escRelease f9 512).wf = false := by decide +kernel
theorem test_wf_lanes : (Instr.laneParityError 9 4 [80] none).wf = false ∧
    (Instr.laneParityError 9 4 [1, 1] none).wf = false ∧ (Instr.laneJudgedGood 9 4 80).wf = false := by decide +kernel
theorem test_wf_frame_rx : (Instr.netFrameRx 0 0 (List.replicate 13 0) 0 0).wf = false := by decide +kernel
theorem test_wf_link_up : (Instr.storeLinkUp 0 0 4 1).wf = false ∧ (Instr.storeLinkUp 0 0 3 3).wf = false ∧
    (Instr.storeLinkUp 0 0 3 16).wf = true := by decide +kernel
theorem test_wf_port_up : (Instr.storePortUp 0 0 256).wf = false := by decide +kernel
theorem test_wf_nvme : (Instr.nvmeCompletion 0 0 32768 []).wf = false := by decide +kernel
theorem test_wf_vstby : (Instr.vstbyRemoved 33).wf = false := by decide +kernel

/-! ### The rig: one bundle of one move from a1 (destination 0x001) or an immediate -/

/-- The tile issues a bundle of one move next. -/
def fires (src dst : Nat) (s : State := upField) : Bool :=
  let s1 := ready (running [oneMove src dst] s) f9 t100
  issues s1 k9 && (enabledMoves (s1.rig k9) (bundleNext s1 k9)).contains (0, ⟨0, src, dst⟩)

/-- The state after a command that finds that bundle. -/
def after (c : Instr) (src dst : Nat) (s : State := upField) : State := nextOf (exec c (running [oneMove src dst] s))

/-- Registers and ports set. -/
def withPorts (l : List (Nat × Word)) (s : State := upField) : State := l.foldl (fun s p => withPort p.1 p.2 s) s

/-- Results on their way, and accesses outstanding. -/
def landsOf (t : State) : List Nat := (t.rig k9).inflight.flatMap fun l => l.due :: l.writes.flatMap fun w => [w.1, w.2.toNat]
def lsuOf (t : State) (kind : LsuKind) : List Word :=
  (t.rig k9).lsuQ.flatMap fun a => if a.kind = kind then [a.addr, a.data, a.cmp] else []

theorem witness_MoveWritesPortsByHighestSlot :
    fires 0x305 0x040 = true ∧ regOf (after (.move f9 t100) 0x305 0x040) k9 0x040 = 5 ∧
    (running [oneMove 0x305 0x040] |>.rig k9).pend = [] := by decide +kernel

/-- Of two moves to one register the higher slot acts (R376). -/
theorem test_highest_slot :
    let b := encodeMoves ⟨0, 0x305, 0x002⟩ ⟨7, 0, 0⟩ ⟨0, 0x307, 0x002⟩ ⟨7, 0, 0⟩ ⟨1, 0x309, 0x002⟩
    regOf (nextOf (exec (.move f9 t100) (running [b]))) k9 2 = 7 := by decide +kernel

/-- Moves read before any move writes (R374): a swap of two registers in one bundle. -/
theorem test_swap_in_one_bundle :
    let b := encodeMoves ⟨0, 0x001, 0x002⟩ ⟨0, 0x002, 0x001⟩ ⟨7, 0, 0⟩ ⟨7, 0, 0⟩ ⟨7, 0, 0⟩
    let s := nextOf (exec (.move f9 t100) (running [b] (withPorts [(1, 11), (2, 22)])))
    regOf s k9 1 = 22 ∧ regOf s k9 2 = 11 := by decide +kernel

theorem witness_NoOperationAdvancesTheSlot :
    let b := encodeMoves nopMove nopMove nopMove nopMove nopMove
    let s := running [b]; let s1 := ready s f9 t100; let s' := nextOf (exec (.noOperation f9 t100) s)
    issues s1 k9 = true ∧ enabledMoves (s1.rig k9) (bundleNext s1 k9) = [] ∧ (s1.rig k9).rpt = none ∧ (s1.rig k9).pend = [] ∧
      (s'.rig k9).slot = 1 ∧ (s'.rig k9).pc = 1 := by decide +kernel

/-- Every ALU trigger on o = 0x80000000 and t = 0xFFFFFFFF with c = 1, ALU1 (R397, R398). -/
theorem witness_AluAndShfTriggersWriteTheirSockets :
    let s := (withPorts [(0x080, 0x80000000), (1, 0xFFFFFFFF)]).modRig k9 fun r => { r with socks := put 0 r.socks 0x051 1 }
    (fires 1 0x081 s && fires 1 0x092 s && fires 1 0x0C2 s && fires 1 0x0CD s) = true ∧
    [(AluOp.add, 0x081), (.addc, 0x082), (.addv, 0x083), (.sub, 0x084), (.subb, 0x085), (.subv, 0x086), (.and, 0x087),
      (.or, 0x088), (.xor, 0x089), (.andn, 0x08A), (.slt, 0x08B), (.sltu, 0x08C), (.min, 0x08D), (.minu, 0x08E),
      (.max, 0x08F), (.maxu, 0x090), (.abs, 0x091), (.pass, 0x092)].map (fun p =>
        let t := after (aluCommand p.1 f9 t100) 1 p.2 s; (sock t k9 0x050, sock t k9 0x051)) =
    ([(0x7FFFFFFF, 1), (0x80000000, 1), (0x7FFFFFFF, 1), (0x80000001, 1), (0x80000000, 1), (0x80000001, 1), (0x80000000, 1),
      (0xFFFFFFFF, 1), (0x7FFFFFFF, 1), (0, 1), (1, 1), (1, 1), (0x80000000, 1), (0x80000000, 1), (0xFFFFFFFF, 1),
      (0xFFFFFFFF, 1), (1, 1), (0xFFFFFFFF, 1)] : List (Word × Word)) := by decide +kernel

/-- addv overflows and subv does not on these operands: an imprecise OVERFLOW of ALU1, and one to be raised first. -/
theorem test_addv_overflows :
    let s := withPorts [(0x080, 0x80000000), (1, 0xFFFFFFFF)]
    ((after (.addv f9 t100) 1 0x083 s).rig k9).ariths = [⟨1, 0x0A, 2, 0, 0, false⟩] ∧
    ((after (.subv f9 t100) 1 0x086 s).rig k9).ariths = [] ∧
    ((after (.addv f9 t100) 1 0x083 (s.set (p0 k9) TP0.TILE_CTL_PRECISE 1)).rig k9).raised = [⟨0x0A, 2, 0, 0, 0⟩] := by
  decide +kernel

/-- Every SHF trigger (R399 to R401), with a field of 8 bits at bit 4. -/
theorem test_shf_results :
    let s := withPorts [(0x0C0, 0x80000001), (0x0C1, 0x804), (1, 0x00F00FF4)]
    [(ShfOp.shl, 0x0C2), (.shr, 0x0C3), (.sar, 0x0C4), (.rol, 0x0C5), (.ror, 0x0C6), (.bswap, 0x0CA), (.hswap, 0x0CB),
      (.clz, 0x0CC), (.ctz, 0x0CD)].map (fun p => sock (after (shfCommand p.1 f9 t100) 1 p.2 s) k9 0x060) =
    ([0x00100000, 0x00000800, 0xFFFFF800, 0x00180000, 0x00001800, 0xF40FF000, 0xF000F40F, 8, 2] : List Word) ∧
    sock (after (.clz f9 t100) 0x300 0x0CC) k9 0x060 = 32 ∧ sock (after (.ctz f9 t100) 0x300 0x0CD) k9 0x060 = 32 := by
  decide +kernel

/-- A trigger of each latency of CHK (R403). -/
theorem witness_ChkTriggersDeliverTheirResults :
    fires 1 0x108 = true ∧ sock (after (.pop f9 t100) 0x3FF 0x11C) k9 0x071 = 32 ∧
    ((after (.cpW f9 t100) 0x3FF 0x10F).rig k9).inflight.map (fun l => (l.trig, l.due)) = [(0, 3)] ∧
    sock (after (.fin32 f9 t100) 0x300 0x110) k9 0x070 = 0xFFFFFFFF ∧
    sock (after (.parB f9 t100) 1 0x119 (withPorts [(1, 0x01030700)])) k9 0x071 = 10 ∧
    sock (after (.parW f9 t100) 1 0x118 (withPorts [(1, 0x01030700)])) k9 0x071 = 0 ∧
    sock (after (.revW f9 t100) 1 0x11A (withPorts [(1, 0x00000001)])) k9 0x071 = 0x80000000 ∧
    sock (after (.revB f9 t100) 1 0x11B (withPorts [(1, 0x00000001)])) k9 0x071 = 0x80 := by decide +kernel

/-- The check values of "123456789": CRC-32C 0xE3069283, CRC-32 0xCBF43926, CRC-16 0x29B1 (R405, R408). -/
theorem test_crc_check_values :
    let bs : List Byte := [0x31, 0x32, 0x33, 0x34, 0x35, 0x36, 0x37, 0x38, 0x39]
    (bs.foldl (fun c b => crcByte 0 0 0 c (b.setWidth 32)) 0xFFFFFFFF) ^^^ 0xFFFFFFFF = 0xE3069283 ∧
    (bs.foldl (fun c b => crcByte 1 0 0 c (b.setWidth 32)) 0xFFFFFFFF) ^^^ 0xFFFFFFFF = 0xCBF43926 ∧
    (bs.foldl (fun c b => crcByte 2 0 0 c (b.setWidth 32)) 0xFFFF) = 0x29B1 := by decide +kernel

/-- mul, mulu and their overflows; the corners of the division table (R420 to R422). -/
theorem witness_MulAndDivTriggersDeliverTheirResults :
    let s := withPorts [(0x180, 0x80000000), (0x1A0, 0x80000000), (1, 0xFFFFFFFF)]
    (fires 1 0x181 s && fires 1 0x1A1 s) = true ∧
    landsOf (after (.mul f9 t100) 1 0x181 s) = [3, 0x090, 0x80000000, 0x091, 0] ∧
    landsOf (after (.mulu f9 t100) 1 0x182 s) = [3, 0x090, 0x80000000, 0x091, 0x7FFFFFFF] ∧
    ((after (.mulv f9 t100) 1 0x183 s).rig k9).ariths = [⟨3, 0x0A, 3, 0, 0, false⟩] ∧
    ((after (.mulvu f9 t100) 1 0x184 s).rig k9).ariths = [⟨3, 0x0A, 3, 0, 0, false⟩] ∧
    landsOf (after (.div f9 t100) 1 0x1A1 s) = [18, 0x0A0, 0x80000000, 0x0A1, 0] ∧
    landsOf (after (.divu f9 t100) 1 0x1A2 s) = [18, 0x0A0, 0, 0x0A1, 0x80000000] ∧
    landsOf (after (.divq f9 t100) 1 0x1A3 (withPorts [(0x1A0, 7), (1, 0)])) = [18, 0x0A0, 0xFFFFFFFF, 0x0A1, 7] ∧
    landsOf (after (.divq f9 t100) 1 0x1A3 (withPorts [(0x1A0, 0xFFFFFFF9), (1, 2)])) = [18, 0x0A0, 0xFFFFFFFD, 0x0A1, 0xFFFFFFFF] := by decide +kernel

theorem test_div_raises :
    let s := withPorts [(0x1A0, 0x80000000), (1, 0xFFFFFFFF)]
    ((after (.div f9 t100) 1 0x1A1 s).rig k9).ariths = [⟨18, 0x0A, 4, 0, 0, false⟩] ∧
    ((after (.divu f9 t100) 1 0x1A2 (withPorts [(1, 0)])).rig k9).ariths = [⟨18, 0x0B, 4, 0, 0, false⟩] ∧
    ((after (.divqu f9 t100) 1 0x1A4 (withPorts [(1, 0)])).rig k9).ariths = [] := by decide +kernel

theorem witness_HshTriggersRunTheHash :
    (fires 0x300 0x1D0 && fires 0x300 0x1D1 && fires 0x300 0x1D2) = true ∧
    ((after (.init f9 t100) 0x300 0x1D0).rig k9).hshH = shaInit ∧
    ((after (.seth f9 t100) 0x300 0x1D1 (withPorts [(0x1C7, 9)])).rig k9).hshV = [0, 0, 0, 0, 0, 0, 0, 9] ∧
    ((after (.rnd f9 t100) 0x300 0x1D2).rig k9).hshG = 1 ∧
    ((after (.rnd f9 t100) 0x300 0x1D2 (upField.modRig k9 fun r => { r with hshG := 7 })).rig k9).hshG = 0 := by
  decide +kernel

/-- SHA-256 of "abc" (FIPS 180-4): eight rnd triggers on its one block give its first and last word. -/
theorem test_sha_abc :
    let blk : List Word := [0x61626380, 0, 0, 0, 0, 0, 0, 0, 0, 0, 0, 0, 0, 0, 0, 0x18]
    let q := shaRounds 64 0 blk shaInit
    let h := addWords shaInit q.1
    h.getD 0 0 = 0xBA7816BF ∧ h.getD 7 0 = 0xF20015AD := by decide +kernel

theorem witness_FoldTriggersStartOrContinue :
    let s := fun (n : Word) => withPorts [(0x100, 0xFFFFFFFF), (0x101, n), (1, 0x4000)]
    let stopped := upField.modRig k9 fun r => { r with fold := { r.fold with resume := true, alg := 2, fptr := 0x41C0, frem := 584 } }
    (fires 1 0x120 (s 262144) && fires 1 0x123 stopped && fires 1 0x124 stopped) = true ∧
    ((after (.fold32c f9 t100) 1 0x120 (s 1)).rig k9).fold.busy = true ∧
    ((after (.fold32 f9 t100) 1 0x121 (s 262144)).rig k9).fold.rem = 262144 ∧
    (let t := after (.fold16 f9 t100) 1 0x122 (s 0)
     (t.rig k9).fold.busy = false ∧ (t.rig k9).fold.lenErr = false ∧ sock t k9 0x072 = 0xFFFFFFFF) ∧
    (let t := after (.fold16 f9 t100) 1 0x122 (s 262145)
     (t.rig k9).fold.lenErr = true ∧ sock t k9 0x075 = 0x4000 ∧ sock t k9 0x076 = 262145) ∧
    (let t := after (.foldp f9 t100) 1 0x123 stopped
     (t.rig k9).fold.busy = true ∧ (t.rig k9).fold.alg = 2 ∧ (t.rig k9).fold.ptr = 0x41C0 ∧ (t.rig k9).fold.rem = 584) ∧
    ((after (.fclr f9 t100) 1 0x124 stopped).rig k9).fold.resume = false := by decide +kernel

theorem witness_UnitResultLandsDueResults :
    let s := (running []).modRig k9 fun r => { r with
      slot := 4, inflight := [⟨1, 4, [(0x090, 7)]⟩, ⟨1, 5, [(0x0A0, 8)]⟩], ariths := [⟨0, 0x0A, 3, 0, 0, false⟩] }
    let s' := nextOf (exec (.unitResult f9 t100) s)
    sock s' k9 0x090 = 7 ∧ sock s' k9 0x0A0 = 0 ∧ (s'.rig k9).inflight = [⟨1, 5, [(0x0A0, 8)]⟩] ∧
      s'.on (p0 k9) TP0.EVENTS_ARITH = true := by decide +kernel

/-- Kind and mode of each access (R431): the first and last DST, both updating modes, and a wrap below address 0. -/
theorem witness_LsuTriggersQueueTheirAccess :
    let s := withPorts [(0x1E0, 77), (0x1E1, 3), (0x1E2, 100), (0x1E3, 55), (1, 0x1000)]
    (fires 1 0x1E8 s && fires 1 0x227 s && fires 1 0x228 s && fires 1 0x22B s) = true ∧
    lsuOf (after (.ldb f9 t100) 1 0x1E8 s) (.load 1 false) = [0x1000, 77, 55] ∧
    lsuOf (after (.stw f9 t100) 1 0x227 s) (.store 4) = [0x1064, 77, 55] ∧
    lsuOf (after (.ldhs f9 t100) 1 0x204 s) (.load 2 true) = [0x1006, 77, 55] ∧
    sock (after (.ldw f9 t100) 1 0x209 s) k9 0x0D1 = 0x1004 ∧
    (let t := after (.sth f9 t100) 0x301 0x21A; sock t k9 0x0D1 = 0xFFFFFFFF ∧ (t.rig k9).lsuQ.map (·.addr) = [0xFFFFFFFF]) ∧
    lsuOf (after (.swp f9 t100) 1 0x228 s) .swp = [0x1000, 77, 55] ∧ lsuOf (after (.ldadd f9 t100) 1 0x229 s) .ldadd = [0x1000, 77, 55] ∧
    lsuOf (after (.cas f9 t100) 1 0x22A s) .cas = [0x1000, 77, 55] ∧ lsuOf (after (.sync f9 t100) 1 0x22B s) .sync = [0x1000, 77, 55] := by
  decide +kernel

theorem witness_IouAndKickTriggersQueue :
    let s := withPorts [(0x260, 77), (1, 0x204)]
    (fires 1 0x261 s && fires 1 0x262 s && fires 1 0x300 s) = true ∧
    ((after (.ior f9 t100) 1 0x261 s).rig k9).iouQ = [⟨false, 0x204, 77, 0, 0, false⟩] ∧
    ((after (.iow f9 t100) 1 0x262 s).rig k9).iouQ = [⟨true, 0x204, 77, 0, 0, false⟩] ∧
    (let t := after (.kick f9 t100) 1 0x300 s
     (t.ferry k9).queue = [⟨0x204, false, 0, 0⟩] ∧ t.get (pgTk k9 2) TP2.FRY_STATUS_QUEUED = 1) := by decide +kernel

theorem witness_JumpsFixTheTarget :
    let s := (withPorts [(1, 0xFFFFF123)]).modRig k9 fun r => { r with lnk := 0x456, lc := 0 }
    let pend := fun (t : State) => (t.rig k9).pend
    (fires 1 0x288 s && fires 1 0x289 s && fires 1 0x28A s && fires 1 0x28B s) = true ∧
    pend (after (.jmp f9 t100) 1 0x288 s) = [⟨3, 0x123, .jump⟩] ∧
    (let t := after (.call f9 t100) 1 0x289 s; pend t = [⟨3, 0x123, .jump⟩] ∧ (t.rig k9).lnk = 3) ∧
    pend (after (.ret f9 t100) 1 0x28A s) = [⟨3, 0x456, .jump⟩] ∧
    (let t := after (.dbnz f9 t100) 1 0x28B s; pend t = [⟨3, 0x123, .jump⟩] ∧ (t.rig k9).lc = 0xFFFFFFFF) ∧
    (let t := after (.dbnz f9 t100) 1 0x28B (s.modRig k9 fun r => { r with lc := 1 }); pend t = [] ∧ (t.rig k9).lc = 0) := by
  decide +kernel

/-- The jump's target issues after its two delay bundles (R379). -/
theorem test_delay_bundles :
    let nop := encodeMoves nopMove nopMove nopMove nopMove nopMove
    let s := running [oneMove 0x310 0x288, nop, nop]
    let go := fun s => nextOf (exec (.noOperation f9 t100) s)
    (nextOf (exec (.jmp f9 t100) s) |>.rig k9).pc = 1 ∧
    (go (go (nextOf (exec (.jmp f9 t100) s))) |>.rig k9).pc = 0x10 := by decide +kernel

theorem witness_RepeatsCountIterations :
    (fires 0x300 0x28C && fires 1 0x28D (withPorts [(1, 0x5FFFF)])) = true ∧
    (let t := after (.rpt f9 t100) 0x300 0x28C; (t.rig k9).rpt = some ⟨3, true, none⟩ ∧ (t.rig k9).rptc = 1) ∧
    (let t := after (.rpti f9 t100) 1 0x28D (withPorts [(1, 0x5FFFF)])
     (t.rig k9).rpt = some ⟨3, false, none⟩ ∧ (t.rig k9).rptc = 0xFFFF) := by decide +kernel

theorem witness_CompareSetsItsGuard :
    let s := withPorts [(0x280, 0x80000000), (1, 5)]
    (fires 1 0x2C0 s && fires 1 0x2EB s) = true ∧
    (List.range 12).map (fun rel => ((after (.compare f9 t100) 1 (0x2D0 + rel) s).rig k9).g1) =
      [false, true, true, false, true, false, false, true, false, true, false, true] ∧
    ((after (.compare f9 t100) 1 0x2EB s).rig k9).g2 = true := by decide +kernel

theorem witness_RigRowsFrame :
    let s := running [oneMove 0x305 0x1E8]
    .ldb f9 t100 ∈ rigCommands f9 t100 ∧ ((nextOf (exec (.ldb f9 t100) s)).rig k9).lsuQ.length = 1 := by decide +kernel

/-- Fields with a field of 8 bits at bit 4 of t (R400, R401): extracted, sign-extended, inserted into o. -/
theorem test_shf_fields :
    let s := withPorts [(0x0C0, 0xFFFFFFFF), (0x0C1, 0x0704), (1, 0x00000F56)]
    (sock (after (.ext f9 t100) 1 0x0C7 s) k9 0x060, sock (after (.exts f9 t100) 1 0x0C8 s) k9 0x060,
      sock (after (.ins f9 t100) 1 0x0C9 s) k9 0x060) = (0xF5, 0xFFFFFFF5, 0xFFFFF56F) := by decide +kernel

/-- What a gate, a gangway and a slip need set. -/
def withGates (s : State := upField) : State :=
  let s := ((s.set (pgTk k9 3) (TP3.GATE_ENTRY.at 5) 0x77).set (pgTk k9 3) (TP3.GATE_ALLOW.at 5) 15).set (pgTk k9 3) (TP3.GATE_EN.at 5) 1
  let s := ((s.set (p0 k9) (TP0.GW_ENTRY.at 7) 0x88).set (p0 k9) (TP0.GW_ALLOW.at 7) 15).set (p0 k9) (TP0.GW_EN.at 7) 1
  s.modRig k9 fun r => { r with lnk := 0x321 }

theorem witness_HandlerTransfersStart :
    let pend := fun (t : State) => (t.rig k9).pend
    let s := withGates
    let g := (s.set (p0 k9) TP0.GSTACK_A_E0 4096).set (p0 k9) TP0.GSTACK_B_DEPTH 1
    let w := (s.set (p0 k9) TP0.GW_STATE_ACTIVE 1)
    let b := ((s.set (p0 k9) TP0.PMODE_MODE 1).set (p0 k9) TP0.PRIV_WORLD 1)
    let back := (s.set (p0 k9) TP0.PMODE_MODE 1).set (p0 k9) TP0.SLIP_VALID 1
    (fires 0x3FF 0x28E && fires 0x305 0x28F s && fires 0x340 0x28F g && fires 0x307 0x290 s && fires 0x300 0x291 w &&
      fires 0x300 0x292 b && fires 0x300 0x292 back && fires 0x300 0x293) = true ∧
    pend (after (.trap f9 t100) 0x3FF 0x28E) = [⟨3, 0, .trap 255 0⟩] ∧
    pend (after (.gateCall f9 t100) 0x305 0x28F s) = [⟨3, 0x77, .gateCall 0 3 0⟩] ∧
    pend (after (.gateReturn f9 t100) 0x340 0x28F g) = [⟨3, 0, .gateRet⟩] ∧
    (let t := after (.gwcall f9 t100) 0x307 0x290 s; pend t = [⟨3, 0x88, .gwcall 7 0⟩] ∧ (t.rig k9).lnk = 3) ∧
    pend (after (.gwret f9 t100) 0x300 0x291 w) = [⟨3, 0x321, .gwret⟩] ∧
    pend (after (.slip f9 t100) 0x300 0x292 b) = [⟨3, 0, .slipIn 3⟩] ∧
    pend (after (.slip f9 t100) 0x300 0x292 back) = [⟨3, 0, .slipOut⟩] ∧
    pend (after (.eret f9 t100) 0x300 0x293) = [⟨3, 0, .eret⟩] := by decide +kernel

theorem witness_TransfersArrive :
    let s := (withGates (withPorts [(0, 10), (3, 13)])).modRig k9 fun r => { r with g1 := true }
    (let t := arrive (s.set (p0 k9) TP0.GSTACK_B_DEPTH 2) k9 ⟨3, 9, .gateCall 3 4095 3⟩
     t.get (p0 k9) TP0.GSTACK_B_DEPTH = 3 ∧ gstackEntry t k9 2 = 4095 + 3 * 4096 ∧ curLevel t k9 = 3 ∧ (t.rig k9).pc = 9 ∧
     (let u := arrive t k9 ⟨3, 0, .gateRet⟩
      u.get (p0 k9) TP0.GSTACK_B_DEPTH = 2 ∧ curLevel u k9 = 3 ∧ (u.rig k9).pc = 4095)) ∧
    (let t := arrive s k9 ⟨3, 9, .gwcall 7 2⟩
     t.get (p0 k9) TP0.GW_STATE_INDEX = 7 ∧ t.get (p0 k9) TP0.GW_STATE_SG = 2 ∧ t.word (p0 k9 + 0x1B0) = 13 ∧
     curLevel t k9 = 2 ∧
     (let u := arrive ((t.modRig k9 fun r => { r with ports := [], g1 := false })) k9 ⟨3, 0x321, .gwret⟩
      regOf u k9 0 = 10 ∧ regOf u k9 3 = 13 ∧ (u.rig k9).g1 = true ∧ curLevel u k9 = 0 ∧ (u.rig k9).pc = 0x321 ∧
      u.on (p0 k9) TP0.GW_STATE_ACTIVE = false)) ∧
    (let t := arrive (((s.set (p0 k9) TP0.PMODE_MODE 1).set (p0 k9) TP0.PRIV_WORLD 1).set (p0 k9) TP0.PRIV_LEVEL 1) k9
       ⟨3, 0, .slipIn 4095⟩
     t.get (p0 k9) TP0.SLIP_RET = 4095 ∧ inBerth t k9 = false ∧ curLevel t k9 = 0 ∧ t.on (p0 k9) TP0.SLIP_VALID = true ∧
     (let u := arrive t k9 ⟨3, 0, .slipOut⟩
      inBerth u k9 = true ∧ curLevel u k9 = 1 ∧ (u.rig k9).pc = 4095 ∧ u.on (p0 k9) TP0.SLIP_VALID = false)) := by
  decide +kernel

/-! ### Memory accesses, IMEM, injection and patrol -/

/-- An LSU access that is the oldest one, of keeper supervisor, triggered at bundle 7 in slot 3. -/
def withAcc (kind : LsuKind) (a data cmp : Word) (s : State := upField) : State :=
  s.modRig k9 fun r => { r with
    lsuQ := [⟨kind, a, data, cmp, 3, 7, false, 0, false⟩], lsuIlk := if kind.result then [⟨3, 4, false, none⟩] else [] }

/-- DMEM of the tile from address a on. -/
def withBytes (a : Nat) (bs : List Byte) (s : State := upField) : State := putBytes k9 a bs s

def lsuGo (s : State) : State := nextOf (exec (.lsuAccessComplete f9 t100) s)
def ilk (t : State) : List (Option Word) := (t.rig k9).lsuIlk.map (·.val)

/-- Lowest byte first (R429), signed and unsigned, at the last byte, halfword and word of DMEM; a sync. -/
theorem witness_LocalLoadCompletes :
    let s := withBytes 0x3FFFC [0x11, 0x82, 0x33, 0x84]
    matrixHalted s k9 = false ∧ placeSpan s k9 0x3FFFC 4 false = .dmem 0x3FFFC ∧ s.wordErr k9 0x3FFFC = 0 ∧
    (lookup (8, false) s.m.inject k9).1 ≠ bankOf 0x3FFFC ∧
    ilk (lsuGo (withAcc (.load 1 true) 0x3FFFF 0 0 s)) = [some 0xFFFFFF84] ∧
    ilk (lsuGo (withAcc (.load 1 false) 0x3FFFF 0 0 s)) = [some 0x84] ∧
    ilk (lsuGo (withAcc (.load 2 true) 0x3FFFC 0 0 s)) = [some 0xFFFF8211] ∧
    ilk (lsuGo (withAcc (.load 2 false) 0x3FFFE 0 0 s)) = [some 0x8433] ∧
    ilk (lsuGo (withAcc (.load 4 false) 0x3FFFC 0 0 s)) = [some 0x84338211] ∧
    ilk (lsuGo (withAcc .sync 1 0 0 s)) = [some 0] ∧ ((lsuGo (withAcc .sync 1 0 0 s)).rig k9).lsuQ = [] := by
  decide +kernel

/-- A post bay of one page a half from page 1 on: page 1 collects and page 2 is visible, before the first opening (R332). -/
def withBay (s : State := upField) : State := (s.set (p0 k9) TP0.POST_BAY_BASE 1).set (p0 k9) TP0.POST_BAY_PAGES 1

/-- M0 wins DMEM bank 7; a load from the collecting half completes with free bytes, one from the visible half with the bytes there. -/
theorem witness_LocalLoadArbitrationAndBay :
    let s := withBytes 0x2000 [9] withBay; let h := withAcc (.load 1 false) 0x1000 0 0 s
    wins (withAcc (.load 4 false) 0x3FFFC 0 0) k9 0 ⟨7, 1, qosM0 upField k9⟩ = true ∧
    bayPart s k9 0x1000 = .collecting ∧ bayPart s k9 0x2000 = .visible ∧ bayPart s k9 0x3000 = .outside ∧
    ((lsuGo h).rig k9).lsuQ = [] ∧ (lsuGo h).m.x.hiddenReads = 1 ∧
    ilk (lsuGo (withAcc (.load 1 false) 0x2000 0 0 s)) = [some 9] := by decide +kernel

/-- In the collecting half a keeper's store writes and a berth's does not; in the visible half none does. -/
theorem witness_LocalStoresInTheBay :
    let at' := fun (a : Nat) (s : State) => (lsuGo (withAcc (.store 1) (BitVec.ofNat 32 a) 7 0 s)).byte k9 a
    let berth := fun (t : State) => t.modRig k9 fun r => { r with lsuQ := r.lsuQ.map fun a => { a with berth := true } }
    let b := lsuGo (berth (withAcc (.store 1) 0x1000 7 0 withBay))
    at' 0x1FFF withBay = 7 ∧ at' 0x2000 withBay = 0 ∧ at' 0x3000 withBay = 7 ∧
    placeSpan withBay k9 0x1000 1 true = .dmem 0x1000 ∧ b.byte k9 0x1000 = 0 ∧ (b.rig k9).lsuQ = [] ∧ (b.rig k9).raised = [] := by
  decide +kernel

theorem witness_LocalStoresWriteTheirBytes :
    let s := withBytes 0x100 [1, 2, 3, 4]
    let at4 := fun (t : State) => (List.range 6).map fun j => t.byte k9 (0xFF + j)
    lineWaits s k9 0x100 4 = false ∧ placeSpan s k9 0x103 1 false = .dmem 0x103 ∧
    at4 (lsuGo (withAcc (.store 1) 0x103 0xAABBCCDD 0 s)) = [0, 1, 2, 3, 0xDD, 0] ∧
    at4 (lsuGo (withAcc (.store 2) 0x102 0xAABBCCDD 0 s)) = [0, 1, 2, 0xDD, 0xCC, 0] ∧
    at4 (lsuGo (withAcc (.store 4) 0x100 0xAABBCCDD 0 s)) = [0, 0xDD, 0xCC, 0xBB, 0xAA, 0] ∧
    (let t := lsuGo (withAcc .swp 0x100 7 0 s); t.dword k9 0x100 = 7 ∧ ilk t = [some 0x04030201]) ∧
    (let t := lsuGo (withAcc .ldadd 0x100 0xFBFCFDFF 0 s); t.dword k9 0x100 = 0 ∧ ilk t = [some 0x04030201]) ∧
    (let t := lsuGo (withAcc .cas 0x100 9 0x04030201 s); t.dword k9 0x100 = 9 ∧ ilk t = [some 0x04030201]) ∧
    (let t := lsuGo (withAcc .cas 0x100 9 0x04030200 s); t.dword k9 0x100 = 0x04030201 ∧ ilk t = [some 0x04030201]) := by
  decide +kernel

/-- Misaligned; the first address above DMEM with no window; an escalated rig raises nothing. -/
theorem witness_FailedAccessRaisesBusError :
    placeSpan upField k9 0x40000 4 false = .t11 1 ∧
    ((lsuGo (withAcc (.load 4 false) 0x102 0 0)).rig k9).raised = [⟨0x09, 1, 7, 3, 0x102⟩] ∧
    ilk (lsuGo (withAcc (.load 4 false) 0x102 0 0)) = [none] ∧
    ((lsuGo (withAcc (.store 4) 0x40000 0 0)).rig k9).raised = [⟨0x09, 1, 7, 3, 0x40000⟩] ∧
    ((lsuGo (withAcc (.store 2) 1 0 0 (upField.modRig k9 fun r => { r with run := .escalated }))).rig k9).raised = [] := by
  decide +kernel

/-- An I/O access that is the oldest one. -/
def withIo (write : Bool) (a data : Word) (s : State := upField) : State :=
  s.modRig k9 fun r => { r with iouQ := [⟨write, a, data, 3, 7, false⟩], iouIlk := if write then [] else [⟨3, 9, false, none⟩] }
def iouGo (s : State) : State := nextOf (exec (.iouAccessComplete f9 t100) s)

/-- A read of the identification word of page 3; a write of its last register word; the first address past page 3. -/
theorem witness_IouAccessesComplete :
    let a := pgTk k9 1 + 0x060
    awake upField = true ∧ ioValid 0x3FFC = true ∧ ioValid 0x4000 = false ∧ ioValid 0x3FFE = false ∧
    kindOf a = some .tile1 ∧ attrMask .tile1 (offOf a) .w1c = 0 ∧ attrMask .tile1 (offOf a) .rwH = 0 ∧ stageMask a = 0 ∧
    ((iouGo (withIo false 0x3000 0)).rig k9).iouIlk.map (·.val) = [some (regRead upField (pgTk k9 3) false)] ∧
    (iouGo (withIo true 0x1060 0xFFFFFFFF)).word a = 0x77777 ∧
    ((iouGo (withIo true 0x4000 1)).rig k9).raised = [⟨0x09, 2, 7, 3, 0x4000⟩] ∧
    ((iouGo (withIo false 0x3FFE 1)).rig k9).raised = [⟨0x09, 2, 7, 3, 0x3FFE⟩] := by decide +kernel

/-- A FOLD whose next byte is byte 14 of a line, with three bytes left: a beat of two, then the last one. -/
theorem witness_FoldBeatsFoldTheirBytes :
    let s := (withBytes 0x10E [0x31, 0x32, 0x33]).modRig k9 fun r => { r with
      fold := { r.fold with busy := true, alg := 1, acc := 0xFFFFFFFF, ptr := 0x10E, rem := 3 } }
    let t := nextOf (exec (.foldBeatRead f9 t100) s); let u := nextOf (exec (.foldBeatRead f9 t100) t)
    placeIn (s.rig k9).fold.wins (settleRig k9 s) k9 0x10E false = .dmem 0x10E ∧ bayPart s k9 0x10E = .outside ∧
    wins (settleRig k9 s) k9 4 ⟨0, 1, qosM4 s k9⟩ = true ∧ (t.rig k9).fold.ptr = 0x110 ∧ (t.rig k9).fold.rem = 1 ∧ (t.rig k9).fold.busy = true ∧
    (u.rig k9).fold.busy = false ∧ sock u k9 0x075 = 0x111 ∧ sock u k9 0x076 = 0 ∧
    sock u k9 0x072 ^^^ 0xFFFFFFFF = 0x884863D2 := by decide +kernel

theorem witness_TileMemoryCommands :
    let s := (upField.set (p0 k9) TP0.IF_ADDR_BUNDLE 4095).setWord (p0 k9 + TP0.IF_DATA0_DATA.off) 0x55
    let t := nextOf (exec (.ifs f9 t100 true) s)
    let e := (upField.set (p0 k9) TP0.ECC_CONTROL_INJ_BANK 7)
    let pat := (((upField.set (p0 k9) TP0.ECC_CONTROL_PATROL_EN 1).set (p0 k9) TP0.ECC_CONTROL_SCRUB_EN 1).setWordErr k9 0x3FFFC 1)
    let pat := { pat with m := { pat.m with patrol := [(8 * k9 + 7, 2047)] } }
    let u := nextOf (exec (.patrolScrub f9 t100 7) pat)
    tileReady upField 9 100 = true ∧ imemAt t k9 4095 = 0x55 ∧ t.get (p0 k9) TP0.IF_ADDR_BUNDLE = 0 ∧
    imemErrAt s k9 4095 = 0 ∧ ifBundle (nextOf (exec (.ifl f9 t100 false) t)) k9 = imemAt t k9 0 ∧
    lookup (8, false) (nextOf (exec (.injCe f9 t100) e)).m.inject k9 = (7, false) ∧
    lookup (8, false) (nextOf (exec (.injUe f9 t100) e)).m.inject k9 = (7, true) ∧
    bitAt (pat.get (p0 k9) TP0.BANK_STATUS_IN_SERVICE) 7 = true ∧ u.wordErr k9 0x3FFFC = 0 ∧
    lookup 0 u.m.patrol (8 * k9 + 7) = 0 := by decide +kernel

/-- Behind an IFS that waits for a halted matrix; running again, each is served in order. -/
theorem witness_ImemAccessesWait :
    let s := (upField.set (pgTk k9 1) HDR.PAGE_STATUS_HALTED 1).setWord (p0 k9 + TP0.IF_DATA0_DATA.off) 0x55
    let t := nextOf (exec (.ifl f9 t100 false) (nextOf (exec (.ifs f9 t100 false) s)))
    let u := nextOf (exec (.ifl f9 t100 true) (t.set (pgTk k9 1) HDR.PAGE_STATUS_HALTED 0))
    fetchGranted s k9 = false ∧ fetchGranted upField k9 = true ∧ ifWaits upField k9 = [] ∧
    (ifWaits t k9).map (fun q => (q.addr, q.store)) = [(0, some 0x55), (0, none)] ∧ imemAt t k9 0 = 0 ∧
    ifWaits u k9 = [] ∧ imemAt u k9 0 = 0x55 ∧ ifBundle u k9 = 0x55 ∧ u.get (p0 k9) TP0.IF_ADDR_BUNDLE = 1 := by decide +kernel

/-! ### Exceptions, events and modes -/

/-- The rig would issue, and an exception is due. -/
def takes (s : State) : Option Choice :=
  let s1 := settleRig k9 s
  if canRun s1 k9 && !budgetSpent s1 k9 && !cxdoneWaits s1 k9 then due s1 k9 else none
def enter (s : State) : State := nextOf (exec (.handlerEntry f9 t100) s)

/-- A trap, a bus error and a reserved move at mask 0; the soft event at level 1. -/
theorem witness_HandlerEntrySavesAndEnters :
    let s := (running [oneMove 0x305 0x000] (upField.set (p0 k9) TP0.ENTRY_BUNDLE 4095))
    let trap := s.modRig k9 fun r => { r with trapDue := some (255, 4094), pc := 0 }
    let bus := s.modRig k9 fun r => { r with raised := [⟨0x09, 1, 7, 0, 0x102⟩], slot := 70000 }
    let soft := (s.set (p0 k9) TP0.EVENTS_SOFT 1).set (p0 k9) TP0.EVENTS_LV_SOFT 1
    takes trap = some (.trap 255 4094) ∧ takes bus = some (.bus none) ∧ takes soft = some (.event 3 1) ∧
    (let t := enter trap
     bankGet t k9 TP0.X_CAUSE_CODE = 1 ∧ bankGet t k9 TP0.X_CAUSE_INFO = 255 ∧ bankGet t k9 TP0.X_EBA_BUNDLE = 4094 ∧
     bankGet t k9 TP0.X_ERA_A_ERA0 = 1 ∧ (t.rig k9).pc = 4095 ∧ curMask t k9 = 2) ∧
    (let t := enter bus
     bankGet t k9 TP0.X_CAUSE_CODE = 9 ∧ t.word (p0 k9 + TP0.X_EADDR_ADDR.off) = 0x102 ∧
     bankGet t k9 TP0.X_ETRIG_SLOTS = 0xFFFF ∧ curMask t k9 = 6) ∧
    (let t := enter soft
     bankGet t k9 TP0.X_CAUSE_CODE = 0x12 ∧ bankGet t k9 TP0.X_ESTAT_ASYNC = 1 ∧ t.on (p0 k9) TP0.EVENTS_SOFT = false) := by
  decide +kernel

/-- A trap that finds a load outstanding waits; the load's error response then replaces it, its continuation that of the trap (R524); a FOLD
in flight is stopped at its checkpoint. -/
theorem witness_HandlerEntryWaitsForAccesses :
    let s := (withAcc (.load 4 false) 0x102 0 0 (running [oneMove 0x305 0x000])).modRig k9 fun r => { r with
      trapDue := some (255, 4094), fold := { r.fold with busy := true, fptr := 0x10, frem := 9 } }
    let t := enter s; let u := enter (nextOf (exec (.lsuAccessComplete f9 t100) t))
    takes s = some (.trap 255 4094) ∧ (t.rig k9).taking = some (.trap 255 4094) ∧ (t.rig k9).lsuQ.length = 1 ∧ (t.rig k9).pc = 0 ∧
    takes (nextOf (exec (.lsuAccessComplete f9 t100) t)) = some (.trap 255 4094) ∧ (u.rig k9).taking = none ∧
    bankGet u k9 TP0.X_CAUSE_CODE = 9 ∧ bankGet u k9 TP0.X_EBA_BUNDLE = 1 ∧ (u.rig k9).fold.resume = true := by decide +kernel

theorem witness_FaultAtOrBelowMaskEscalates :
    let s := ((running [oneMove 0x305 0x000]).modRig k9 fun r => { r with trapDue := some (5, 0) }).set (p0 k9)
      (TP0.X_MLEVEL_LEVEL.at 0) 2
    let t := enter s
    takes s = some (.trap 5 0) ∧ (t.rig k9).run = .escalated ∧ t.on (p0 k9) HDR.PAGE_STATUS_HALTED = true ∧
    curMask t k9 = 2 ∧ t.m.x.escs.length = 1 := by decide +kernel

theorem witness_EretResumesTheContinuation :
    let s := (upField.setWord (p0 k9 + TP0.X_ERA_A_ERA0.off) (BitVec.ofNat 32 (4095 + 65536 * 17))).set (p0 k9)
      (TP0.X_ESTAT_PMLEVEL.at 0) 5
    let t := arrive s k9 ⟨3, 0, .eret⟩
    bankGet s k9 TP0.X_ESTAT_IN_REPEAT = 0 ∧ (t.rig k9).pc = 4095 ∧ curMask t k9 = 5 ∧
    (t.rig k9).pend = [⟨1, 17, .cont⟩, ⟨2, 0, .cont⟩] := by decide +kernel

theorem witness_EventAndModeCommands :
    let p := p0 k9
    let s := ((upField.atTime (2 ^ 32 + 5)).set p TP0.TIMER_CMP_CMP 4).set p TP0.TILE_CTL_TIMER_ARM 1
    let t := nextOf (exec (.timerEvent f9 t100) s)
    let split := nextOf (exec (.pmodeWrite f9 t100 true) upField)
    t.m.wtime = 2 ^ 33 + 4 ∧ t.on p TP0.EVENTS_TIMER = true ∧ t.on p TP0.TILE_CTL_TIMER_ARM = false ∧
    (nextOf (exec (.raise f9 t100) upField)).on p TP0.EVENTS_SOFT = true ∧
    upField.on p HDR.PAGE_STATUS_HALTED = true ∧ isSplit upField k9 = false ∧ isSplit split k9 = true ∧
    (nextOf (exec (.pmodeWrite f9 t100 false) upField)) = upField ∧
    (let r := upField.set p HDR.PAGE_STATUS_HALTED 0; let u := nextOf (exec (.pmodeWrite f9 t100 true) r)
     isSplit u k9 = false ∧ (u.word (p + 0x00C)).getLsbD 0 = true) := by decide +kernel

theorem witness_EscalatedStopsAreReleased :
    let s := upField.modRig k9 fun r => { r with run := .escalated }
    let on := s.set pgCseq CSEQ.CSEQ_STATUS_STATE 1
    let rep := { upField with m := { upField.m with reports := [(9, [1, 2])] } }
    reachable upField (pgFctl 9) = true ∧ cseqStopped s = true ∧ cseqStopped on = false ∧
    ((nextOf (exec (.escRelease f9 100) s)).rig k9).run = .idle ∧
    (nextOf (exec (.escRelease f9 100) on)).m.releases = [k9] ∧ nextOf (exec (.escRelease f9 100) upField) = upField ∧
    (let t := nextOf (exec (.escHead2Read f9) rep)
     lookup [] t.m.reports 9 = [2] ∧ t.get (pgFctl 9) FCTL.ESC_LEVEL_LEVEL = 1) ∧
    lookup [] (nextOf (exec (.escHead2Read f9) upField)).m.reports 9 = [] := by decide +kernel

/-! ### The management port, the test port, staging and the hoist -/

/-- The spec's worked STATUS record: tag 5 answered 3, a frame aborted before, awake. -/
def workedPort : State := { up with port := { up.port with
  lastTag := 5, lastResult := 0, lastData := 3, rejTag := 5, rejReason := 0x82, rejSeq := 1 } }

/-- The frames of the worked example: CRC of READ and of STATUS. -/
theorem test_frame_crcs : portCrc [0x10, 0x05, 0x1C, 0x00, 0x20, 0xD8, 0x85] = 0xD1A0 ∧ portCrc [0x01, 0x06] = 0x4EF8 := by
  decide +kernel

theorem witness_StatusSendsTheRecord : portOpen workedPort = true ∧
    ((nextOf (exec (.status 6) workedPort)).port.miso.drop 4).take 14 = [5, 0, 3, 0, 0, 0, 5, 0x82, 1, 2, 0, 0, 0, 0] := by
  decide +kernel

/-- The worked read of PAGE_GENERATION; an address between words; a page that a powered-off field hides. -/
theorem witness_ReadTakenAndCompleted :
    let s := ((setTileState 23 193 2 (setFieldState 23 3 (up.setBit2 pgMpwr MPWR.FIELD_RAIL_LO_RAIL MPWR.FIELD_RAIL_HI_RAIL 23 true))).set
      (pgTile 23 193 0) HDR.PAGE_GENERATION_GEN 3)
    let t := nextOf (exec (.read 5 0x85D820001C) s); let u := nextOf (exec .commandComplete t)
    let e := nextOf (exec (.read 5 0x85D820001D) s)
    portOpen s = true ∧ s.port.cmd = none ∧ addrSingle 0x85D820001C = true ∧ kindOf 0x85D820001C = some .tile0 ∧
    t.port.cmd = some (.read 0x85D820001C) ∧ t.port.lastResult = 1 ∧ u.port.lastData = 3 ∧ u.port.cmd = none ∧
    e.port.cmd = some (.answer 0x80) ∧ (nextOf (exec .commandComplete (nextOf (exec (.read 5 0x85D820001C) up)))).port.lastResult = 0x81 ∧
    (let b := nextOf (exec (.read 6 0x85D8200018) t); b.port.rejReason = 0x85 ∧ b.port.cmd = t.port.cmd) ∧
    (let f := nextOf (exec .commandComplete e)
     f.port.lastResult = 0x80 ∧ f.get pgMast MAST.CNT_ERRRESP_COUNT = 1 ∧
     (nextOf (exec .commandComplete (e.set pgMast MAST.CNT_ERRRESP_COUNT 0xFFFF))).get pgMast MAST.CNT_ERRRESP_COUNT = 0xFFFF) := by
  decide +kernel

/-- A live word of tile page 1; a staged word of tile page 3, unlocked and locked. -/
theorem witness_WritesApplyByAttribute :
    let a : BitVec 40 := BitVec.ofNat 40 (pgTk k9 1 + 0x060); let g : BitVec 40 := BitVec.ofNat 40 (pgTk k9 3 + TP3.GATE_ENTRY.off)
    let w := fun (a : BitVec 40) (s : State) => nextOf (exec (.registerWrite .management a 0xFFFFFFFF) s)
    let locked := upField.set (pgTk k9 3) HDR.STAGE_STATUS_LOCKED 1
    let l := w g locked; let t := w g upField; let wr := nextOf (exec (.write 9 a 0xFFFFFFFF) upField)
    kindOf g.toNat = some .tile3 ∧ reachable upField (pageOf g.toNat) = true ∧ 0x40 ≤ offOf a.toNat ∧ 0x40 ≤ offOf g.toNat ∧
    stageMask a.toNat = 0 ∧ stageMask g.toNat ≠ 0 ∧
    attrMask .tile3 (offOf g.toNat) .rwL ||| attrMask .tile3 (offOf g.toNat) .w1c ||| attrMask .tile3 (offOf g.toNat) .rwH = 0 ∧
    (w a upField).word a.toNat = 0x77777 ∧ wr.port.cmd = some (.write a.toNat 0xFFFFFFFF) ∧ wr.port.lastTag = 9 ∧ (nextOf (exec .commandComplete wr)).word a.toNat = 0x77777 ∧
    t.shadowWord g.toNat = stageMask g.toNat ∧ t.word g.toNat = 0 ∧ t.on (pgTk k9 3) HDR.STAGE_STATUS_DIRTY = true ∧
    l.shadow = locked.shadow ∧ (l.word (pgTk k9 3 + 0x00C)).getLsbD 2 = true := by decide +kernel

/-- The worked aborted READ: 40 edges; a wrong CRC; an unknown command of one byte; one edge too many. -/
theorem witness_RejectedFramesCountOnly :
    let rd : List Byte := [0x10, 5, 0x1C, 0x00, 0x20, 0xD8, 0x85, 0xD1, 0xA0]
    let t := nextOf (exec (.rejectedFrame ⟨40, rd.take 5⟩ []) up)
    judge up ⟨40, rd.take 5⟩ = .rejected 2 ∧ judge up ⟨72, rd⟩ = .taken ∧ judge up ⟨72, rd.take 8 ++ [0]⟩ = .rejected 1 ∧
    judge up ⟨73, rd⟩ = .rejected 3 ∧ judge up ⟨8, [0x00]⟩ = .rejected 4 ∧ judge up ⟨7, [0x10]⟩ = .rejected 2 ∧
    t.port.rejTag = 5 ∧ t.port.rejReason = 0x82 ∧ t.port.rejSeq = 1 ∧ t.get pgMast MAST.CNT_ABORT_COUNT = 1 ∧
    (nextOf (exec (.rejectedFrame ⟨8, [0]⟩ []) up)).port.rejReason = 4 ∧ portOpen up = true ∧ judge up ⟨0, []⟩ = .noFrame ∧
    (nextOf (exec (.rejectedFrame ⟨72, rd⟩ []) up)).port.cmd = some (.read 0x85D820001C) ∧ portOpen { up with power := { up.power with standby := false } } = false ∧
    (nextOf (exec .cntClear t)).get pgMast MAST.CNT_ABORT_COUNT = 0 ∧ alertDriven up = false ∧
    (let h := nextOf (exec (.alertHeldLow true) up); h.on pgMast MAST.ALERT_PIN_HELD_LOW = true ∧
      (nextOf (exec (.alertHeldLow false) h)).pins.alertPulledLow = false) := by decide +kernel

theorem witness_TestPortInstructions :
    let ir := fun (t : State) => t.get pgMast MAST.TAP_STATUS_IR
    let trst := fun (s : State) => { s with pins := { s.pins with trstN := true } }
    let rs := trst State.reset; let up := trst up; let latch := fun (t : State) => t.tap.latch
    let b := nextOf (exec (.samplePreload []) rs)
    rs.power.standby = true ∧ rs.tap.extest = false ∧ rs.pins.trstN = true ∧ moored rs = true ∧ moored up = false ∧
    b.tap.sel = .boundary ∧ ir b = 1 ∧ ir (nextOf (exec (.idcode []) b)) = 2 ∧ ir (nextOf (exec (.bypass 15 []) b)) = 15 ∧
    (nextOf (exec (.extest none) rs)).tap.extest = true ∧ (nextOf (exec (.extest none) up)).tap.sel = .bypass ∧
    (nextOf (exec (.extest none) up)).on pgMast MAST.TAP_STATUS_EXTEST_REFUSED = true ∧
    latch (nextOf (exec (.updateDr 0x1FFFFF 0) b)) = 0x1FFFFF ∧ (nextOf (exec (.updateDr 0x1FFFFF 0) b)).tap.tdo.length = 21 ∧
    captureDr 0 (nextOf (exec (.trstN true []) b)) = (32, 0x1CAE09B3) ∧ captureDr 0 (nextOf (exec (.extest none) up)) = (1, 0) := by
  decide +kernel

/-- A wafer with a staged write in the gates of tile 100. -/
def staged : State := nextOf (exec (.registerWrite .management (BitVec.ofNat 40 (pgTk k9 3 + TP3.GATE_ENTRY.off)) 0xFFF) upField)

theorem witness_HoistCommands :
    let t := nextOf (exec .arm staged); let r := nextOf (exec .check t)
    let armed := (nextOf (exec .checkEnd (nextOf (exec .checkEnd t))))
    hoistState staged = 0 ∧ hoistState t = 1 ∧ t.m.hoist.set = [pgTk k9 3] ∧ t.get pgHoist HOIST.SET_PAGES_COUNT = 1 ∧
    hoistState r = 1 ∧ r.on pgHoist HOIST.HOIST_STATUS_REFUSED = true ∧
    (let d := nextOf (exec .abort t); hoistState d = 0 ∧ d.get pgHoist HOIST.HOIST_STATUS_VERDICT = 4) ∧
    nextOf (exec .disarm t) = t ∧ nextOf (exec .abort staged) = staged ∧
    hoistState armed = hoistState (nextOf (exec .checkEnd t)) := by decide +kernel

/-- The checker has judged its set: with an offence, and without. -/
def judgedState (offences : Nat) (arming : Bool) : State :=
  let s := nextOf (exec (if arming then .arm else .check) staged)
  ({ s with m := { s.m with hoist := { s.m.hoist with judged := true, todo := [] } } }).set pgHoist HOIST.OFFENCES_COUNT offences

theorem witness_CheckEndAndFifoRead :
    let go := fun (s : State) => nextOf (exec .checkEnd s)
    let v := fun (s : State) => s.get pgHoist HOIST.HOIST_STATUS_VERDICT
    let late := ((judgedState 0 true).set pgHoist HOIST.HOIST_WHEN_MODE 0).set2 pgHoist HOIST.HOIST_WTIME_LO_WTIME HOIST.HOIST_WTIME_HI_WTIME 63
    let edge := ((judgedState 0 true).set pgHoist HOIST.HOIST_WHEN_MODE 0).set2 pgHoist HOIST.HOIST_WTIME_LO_WTIME HOIST.HOIST_WTIME_HI_WTIME 64
    (∀ p ∈ (judgedState 0 true).m.hoist.set, pageOf p = p) ∧ hoistState (judgedState 1 false) = 1 ∧
    v (go (judgedState 1 false)) = 2 ∧ v (go (judgedState 0 false)) = 1 ∧ late.on pgHoist HOIST.HOIST_WHEN_MODE = false ∧
    v (go late) = 3 ∧ hoistState (go edge) = 2 ∧
    (let s := { upField with m := { upField.m with hoist := { upField.m.hoist with fifo := [1, 2] } } }
     hoistState s = 0 ∧ (nextOf (exec .fifoHiRead s)).m.hoist.fifo = [2]) := by decide +kernel

/-- A check of CSEQ with RECROSS_LIMIT 0 staged, which rule 0x01 refuses (R312). -/
def badCheck : State := nextOf (exec .check (nextOf (exec (.registerWrite .management (BitVec.ofNat 40 (pgCseq + 0x054)) 0) upField)))

/-- With an entry and room; with a full FIFO, from which a read then lets the entry in and the check end; a clean set. -/
theorem witness_CheckEndPausesOnAFullFifo :
    let go := fun (s : State) => nextOf (exec .checkEnd s)
    let v := fun (s : State) => s.get pgHoist HOIST.HOIST_STATUS_VERDICT
    let e : BitVec 64 := BitVec.ofNat 64 (1 * 2 ^ 56 + pgCseq + 0x054)
    let full := { badCheck with m := { badCheck.m with hoist := { badCheck.m.hoist with fifo := List.replicate 64 0 } } }
    let clean := nextOf (exec .check upField)
    hoistState badCheck = 1 ∧ badCheck.m.hoist.judged = false ∧ badCheck.m.hoist.set = [pgCseq] ∧
    checkEntries [pgCseq] badCheck = [e] ∧ (go badCheck).m.hoist.fifo = [e] ∧ v (go badCheck) = 2 ∧ hoistState (go badCheck) = 0 ∧
    (let p := go full; let r := nextOf (exec .fifoHiRead p)
     hoistState p = 1 ∧ p.on pgHoist HOIST.HOIST_STATUS_PAUSED = true ∧ p.m.hoist.todo = [e] ∧ go p = p ∧
     r.m.hoist.fifo = List.replicate 63 0 ++ [e] ∧ r.m.hoist.todo = [] ∧ r.m.hoist.judged = true ∧ v (go r) = 2) ∧
    checkEntries clean.m.hoist.set clean = [] ∧ clean.get pgHoist HOIST.OFFENCES_COUNT = 0 ∧ v (go clean) = 1 ∧
    hoistState up = 0 ∧ go up = up := by decide +kernel

theorem witness_HoistInstantAppliesTheSet :
    let s := (nextOf (exec .checkEnd ((judgedState 0 true).set pgHoist HOIST.HOIST_WHEN_MODE 1)))
    let w := pgTk k9 3 + TP3.GATE_ENTRY.off; let t := nextOf (exec .hoistInstant s)
    awake s = true ∧ (s.m.hoist.armed.map (·.slack)) = some true ∧ cseqState s = 0 ∧ s.m.x.openReq = false ∧
    s.m.hoist.set = [pgTk k9 3] ∧ reachable s (pgTk k9 3) = true ∧ s.word w = 0 ∧ t.word w = 0xFFF ∧ t.m.wtime = 64 ∧
    hoistState t = 0 ∧ t.on (pgTk k9 3) HDR.STAGE_STATUS_DIRTY = false ∧
    t.get2 pgHoist HOIST.LAST_INSTANT_LO_WTIME HOIST.LAST_INSTANT_HI_WTIME = 64 := by decide +kernel

theorem witness_DiscardAndHalt :
    let page := BitVec.ofNat 40 (pgTk k9 3); let p := BitVec.ofNat 40 (p0 k9)
    let t := nextOf (exec (.discard page) staged); let run := running []; let req := nextOf (exec (.haltReq p true) run)
    staged.on (pgTk k9 3) HDR.STAGE_STATUS_LOCKED = false ∧ reachable staged (pgTk k9 3) = true ∧ awake staged = true ∧
    t.on (pgTk k9 3) HDR.STAGE_STATUS_DIRTY = false ∧ t.shadow = [] ∧
    req.on (p0 k9) HDR.PAGE_CONTROL_HALT_REQ = true ∧ req.on (p0 k9) HDR.PAGE_STATUS_HALTED = false ∧ atBoundary req k9 = true ∧
    (nextOf (exec (.haltPointReached p) req)).on (p0 k9) HDR.PAGE_STATUS_HALTED = true ∧
    (nextOf (exec (.haltReq p true) upField)).on (p0 k9) HDR.PAGE_STATUS_HALTED = true ∧
    (nextOf (exec (.haltReq p false) (nextOf (exec (.haltPointReached p) req)))).on (p0 k9) HDR.PAGE_STATUS_HALTED = false := by
  decide +kernel

/-! ### Power -/

def rail (f : FieldId) (s : State) : State := s.setBit2 pgMpwr MPWR.FIELD_ON_LO_ON MPWR.FIELD_ON_HI_ON f.val true

/-- With a memory byte, a rig and a rail on before; the field's OPERATION becomes 0x40. -/
theorem witness_MooringLeavesTheStandbyDomain :
    let s := rail 9 (withBytes 5 [9])
    awake s = true ∧ s.tap.extest = false ∧ s.port.cmd = none ∧ fieldRail s 9 = true ∧ reachesRegulator s (.field 9) = true ∧
    [Instr.moorReq, .moor 7, .resetN none].all (fun c => let t := nextOf (exec c s)
      pwrState t == 0 && decide (t.m = MainSt.reset) && !fieldRail t 9 && lookup 0 t.power.operation 9 == 0x40) = true ∧
    (nextOf (exec (.moor 7) s)).port.cmd = some (.answer 0) ∧ (nextOf (exec (.resetN none) s)).pins.resetN = false ∧
    (let w : PmbWait := ⟨.field 9, .softOff, 0⟩
     w.off = true ∧ pwrState (nextOf (exec .moorReq { s with power := { s.power with pmbWaits := [w] } })) = 3) := by
  decide +kernel

/-- A moored wafer: RESET_N high at reset; with an alarm of one second; with a wake held while RESET_N is low. -/
theorem witness_WakeSourcesStartAWake :
    let rs := State.reset
    let alarm := { ((rs.set pgMpwr MPWR.RTC_ALARM_LO_ALARM 1).set pgMpwr MPWR.RTC_ALARM_HI_ALARM_EN 1) with
      power := { rs.power with rtc := 1, alarmDue := true } }
    let held := { rs with power := { rs.power with heldWakes := [.spi] }, pins := { rs.pins with resetN := false } }
    let lost := rs.set pgDmap DMAP.MAP_STATUS_MAP_LOST 1
    let ok := fun (c : Instr) (w : WakeSource) (s : State) => let t := nextOf (exec c s)
      pwrState t == 1 && decide (t.power.railStep = some .main) && t.on pgMpwr (causeField w) && lookup 0 t.power.operation 68 == 0x80
    moored rs = true ∧ rs.pins.resetN = true ∧ rs.power.moorPending = none ∧ rs.port.cmd = none ∧
    rs.on pgDmap DMAP.MAP_STATUS_MAP_LOST = false ∧ moored held = true ∧
    (ok (.wakeN []) .pin rs && ok (.wake 3 []) .spi rs && ok (.rtcAlarm []) .rtc alarm && ok (.resetNRise []) .spi held) = true ∧
    nextOf (exec (.rtcAlarm []) rs) = rs ∧ (nextOf (exec (.rtcAlarm []) alarm)).power.alarmDue = false ∧
    (let t := nextOf (exec (.wakeN []) lost)
     pwrState t = 0 ∧ t.on pgMpwr (causeField .pin) = true ∧ t.power.operation = rs.power.operation) := by decide +kernel

/-- A status word that shows power good and not OFF: bits 11 and 6 clear (log 5). -/
theorem witness_WakePhasesEnd :
    let step := fun (ph : WakePhase) (r : Option Rail) (s : State) => { s with power := { s.power with phase := ph, railStep := r } }
    let waking := State.reset.set pgMpwr MPWR.PWR_STATE_STATE 1
    let poll := fun (s : State) => nextOf (exec (.railStatusPoll (.word 0) true) s)
    let base := (State.reset.set pgMpwr MPWR.PWR_STATE_STATE 2).set pgMpwr MPWR.PLL_STATUS_DISTRIBUTING 1
    let f := step .none (some (.field 9)) (rail 9 base)
    let l := step .none (some (.landing 11)) (base.set pgMpwr MPWR.LANDING_ON_ON 0x800)
    let waking := waking.set pgMpwr MPWR.LANDING_ON_ON 0
    let mapNone := { waking with map := { waking.map with a0 := .erased, b0 := .erased } }
    statusOff 0 = false ∧ statusGood 0 = true ∧ statusGood 0x800 = false ∧ statusOff 0x40 = true ∧
    (poll (step .mainRail (some .main) waking)).power.phase = .pll ∧
    fieldOn f 9 = true ∧ clocked f = true ∧ recsA f = [] ∧
    landingOn l 11 = true ∧
    (let t := nextOf (exec .powerGoodTimeout f)
     fieldState t 9 = 5 ∧ t.bit2 pgMpwr MPWR.RAIL_FAULT_LO_FAULT MPWR.RAIL_FAULT_HI_FAULT 9 = true ∧ lookup 0xFF t.power.operation 9 = 0) ∧
    (nextOf (exec (.pllLocked ⟨true, 0xEF4018⟩) (step .pll none waking))).power.phase = .reconciling ∧
    (let t := nextOf (exec .pllNoLock (step .pll none waking)); pwrState t = 0 ∧ t.on pgMpwr MPWR.SIDEBAND_PLL_NO_LOCK = true) ∧
    reconcile (step .reconciling none mapNone) = none ∧
    (let t := nextOf (exec .reconciled (step .reconciling none mapNone))
     pwrState t = 0 ∧ t.on pgDmap DMAP.MAP_STATUS_MAP_LOST = true) ∧
    (let t := nextOf (exec .reconciled (step .reconciling none waking)); awake t = true ∧ clocked t = true) := by decide +kernel

theorem witness_SidebandTransactions :
    let on := rail 9 upField
    let wait := fun (n : Nat) (p : PmbPurpose) => { on with power := { on.power with pmbWaits := [⟨.field 9, p, n⟩] } }
    let go := fun (r : RetryReply) (s : State) => nextOf (exec (.pmbusRetry r []) s); let ack : RetryReply := .status 0 true
    (go .noAck (wait 1 .visit)).power.pmbWaits = [⟨.field 9, .visit, 2⟩] ∧
    (let t := go .noAck (wait 2 .visit); t.power.silentRails = [.field 9] ∧ t.power.pmbWaits = [] ∧
      t.bit2 pgMpwr MPWR.RAIL_FAULT_LO_FAULT MPWR.RAIL_FAULT_HI_FAULT 9 = true) ∧
    (let t := go .noAck (wait 2 .tripOff); t.m.tripHeld = [9] ∧ fieldRail t 9 = true) ∧
    (let t := go ack (wait 2 .visit); t.power.pmbWaits = [] ∧
      lookup 0 t.power.vout 9 = voutWord on (.field 9) (600 + 5 * on.get (pgFpwr 9) FPWR.LOOP_STATUS_VDEMAND)) ∧
    (let t := go ack (wait 0 .softOff); fieldRail t 9 = false ∧ lookup 0xFF t.power.operation 9 = 0x40) ∧
    (let t := go ack (wait 0 .tripOff); fieldRail t 9 = false ∧ lookup 0xFF t.power.operation 9 = 0) ∧
    (let t := nextOf (exec (.sidebandRetry []) (wait 0 .softOff)); t.power.pmbWaits.length = 1 ∧ t.power.probeAt = none ∧
      lookup 0 t.power.sent (256 * 68 + 0x02) = 0x18) ∧
    (let t := nextOf (exec (.sdaLowIdle false) up); sidebandAbsent t = true ∧ t.on pgMpwr MPWR.SIDEBAND_SDA_STUCK = true ∧
      sidebandAbsent (nextOf (exec (.sidebandRetry []) t)) = false) ∧
    sidebandAbsent up = false ∧ reachesRegulator up (.field 9) = true ∧
    (nextOf (exec (.sclLowTimeout (.field 9)) up)).power.pmbWaits.map (·.rail) = [.field 9] ∧
    (nextOf (exec (.pmbAlertService (.field 9) (.word 0x8000)) up)).get pgLogb LOGB.NEXT_SEQ_SEQ = up.get pgLogb LOGB.NEXT_SEQ_SEQ + 1 ∧
    fieldRail on 9 = true ∧
    (let t := nextOf (exec (.pmbAlertService (.field 9) (.word 0x40)) on)
     fieldRail t 9 = false ∧ fieldOn t 9 = false ∧ fieldState t 9 = 5) := by decide +kernel

theorem witness_RailRequestsAct :
    let set9 := nextOf (exec (.fieldOnSet 9) up); let rs := State.reset
    let busy := { up with power := { up.power with railStep := some .main } }
    let on := rail 9 upField; let run := on.set pgCseq CSEQ.CSEQ_STATUS_STATE 1
    let lon := (up.set pgMpwr MPWR.LANDING_ON_ON 1).set pgMpwr MPWR.LANDING_STATUS_LANDING_RAIL 1
    up.power.phase = .none ∧ set9.power.railStep = some (.field 9) ∧ lookup 0 set9.power.operation 9 = 0x80 ∧
    lookup 0 set9.power.vout 9 = voutWord up (.field 9) (nominal (.field 9)) ∧
    landingOn (up.set pgMpwr MPWR.LANDING_ON_ON 0x7FF) 11 = false ∧ landingRail up 11 = false ∧
    (let t := nextOf (exec (.fieldOnSet 55) rs); t.power = rs.power ∧ fieldOn t 55 = true) ∧
    busy.power.railStep ≠ some (.field 9) ∧ awake busy = true ∧ fieldOn busy 9 = false ∧
    (let t := nextOf (exec (.fieldOnClear 9) on); fieldState t 9 = 0 ∧ fieldRail t 9 = false ∧ lookup 0 t.power.operation 9 = 0x40) ∧
    fieldOn run 9 = true ∧ fieldRail run 9 = true ∧ fieldState run 9 = 3 ∧ cseqStopped run = false ∧
    landingOn lon 0 = true ∧ landingRail (nextOf (exec (.landingOnClear 0) lon)) 0 = false := by decide +kernel

theorem witness_FieldLoopAndGuard :
    let p := pgFpwr 9; let on := rail 9 upField
    let al := fun (t : State) => t.get p FPWR.LOOP_STATUS_ALLOWANCE
    let w := fun (n : Nat) => (List.range 15).map fun i => if i < n then 300 else 301
    let cap := on.set p FPWR.POWER_CAP_CAP_W 300
    let hold := nextOf (exec (.droopTrip 9) cap)
    loopRuns cap 9 = true ∧ al (nextOf (exec (.allowanceRecompute 9 15 (w 7)) cap)) = 7 ∧
    al (nextOf (exec (.allowanceRecompute 9 3 (w 15)) cap)) = 3 ∧
    (let t := nextOf (exec (.allowanceRecompute 9 15 (w 0)) cap); al t = 1 ∧ t.on p FPWR.LOOP_STATUS_CAP_UNMET = true) ∧
    al hold = 1 ∧ hold.on p FPWR.LOOP_STATUS_DROOP_HOLD = true ∧ lookup 0 hold.m.droopUntil 9 = 1024 ∧
    al (nextOf (exec (.allowanceRecompute 9 15 (w 15)) hold)) = 1 ∧
    (nextOf (exec (.droopHoldEnd 9) hold)).on p FPWR.LOOP_STATUS_DROOP_HOLD = false ∧
    [0, 4, 20, 255].map (fun c => (nextOf (exec (.vdemandRecompute 9 c) on)).get p FPWR.LOOP_STATUS_VDEMAND) = [4, 4, 20, 36] ∧
    (nextOf (exec (.mastVisit 9 true) on)).get pgMpwr (MPWR.VSET_CODE.at 9) = on.get p FPWR.LOOP_STATUS_VDEMAND ∧
    hotSensor [7, 420, 8] = none ∧
    (let t := sampleAll [(9, [421])] [] on
     fieldState t 9 = 6 ∧ fieldRail t 9 = false ∧ fieldOn t 9 = false ∧ lookup 0xFF t.power.operation 9 = 0) := by decide +kernel

theorem witness_StandbyDomainClockAndSupply :
    let s := { up with power := { up.power with rtc := 0xFFFFFFFFFFFF, rtcLoWritten := 7 } }
    let off := nextOf (exec (.vstbyRemoved 0) (s.set pgDmap DMAP.MAP_STATUS_MAP_LOST 1))
    let on := nextOf (exec .vstbyApplied off)
    (nextOf (exec .rtcSecondTick s)).power.rtc = 0 ∧
    (let a := (up.set pgMpwr MPWR.RTC_ALARM_LO_ALARM 2).set pgMpwr MPWR.RTC_ALARM_HI_ALARM_EN 1
     let t := nextOf (exec .rtcSecondTick a); let u := nextOf (exec .rtcSecondTick t)
     t.power.alarmDue = false ∧ t.on pgMpwr MPWR.RTC_ALARM_HI_ALARM_EN = true ∧ u.power.alarmDue = true ∧
     u.on pgMpwr MPWR.RTC_ALARM_HI_ALARM_EN = false) ∧ (nextOf (exec (.rtcSecondsWrite 0x2FFFF) s)).power.rtc = 0xFFFF00000007 ∧
    (nextOf (exec .rtcSecondsLoRead s)).power.rtcHiLatch = 0xFFFF ∧ off.power.standby = false ∧ off.m = MainSt.reset ∧
    off.on pgDmap DMAP.MAP_STATUS_MAP_LOST = true ∧ mapA off = mapA s ∧ s.log.queue = [] ∧ pwrState off = 0 ∧
    on.power = PowerSt.reset ∧ moored on = true := by decide +kernel

/-- The spec's worked voltages of field 23: 0.710 V and 0.715 V with the exponent −12 of its VOUT_MODE (R103, R118). -/
theorem test_vout_words : voutWord up (.field 23) 710 = 2908 ∧ voutWord up (.field 23) 715 = 2929 := by decide +kernel

/-! ### The roster, the defect map and the logbook -/

/-- Field 9 under test with its tiles 0, 1 and 186 (row 7, column 4). -/
def testing : State := [0, 1, 186].foldl (fun s t => setTileState 9 t 1 s) (setFieldState 9 2 (rail 9 upField))

/-- With few records no field awaits its FIELD record, as the statements ask; an empty area has no erased slot listed. -/
theorem test_no_field_record_due : NoFieldRecordDue testing ∧ ∀ x ∈ mapA testing, NoneErased x :=
  ⟨fun f h => by have e : recsA testing = [] := by decide +kernel
                 simp [allTilesRecorded, e] at h, by unfold NoneErased; decide +kernel⟩

/-- A landing powered; an escalated stop of tile 100, a bank and a link on their way. -/
theorem witness_TestsAndEscalationsReachTheRoster :
    let p := nextOf (exec (.tileTestEnd 9 1 none []) testing); let q := nextOf (exec (.tileTestEnd 9 1 (some 7) []) testing)
    let l := (up.set pgMpwr MPWR.LANDING_STATUS_LANDING_RAIL 0x800).set (pgLanding 11 0) STRL.SCTL_MODE 1
    let ok := nextOf (exec (.landingSelfTestEnd 11 true) l)
    let with' := fun (e : Escalation) (s : State) => { s with m := { s.m with x := { s.m.x with escs := [e] } } }
    let esc := upField.modRig k9 fun r => { r with run := .escalated }; let run := upField.set pgCseq CSEQ.CSEQ_STATUS_STATE 1
    let reach := fun (e : Escalation) (s : State) => nextOf (exec (.escalationReachesRoster e) (with' e s))
    testing.get (pgTile 9 1 0) TP0.BANK_STATUS_IN_SERVICE ≠ 0 ∧ tileState p 9 1 = passedState testing 9 1 ∧
    p.get (pgRostf 9) ROSTF.BIST_RESULT_PASSED = 1 ∧ tileState q 9 1 = 5 ∧ tileRecorded q 9 1 = true ∧
    (mapA testing).map (·.slots) = some [] ∧ landingReady l 11 = false ∧ l.m.landingTested = [] ∧ landingReady ok 11 = true ∧
    ok.m.landingTested = [11] ∧ portUp ok 11 3 = false ∧ 3 < landingPorts ok 11 ∧
    tileState (reach (.stop f9 t100 0) esc) 9 100 = 8 ∧ tileState run 9 100 = 2 ∧ cseqStopped run = false ∧
    (reach (.bankUe f9 t100 7 262143) run).m.retire = [.bank 9 100 7] := by decide +kernel

/-- What BIST_TIMEOUT does to one tile of the field. -/
theorem witness_BistTimeout :
    fieldState testing 9 = 2 ∧ tileState testing 9 186 = 1 ∧
    (let t := timeoutTile 9 testing 186; tileState t 9 186 = 5 ∧ bitAt (t.get pgMast MAST.ALERT_CAUSE) acTest = true) := by
  decide +kernel

/-- The spec's worked repair: tile (7, 4) fails, and of the spares of its row column 24 comes into use (R151, R152). -/
theorem test_spare_repair :
    let s := (List.range 26).foldl (fun s c => setTileState 9 (tileAt 7 c) (if c = 4 then 1 else if c < 24 then 2 else 4) s) testing
    let t := nextOf (exec (.tileTestEnd 9 186 (some 1) []) s)
    tileState t 9 186 = 5 ∧ tileState t 9 (tileAt 7 24) = 2 ∧ tileState t 9 (tileAt 7 25) = 4 := by decide +kernel

/-- The spec's worked record: TILE (7, 11) of field 23 by request has the descriptor 0x125CEB00, BANK 3 of it 0x225CEB03. -/
theorem test_record_words :
    recDesc ⟨0, 1, 2, 23, tileLoc 193, 0, 0⟩ = 0x125CEB00 ∧ recDesc ⟨0, 2, 2, 23, bankLoc 193 3, 0, 0⟩ = 0x225CEB03 := by
  decide +kernel

theorem witness_DefectMapCommands :
    let d := fun (v : Nat) => nextOf (exec .retireCmd (up.set pgDmap DMAP.RETIRE_DESC_DESC v))
    let res := fun (t : State) => t.get pgDmap DMAP.RETIRE_STATUS_RESULT
    let one := d 0x125CEB00
    let none' := { up with map := { up.map with a0 := .erased, b0 := .erased } }
    up.on pgDmap DMAP.RETIRE_STATUS_BUSY = false ∧ descOk 0x125CEB00 = true ∧ descOk 0x125CFA00 = false ∧
    res (d 0x125CFA00) = 2 ∧ res one = 0 ∧ hasRec one 1 23 (tileLoc 193) = true ∧ mapA none' = none ∧
    res (nextOf (exec .retireCmd (none'.set pgDmap DMAP.RETIRE_DESC_DESC 0x125CEB00))) = 3 ∧
    res (nextOf (exec .retireCmd one)) = 1 ∧ recsA (nextOf (exec .retireCmd one)) = recsA one ∧
    (nextOf (exec (.mapSync ⟨true, 0xEF4018⟩) (State.reset.set pgDmap DMAP.MAP_STATUS_FLASH_FAULT 1))).on pgDmap
      DMAP.MAP_STATUS_FLASH_FAULT = false ∧
    (let u := { up with map := { up.map with following := true } }
     (mapA u).isSome = true ∧ (mapB u).isSome = true ∧ sameRecords (recsA u) (recsB u) = true ∧
     (nextOf (exec (.mapSync ⟨true, 0xEF4018⟩) u)).get pgDmap DMAP.MAP_STATUS_RECONCILE = 0) ∧
    (nextOf (exec (.readIndex 0) one)).get pgDmap DMAP.READ_WORD2_WORD = (recsA one).foldl (fun _ r => recBits r / 2 ^ 64 % 2 ^ 32) 0 ∧
    (nextOf (exec (.readIndex 4095) one)).get pgDmap DMAP.READ_WORD0_WORD = 0 := by decide +kernel

/-- A sector erased, the last one, an erase repeated; a record read back right, wrong, and completed late; a second fault. -/
theorem witness_FlashCommands :
    let r : MapRec := ⟨2, 1, 2, 23, tileLoc 193, 0, 0⟩
    let op := fun (f : FlashOp) => { up with map := { up.map with flashOp := some f } }
    (let w : WholeCopy := ⟨1, [], 56, false⟩
     (nextOf (exec (.flashBusyPoll true false) (op (.erase w 14 true)))).map.flashOp = some (.erase w 15 false) ∧
     (nextOf (exec (.flashBusyPoll true false) (op (.erase w 15 true)))).map.flashOp = some (.page w 0) ∧
     (nextOf (exec (.flashOpTimeout false) (op (.erase w 15 false)))).map.flashOp = some (.erase w 15 true)) ∧
    recsB (nextOf (exec (.flashBusyPoll true false) (op (.slot r false)))) = [r] ∧ r.ok = true ∧
    (let t := nextOf (exec (.flashBusyPoll false false) (op (.slot r false)))
     t.map.flashOp = some (.slot r true) ∧ recsB t = [] ∧ (mapB t).map (·.slots) = some [.torn]) ∧
    recsB (nextOf (exec (.flashBusyPoll false true) (op (.slot r false)))) = [r] ∧
    (let t := nextOf (exec (.flashOpTimeout false) (op (.slot r true)))
     t.map.flashStopped = true ∧ t.on pgDmap DMAP.MAP_STATUS_FLASH_FAULT = true ∧ t.map.flashOp = none) := by decide +kernel

/-- One event written to its slot, its number acknowledged, then the mark. -/
theorem witness_LogbookCommands :
    let q := raiseEvent { code := 0x1001, arg0 := 5 } up; let n := up.get pgLogb LOGB.NEXT_SEQ_SEQ
    let w := nextOf (exec .logbookWrite q); let r := nextOf (exec (.readSeq (BitVec.ofNat 32 n)) w)
    let m := nextOf (exec (.serviceReason 3) (nextOf (exec (.serviceMark 77) up)))
    q.log.queue.length = 1 ∧ w.log.queue = [] ∧ r.get pgLogb LOGB.READ_STATUS_STATE = 0 ∧
    r.get pgLogb (LOGB.READ_WORD_WORD.at 0) = n ∧
    (nextOf (exec (.readSeq 5) up)).get pgLogb LOGB.READ_STATUS_STATE = 1 ∧
    (nextOf (exec (.readSeq (BitVec.ofNat 32 n)) (setSlot w n (logSlot w n ^^^ 1 <<< 40)))).get pgLogb LOGB.READ_STATUS_STATE = 2 ∧
    unsaved w = 1 ∧
    (nextOf (exec (.ackSeq (BitVec.ofNat 32 (w.get pgLogb LOGB.ACK_SEQ_SEQ + 1))) w)).get pgLogb LOGB.ACK_SEQ_SEQ =
      w.get pgLogb LOGB.ACK_SEQ_SEQ + 1 ∧
    ((nextOf (exec (.ackSeq (BitVec.ofNat 32 (w.get pgLogb LOGB.ACK_SEQ_SEQ + 2))) w)).word (pgLogb + 0x00C)).getLsbD 18 = true ∧
    up.on pgLogb LOGB.SERVICE_REASON_MARKED = false ∧ m.on pgLogb LOGB.SERVICE_REASON_MARKED = true ∧ m.log.queue.length = 1 ∧
    nextOf (exec (.serviceMark 1) m) = m ∧ nextOf (exec (.serviceReason 1) m) = m := by decide +kernel

/-! ### Crossings and slack water -/

/-- Tile 100 of field 9 holds identifier 1000, alone in berth 5. -/
def lid1000 : State := (upField.set (pgTk k9 2) TP2.LID_ID 1000).set (pgTk k9 2) TP2.LID_VALID 1
def slot5 (budget : Nat) : Latched := ⟨5, 1000, 1, false, false, budget, 2000, 0x3F, 1, 0, 0, 0⟩
def run5 (budget : Nat) (damaged : Bool) : BerthRun := ⟨slot5 budget, true, damaged, false, false, false, false, false, false, false, 0⟩

/-- CSEQ in a state, with the berth running. -/
def crossing (st : Nat) (rs : List BerthRun) (run : RunState) (s : State := lid1000) : State :=
  ((s.set pgCseq CSEQ.CSEQ_STATUS_STATE st).modX fun x => { x with everOpened := true, berths := rs, closeAt := 50 }).modRig k9
    fun r => { r with run := run }

/-- A berth slot used, by its live words. -/
def usedSlot (s : State) : State :=
  berthSet 24191 BERTH.BUDGET_LO_BUNDLES 9 (berthSet 24191 BERTH.DESC_REPLAY 1 (berthSet 24191 BERTH.DESC_COUNT 1 (berthSet 24191 BERTH.DESC_BASE 1000 s)))

theorem witness_SequencerCommands :
    let go := fun (c : Instr) (s : State) => nextOf (exec c s)
    let o := go .opening ((go .step lid1000).set (p0 k9) TP0.CX_ENTRY_BUNDLE 4095)
    let c := crossing 1 [run5 9 false] .running; let susp := go (.suspend 24191) (usedSlot lid1000)
    cseqStopped lid1000 = true ∧ (go .step lid1000).m.x.openReq = true ∧ stopPending (go .step lid1000) = true ∧
    go .start c = c ∧ stopPending (go .stop c) = true ∧ go .stop lid1000 = lid1000 ∧
    (go .curNoLoRead (lid1000.set pgCseq CSEQ.CUR_NO_HI_NO 0xFFFF)).m.x.curNoHi = 0xFFFF ∧
    liveSlots lid1000 = [] ∧ cseqState o = 1 ∧ curNo o = firstNo lid1000 ∧ o.m.wtime = 1 ∧ (o.rig k9).run = .running ∧ (o.rig k9).pc = 4095 ∧
    (let d := go .ingressClose c; cseqState d = 2 ∧ d.m.wtime = 50) ∧
    (let d := go .drainLimit (crossing 2 [run5 9 false] .running); (d.rig k9).run = .stopped ∧
      50 + d.get pgCseq CSEQ.DRAIN_LIMIT_CYCLES = d.m.wtime) ∧
    (let d := go .recrossStage1Limit (crossing 4 [run5 9 false] .running); (d.rig k9).run = .stopped ∧ cseqState d = 2) ∧
    (slotOf (usedSlot lid1000) 24191).count = 1 ∧ susp.m.x.suspended = [24191] ∧ berthGet susp 24191 BERTH.OUTCOME_SUSPENDED = 1 ∧
    (go (.suspend 24191) (usedSlot c)).m.x.suspendReq = [24191] ∧
    stageOneEmpty (crossing 2 [run5 9 false] .running) = false ∧ (go (.resume 24191) susp).m.x.resumeReq = [24191] := by
  decide +kernel

/-- A RESUME judged at the opening: accepted, and refused once the berth's tile holds its identifier no more. -/
theorem witness_ResumeAtTheOpening :
    let go := fun (c : Instr) (s : State) => nextOf (exec c s)
    let s := go .start (go (.resume 24191) (go (.suspend 24191) (usedSlot lid1000)))
    let lost := s.set (pgTk k9 2) TP2.LID_VALID 0
    (liveSlots s).map Latched.berth = [24191] ∧ s.m.x.openReq = true ∧ berthGet s 24191 BERTH.OUTCOME_SUSPENDED = 1 ∧
    resumable s (slotOf s 24191) = true ∧ berthGet (go .opening s) 24191 BERTH.OUTCOME_SUSPENDED = 0 ∧
    resumable lost (slotOf lost 24191) = false ∧ ((go .opening lost).word (pgBerth 24191 + 0x00C)).getLsbD 16 = true ∧
    berthGet (go .opening lost) 24191 BERTH.OUTCOME_SUSPENDED = 1 := by
  decide +kernel

theorem witness_BoundaryCommands :
    let go := fun (c : Instr) (s : State) => nextOf (exec c s)
    let cx := (crossing 1 [run5 9 false] .running).modRig k9 fun r => { r with iouQ := [⟨true, 0x200, 1, 3, 7, false⟩] }
    let spent := (crossing 1 [run5 9 false] .running).set (p0 k9) TP0.BUNDLES_LO_COUNT 9
    let copying := (putBytes k9 0 [1, 2] (crossing 1 [] .running)).modX fun x => { x with copies := [⟨k9, k9, 0, 64, 0, 2⟩] }
    let rel := fun (s : State) => s.modX fun x => { x with released := true }
    let dr := fun (r : BerthRun) (st : RunState) => rel (crossing 2 [r] st)
    let none' := rel (crossing 2 [] .idle); let slack := fun (s : State) => go .slackWater s
    ((go (.cxdone f9 t100) cx).rig k9).run = .idle ∧ go (.cxdone f9 t100) (cx.modX fun x => { x with copies := [⟨k9, k9, 0, 64, 0, 2⟩] }) =
      cx.modX (fun x => { x with copies := [⟨k9, k9, 0, 64, 0, 2⟩] }) ∧
    (lidOf spent 9 100).bind (berthOfLid spent) = some (run5 9 false) ∧ budgetSpent spent k9 = true ∧
    ((go (.overrun f9 t100) spent).rig k9).run = .stopped ∧
    (let t := go (.snapshotLineCopied f9 t100 false) copying; t.byte k9 65 = 2 ∧ t.m.x.copies = [⟨k9, k9, 0, 64, 1, 2⟩]) ∧
    stagesEmpty none' = true ∧ (go .egressRelease (crossing 2 [] .idle)).m.x.released = true ∧
    slackTest none' = true ∧ (slack none').m.x.openReq = true ∧
    (let s := dr (run5 9 false) .idle; suspendDue s (run5 9 false) = false ∧ slackTest s = true ∧
      berthClean s (run5 9 false) = true ∧ berthGet (slack s) 5 BERTH.OUTCOME_ENDING = 1) ∧
    (let s := dr (run5 9 true) .idle; berthClean s (run5 9 true) = false ∧ 0 < s.get pgCseq CSEQ.RECROSS_LIMIT_LIMIT ∧
      cseqState (slack s) = 3 ∧ (slack s).m.x.toRecross = [5] ∧ cseqState (go .restoreEnd (slack s)) = 4) ∧
    (let s := dr (run5 9 false) .stopped; berthClean s (run5 9 false) = false ∧ (slack s).m.x.restoring = [5] ∧
      berthGet (slack s) 5 BERTH.OUTCOME_ENDING = 3 ∧ (slack s).m.x.toRecross = []) ∧
    (let r := { run5 9 true with slot := { slot5 9 with replay := true }, overrun := true }; let s := dr r .idle
     berthClean s r = false ∧ berthGet (slack s) 5 BERTH.OUTCOME_ENDING = 3 ∧ (slack s).m.x.restoring = []) ∧
    (let s := crossing 3 [] .idle; (go .restoreEnd s).m.x.openReq = true ∧
      cseqState (go .restoreEnd (s.set pgCseq CSEQ.CSEQ_STATUS_STOP_PENDING 1)) = 0) := by
  decide +kernel

/-- The spec's worked address of OUTCOME of berth 1,377 (R322). -/
theorem test_outcome_address : pgBerth 1377 + (BERTH.OUTCOME_ENDING.at (1377 % 48)).off = 0x10000248A0 := by
  decide +kernel

/-! ### The mesh and the ferry engine -/

/-- A packet that has arrived at tile 100 of field 9, from that tile. -/
def pkt (kind op : Nat) (addr data : Word) (flits : List Byte) (unit : PktUnit := .lsu) (tag : Nat := 3) : Pkt :=
  { Pkt.blank with kind := kind, op := op, addr := addr, data := data, flits := flits, unit := unit, tag := tag,
                   dstField := 9, dstTile := 100, srcField := 9, srcTile := 100 }
def withPkt (p : Pkt) (s : State) : State := { s with m := { s.m with net := [p] } }

/-- The tile's router is live, and DMEM holds 1 to 8 from 0x100 on. -/
def meshed : State := withBytes 0x100 [1, 2, 3, 4, 5, 6, 7, 8] (upField.setBit (pgFtopo 9) (FTOPO.ROUTER_LIVE_LIVE.at 3) 4 true)

/-- The answers on their way, as kind and data. -/
def answers (t : State) : List Word := t.m.net.flatMap fun p => [BitVec.ofNat 32 p.kind, p.data]

/-- Each request; a read at and past the end of DMEM; a packet at a halted matrix; a post collected. -/
theorem witness_RequestsAreServed :
    let go := fun (c : Instr) (p : Pkt) => nextOf (exec c (withPkt p meshed))
    let by8 := fun (t : State) => (List.range 4).map fun j => t.byte k9 (0x100 + j)
    arrived 0 0 (withPkt (pkt 0 2 0x100 0 []) meshed) = some (pkt 0 2 0x100 0 []) ∧ tileInUse meshed 9 100 = true ∧
    m3Kind meshed k9 0x3FFFC 4 = none ∧ m3Kind meshed k9 0x3FFFD 4 = some 1 ∧
    answers (go (.farRead 0) (pkt 0 2 0x100 0 [])) = [8, 0x04030201] ∧ (go (.farRead 0) (pkt 0 2 0x3FFFD 0 [])).m.net.map (·.kind) = [11] ∧
    (let t := go (.farWrite 0) (pkt 1 1 0x102 0xAABBCCDD []); answers t = [9, 0] ∧ by8 t = [1, 2, 0xDD, 0xCC]) ∧
    (let t := go (.farAtomic 0) (pkt 2 4 0x100 1 []); answers t = [8, 0x04030201] ∧ by8 t = [2, 2, 3, 4]) ∧
    (let t := go (.blockWrite 0) (pkt 3 0 0x101 0 [9, 9]); answers t = [9, 0] ∧ by8 t = [1, 9, 9, 4]) ∧
    (let t := go (.blockRead 0) (pkt 7 0 0x103 3 []); t.m.net.map (fun p => p.kind :: p.flits.map (·.toNat)) = [[10, 4, 5, 6]]) ∧
    (let t := go (.imemWrite 0) (pkt 4 0 4095 0 (List.replicate 15 0 ++ [7])); answers t = [9, 0] ∧ imemAt t k9 4095 = 7 <<< 120) ∧
    (let t := go (.post 0) (pkt 5 0 0 2 [8, 9]); answers t = [9, 0] ∧ (lookup [] t.m.x.collect k9).map (·.payload) = [[8, 9]]) ∧
    (let h := withPkt (pkt 0 2 0x100 0 []) (meshed.set (pgTk k9 1) HDR.PAGE_STATUS_HALTED 1)
     nextOf (exec (.farRead 0) h) = h) := by decide +kernel

/-- A tile that is not ready; a write to the visible half and a read of the collecting one from the berth world; a post with no bay. -/
theorem witness_RequestsRefused :
    let go := fun (c : Instr) (p : Pkt) (s : State) => nextOf (exec c (withPkt p s))
    let kinds := fun (t : State) => t.m.net.map (·.kind)
    let q := { pkt 0 2 0x100 0 [] with srcTile := 101 }; let gone := setTileState 9 101 2 (setTileState 9 100 6 meshed)
    let bay := withBay meshed; let w := fun (kind a : Nat) => { pkt kind 2 (BitVec.ofNat 32 a) 7 [] with world := true }
    tileReady gone 9 100 = false ∧ tileInUse gone 9 101 = true ∧ tileReady meshed 9 100 = true ∧ kinds (go (.farRead 0) q gone) = [11] ∧
    pktWaits (withPkt (w 1 0x2000) bay) (w 1 0x2000) = false ∧
    (pktReq (withPkt (w 1 0x2000) bay) (w 1 0x2000)).all (wins (withPkt (w 1 0x2000) bay) k9 3) = true ∧
    (let t := go (.farWrite 0) (w 1 0x2000) bay; kinds t = [9] ∧ t.m.dmem = bay.m.dmem) ∧
    (let t := go (.farRead 0) (w 0 0x1000) bay; kinds t = [8] ∧ t.m.x.hiddenReads = 1) ∧
    postAddr meshed k9 1 = none ∧ kinds (go (.post 0) (pkt 5 0 0 1 [8]) meshed) = [9] := by decide +kernel

theorem witness_MeshPacketsServedAndAnswered :
    let far := fun (kind : LsuKind) (p : Pkt) => (withPkt p (withAcc kind 0x10000000 0 0)).modRig k9 fun r => { r with lsuQ := r.lsuQ.map fun a => { a with sent := true } }
    let rd := nextOf (exec (.readResp 0) (far (.load 1 true) (pkt 8 0 0 0x80 [])))
    let er := nextOf (exec (.error 0) (far (.load 4 false) (pkt 11 0 0 0 [])))
    let fo := (withPkt (pkt 10 0 0 0 [0x31, 0x32] .fold) upField).modRig k9 fun r => { r with
      fold := { r.fold with busy := true, sent := true, alg := 1, acc := 0xFFFFFFFF, ptr := 0x10, rem := 2, slot := 3 } }
    let fd := nextOf (exec (.blockResp 0) fo)
    ilk rd = [some 0xFFFFFF80] ∧ (rd.rig k9).lsuQ = [] ∧
    ((nextOf (exec (.ack 0) (far (.store 4) (pkt 9 0 0 0 [])))).rig k9).lsuQ = [] ∧
    (er.rig k9).raised = [⟨0x09, 1, 7, 3, 0x10000000⟩] ∧ (fd.rig k9).fold.ptr = 0x12 ∧ (fd.rig k9).fold.sent = false ∧
    (fd.rig k9).fold.acc ^^^ 0xFFFFFFFF = 0x4F5344CD := by decide +kernel

/-- A clean descriptor at 0x100: eight bytes from 0x200 to 0x3FFF8 with EVENT; one with a reserved bit; one off its boundary. -/
def ferried (w : List Word) (a : Word := 0x100) : State :=
  (putBytes k9 0x100 (w.flatMap wordBytes) (withBytes 0x200 [1, 2, 3, 4, 5, 6, 7, 8])).setFerry k9 { Ferry.reset with queue := [⟨a, false, 0, 0⟩] }

theorem witness_FerryAndRoutes :
    let go := fun (s : State) => nextOf (exec (.descriptorStart f9 t100) s)
    let code := fun (s : State) => (s.ferry k9).act.bind FryAct.code
    let t := go (ferried [0x200, 0x3FFF8, 8, 0, 0, 0, 0x100, 0]); let u := nextOf (exec (.descriptorComplete f9 t100) t)
    let r := go (ferried [0x200, 0x3FFF8, 8, 0, 0, 0, 0x200, 0]); let v := nextOf (exec (.descriptorComplete f9 t100) r)
    (List.range 8).map (fun j => t.byte k9 (0x3FFF8 + j)) = [1, 2, 3, 4, 5, 6, 7, 8] ∧ code t = none ∧
    u.get (pgTk k9 2) TP2.FRY_DONE_COUNT = 1 ∧ u.on (p0 k9) TP0.EVENTS_FERRY = true ∧ (u.ferry k9).act = none ∧
    code r = some 2 ∧ v.get (pgTk k9 2) TP2.FRY_STATUS_CODE = 2 ∧ (v.word (pgTk k9 2 + 0x00C)).getLsbD 16 = true ∧
    code (go (ferried [0x200, 0x3FFF8, 262145, 0, 0, 0, 0, 0])) = some 1 ∧ code (go (ferried [] 0x104)) = some 3 ∧
    code (go (ferried [] 0x40000)) = some 3 := by decide +kernel

theorem witness_credits_routes_lookup :
    let w := nextOf (exec .creditWindow (upField.atTime 101))
    let run := (upField.set pgCseq CSEQ.CSEQ_STATUS_STATE 1).modX fun x => { x with everOpened := true }
    let c := nextOf (exec (.routeComputeEnd 9) (run.set (pgFtopo 9) FTOPO.ROUTE_STATUS_COMPUTING 1))
    clocked upField = true ∧ w.m.wtime = 200 ∧ lookup 0 w.m.credits ((5 * k9 + 4) * 16 + 10) = shareOf upField k9 4 10 ∧
    routesAtOnce upField = true ∧ routerIn upField 9 100 = true ∧ routesAtOnce run = false ∧
    c.on (pgFtopo 9) FTOPO.ROUTE_STATUS_PENDING = true ∧ c.on (pgFtopo 9) FTOPO.ROUTE_STATUS_COMPUTING = false ∧
    reachable lid1000 (pgFtopo 9) = true ∧ lookupOut (nextOf (exec (.lookupIn 9 1000) lid1000)) 9 = 100 + 9 * 2 ^ 16 + 2 ^ 31 ∧
    lookupOut (nextOf (exec (.lookupIn 9 1001) lid1000)) 9 = 0 := by decide +kernel

/-! ### The Hawser link layer: the end of south seam channel 11 of field 23, HAWS[47] at 0x45C00AF000 (R676) -/

def h23 : HostId := 23
def e47 : EndId := 47
def endAt (st : Nat) (x : HawEnd := HawEnd.reset) : State :=
  (setLink 23 47 st ((List.range 36).foldl (fun s n => setLane 23 47 n 1 s) (setLane 23 47 36 2 (setLane 23 47 37 2 up)))).setHaw 23 47 x
def heldPkts (n : Nat) : HVc := { HVc.reset with held := (List.range n).map fun i => (i, Pkt.blank), timer := some 0, fresh := 1, freshFrom := some 0 }
def lst (t : State) : Nat := linkState t 23 47

/-- The spec's worked page address, request header (SEQ 0x120, LEN 17) and NAK (VC 0, NSEQ 0x120, PARITY, lane 14). -/
theorem test_worked_hawser :
    pgHaws 23 47 = 0x45C00AF000 ∧ partnerEnd 23 47 = (31, 73) ∧ headerLenVc 0x9644000120004496 false false = some (17, 0) ∧ copyOf 0x96 0x96 true true = none ∧
    bits 0x9644000120004496 24 12 = 0x120 ∧ bits 0x008E1120 0 12 = 0x120 ∧ bits 0x008E1120 12 4 = 1 ∧ bits 0x008E1120 16 7 = 14 := by
  decide +kernel

/-- The spec's worked header as sent (17 units of VC 0 with SEQ 0x120) and its worked NAK as a command (R636, R639). -/
theorem test_worked_sent_items :
    sentHeader 0 0x120 { Pkt.blank with kind := 3, flits := List.replicate 256 0 } = 0x9644000120004496 ∧
    commandWord 0x69 0x02 0x008E1120 = 0x6902008E11200269 := by decide +kernel

/-- DATA: the expected SEQ, a parity error, the 48th and the 49th older SEQ, a broken header; a length of 0. -/
theorem witness_HawserLinkTraffic :
    let P := pgEnd 23 47; let u := endAt 6; let go := fun (c : Instr) (s : State) => nextOf (exec c s)
    let hd : BitVec 64 := 0x9644000120004496; let at' := fun (n : Nat) => u.set P (expField 0) n
    let nak := fun (t : State) => bitAt (t.get P HAWS.FLOW_NAK_SENT) 0
    let data := fun (par : Bool) (s : State) => go (.dataPacket h23 e47 hd par 0 0 false) s
    let head := fun (hd : BitVec 64) (badType badLen : BitVec 2) => let t := go (.dataPacket h23 e47 hd false badType badLen false) (at' 0x120)
      (lst t, t.get P HAWS.LAST_BREAK_REASON)
    awake u = true ∧ endExists 23 47 = true ∧ lst u = 6 ∧
    (let t := data false (at' 0x120); t.get P (expField 0) = 0x121 ∧ nak t = false) ∧
    (let t := data true (at' 0x120); t.get P (expField 0) = 0x120 ∧ nak t = true) ∧
    ((data false (at' 0x150)).haw 23 47).out.length = 1 ∧ nak (data false (at' 0x150)) = false ∧ nak (data false (at' 0x151)) = true ∧
    head hd 1 2 = (6, 0) ∧ head hd 0 3 = (7, 4) ∧ head hd 3 0 = (7, 4) ∧ head 0x5544000120004455 0 0 = (7, 5) ∧
    head 0x6944000120004469 0 0 = (6, 0) ∧
    (let t := go (.dataPacket h23 e47 0x9600000120000096 false 0 0 false) (at' 0x120)
     lst t = 7 ∧ t.get P HAWS.LAST_BREAK_REASON = 1 ∧ (t.haw 23 47).out = [⟨2, 0x5120⟩]) ∧
    (go (.linkBreak h23 e47) u).get P HAWS.LAST_BREAK_REASON = 8 := by decide +kernel

theorem witness_HawserCommands :
    let P := pgEnd 23 47; let go := fun (c : Instr) (s : State) => nextOf (exec c s)
    let u := (endAt 6 { HawEnd.reset with v0 := heldPkts 3 }).set P (nextField 0) 3
    let held := fun (t : State) => ((t.haw 23 47).vc 0).held.map Prod.fst
    let r := fun (t : State) => (lst t, t.get P HAWS.LAST_BREAK_REASON)
    oldest u 23 47 0 = 0 ∧ held (go (.hawserAck h23 e47 2) u) = [] ∧ held (go (.hawserAck h23 e47 0) u) = [1, 2] ∧
    r (go (.hawserAck h23 e47 3) u) = (7, 5) ∧
    (let t := go (.nak h23 e47 0x3001 9) u; let n := go (.flow h23 e47 1 1 0) t
     held t = [1, 2] ∧ ((t.haw 23 47).vc 0).replay = some 1 ∧ t.get P HAWS.CNT_REPLAYED_COUNT = 0 ∧ lst t = 6 ∧
     n.get P HAWS.CNT_REPLAYED_COUNT = 1 ∧ ((n.haw 23 47).vc 0).replay = some 2 ∧
     (go (.flowRefresh h23 e47) (go (.flow h23 e47 0 0 0) n)).get P HAWS.CNT_REPLAYED_COUNT = 2 ∧
     (let c := go (.nak h23 e47 0x3002 1) t; held c = [2] ∧ c.get P HAWS.CNT_REPLAYED_COUNT = 1 ∧ ((c.haw 23 47).vc 0).replay = some 2)) ∧
    r (go (.nak h23 e47 0x5000 0) u) = (7, 1) ∧ r (go (.nak h23 e47 0x1004 0) u) = (7, 5) ∧
    (let t := go (.lane h23 e47 0x1A483) u; laneState t 23 47 3 = 0 ∧ laneState t 23 47 36 = 1 ∧ t.get P HAWS.LINK_GEN_RX = 1) ∧
    r (go (.lane h23 e47 0x2A483) u) = (7, 5) ∧ peerXoff (go (.flow h23 e47 3 0 0) u) 23 47 1 = true ∧
    r (go (.trainMask h23 e47 0) u) = (7, 5) ∧ r (go (.trainReady h23 e47 0 false) u) = (7, 5) := by decide +kernel

/-- UNKNOWN_ITEM_TYPE breaks for FRAMING, or for PROTOCOL. -/
theorem witness_unknownItem :
    linkState (nextOf (exec (.unknownItemType h23 e47 true) (endAt 6))) 23 47 = 7 ∧
    (nextOf (exec (.unknownItemType h23 e47 true) (endAt 6))).get (pgEnd 23 47) HAWS.LAST_BREAK_REASON = 4 ∧
    (nextOf (exec (.unknownItemType h23 e47 false) (endAt 6))).get (pgEnd 23 47) HAWS.LAST_BREAK_REASON = 5 := by decide +kernel

theorem witness_HawserTimers :
    let P := pgEnd 23 47; let go := fun (c : Instr) (s : State) => nextOf (exec c s)
    let u := (endAt 6 { HawEnd.reset with v0 := { heldPkts 1 with xoffFrom := some 0 } })
    let last := { u with m := { u.m with haws := [(endKey 23 47, { (u.haw 23 47) with v0 := { heldPkts 1 with expiries := u.get P HAWS.REPLAY_LIMIT_COUNT } })] } }
    let r := fun (t : State) => (lst t, t.get P HAWS.LAST_BREAK_REASON)
    (let t := go (.ackTimerExpiry h23 e47 0) u; ((t.haw 23 47).vc 0).expiries = 1 ∧ t.m.wtime = u.get P HAWS.ACK_TIMEOUT_CYCLES) ∧
    r (go (.ackTimerExpiry h23 e47 0) last) = (7, 3) ∧ ((go (.ackDue h23 e47 0) u).haw 23 47).v0.fresh = 0 ∧
    r (go (.creditTimeout h23 e47 0) u) = (7, 2) ∧ ((go (.flowRefresh h23 e47) u).haw 23 47).out.length = 1 ∧
    r (go (.laneParityError h23 e47 [0, 1, 2, 3, 36] none) u) = (7, 6) ∧
    (let t := go (.laneParityError h23 e47 [0] none) u; laneState t 23 47 0 = 3 ∧ t.m.x.escs = [.laneRetired 23 47 0]) ∧
    (let t := go (.laneParityError h23 e47 [36] (some 0)) u; laneState t 23 47 36 = 0) := by decide +kernel

theorem witness_HawserTraining :
    let P := pgEnd 23 47; let go := fun (c : Instr) (s : State) => nextOf (exec c s)
    let all := 2 ^ 38 - 1
    let probe := endAt 2 { HawEnd.reset with good := all, firstGood := some 0 }
    let ex := go (.probeWindowEnd h23 e47) probe
    let m0 := BitVec.ofNat 32 (maskW all 0); let m1 := BitVec.ofNat 32 (maskW all 1)
    let rdy := go (.trainMask h23 e47 m1) (go (.trainMask h23 e47 m0) ex)
    let wait := go (.trainReady h23 e47 (BitVec.ofNat 32 (readyW all)) false) rdy
    lst probe = 2 ∧ lst ex = 3 ∧ ex.m.wtime = 256 ∧ lst rdy = 4 ∧ (rdy.haw 23 47).usable = all ∧ lst wait = 5 ∧
    lst (go (.trainReady h23 e47 (BitVec.ofNat 32 (readyW all)) true) wait) = 6 ∧
    lst (go (.trainReady h23 e47 0xFFFFFFFF false) rdy) = 2 ∧ lst (go (.trainReady h23 e47 0 false) probe) = 3 ∧
    (let few := go (.trainMask h23 e47 0x7F5) (go (.trainMask h23 e47 0x7F1) (endAt 3 { HawEnd.reset with good := 0x7F }))
     lst few = 2 ∧ few.get P HAWS.CNT_LINK_ATTEMPTS = 1) ∧
    ((go (.upWaitReadyInterval h23 e47) wait).haw 23 47).out.length = (wait.haw 23 47).out.length + 1 ∧
    (let q := go (.quietEnd h23 e47) (endAt 7); lst q = 2 ∧ q.m.wtime = 12000) ∧
    (let t := go (.trainingAttemptTimeout h23 e47) (endAt 5); lst t = 2 ∧ t.m.wtime = 1200000 ∧ chanFenced t 23 47 = true) := by
  decide +kernel

theorem witness_laneJudgedGood :
    let t := nextOf (exec (.laneJudgedGood h23 e47 39) (endAt 3)); bitAt (t.haw 23 47).good 39 = true ∧ (t.haw 23 47).firstGood = some 0 := by
  decide +kernel

/-! ### The landings: L3 with the spec's worked flow 167 and bay 301, and L8 -/

def flow167 (s : State) : State :=
  [(0, 0x55000561), (1, 0x81230244), (2, 0x05612B40), (3, 0x00030001)].foldl
    (fun s (e : Nat × Word) => s.setWord (0x20C0011560 + 4 * e.1) e.2) s
def l3 : State :=
  (((flow167 up).setWord 0x20C00084F4 0x84282B40).setBit pgMpwr MPWR.LANDING_STATUS_LANDING_RAIL 3 true).setBit pgRoster
    ROSTER.LANDING_READY_READY 3 true
def l3up : State := nextOf (exec (.netPortUp 3 0 true) l3)

theorem test_worked_flow_and_bay :
    validFlows l3 3 = [167] ∧ flowGet l3 3 167 NETLF.FLOW_DEST = 0x2B40 ∧ flowGet l3 3 167 NETLF.FLOW_BERTH = 1377 ∧
    flowGet l3 3 167 NETLF.FLOW_SPAN = 1 ∧ flowGet l3 3 167 NETLF.FLOW_QOS = 3 ∧
    flowFor l3 3 0 0x123 0x024455000561 = some 167 ∧ validBays l3 3 = [301] ∧ bayOf l3 3 0x2B40 = some 301 ∧
    halfBase l3 3 301 0 = 0x28000 ∧ halfLength l3 3 301 = 4 * 4096 := by decide +kernel

/-- A frame of 60 bytes for the flow, with its FCS, and one for another VID. -/
def frame (vid : Byte) : List Byte :=
  let b := pad60 [0x02, 0x44, 0x55, 0x00, 0x05, 0x61, 2, 0, 0, 0, 0, 1, 0x81, 0x00, 0x01, vid, 0x08, 0x00, 7]
  b ++ bytesOf (crc32 b).toNat 4

theorem witness_NetLandingCommands :
    let go := fun (c : Instr) (s : State) => nextOf (exec c s)
    let cnt := fun (t : State) (i : Nat) => t.get (pgLanding 3 0) (pcnt 0 i)
    let good := go (.netFrameRx 3 0 (frame 0x23) 2 0) l3up
    let sending := { l3up with m := { l3up.m with nets := [(3, { NetSt.reset with sending := [⟨some 1, true, 0, [5]⟩], since := some 0, quanta := [(0, 9)] })] } }
    landingReady l3 3 = true ∧ pstat l3 3 0 0 = false ∧ pstat l3up 3 0 0 = true ∧ pstat l3up 3 0 4 = true ∧
    (let t := go (.netPortDown 3 0) sending; pstat t 3 0 0 = false ∧ cnt t 8 = 1 ∧ (t.netSt 3).sending = []) ∧
    (let t := go (.netFrameRx 3 0 (frame 0x23) 0 1) l3up; cnt t 1 = 1 ∧ cnt t 7 = 1) ∧
    cnt (go (.netFrameRx 3 0 (frame 0x23 ++ [0]) 0 0) l3up) 1 = 1 ∧ cnt good 6 = 2 ∧
    frameGood (frame 0x23) = true ∧ frameGood ((frame 0x23).drop 1) = false ∧ cnt (go (.netFrameRx 3 0 (frame 0x24) 0 0) l3up) 2 = 1 ∧
    ((good.netSt 3).hold.map fun h => [h.flow, h.seq, h.bytes.length]) = [[167, 0, 60]] ∧
    (let t := go (.pauseFrame 3 0 1 0xFFFF) (l3up.set (pgLanding 3 0) NETL.NCTL_PAUSE_RX_EN 1)
     lookup 0 (t.netSt 3).quanta 0 = 0xFFFF ∧ pstat t 3 0 3 = true) ∧
    (let t := go (.pauseQuantaExpiry 3 0) sending; (t.netSt 3).line = [(0, [5])] ∧ (t.netSt 3).sending = []) ∧
    (let t := go (.egressTimeout 3 0) sending; cnt t 5 = 1 ∧ (t.netSt 3).sending = []) := by decide +kernel

/-- Before the first opening the halves of FIRST_NO and of the crossing after it are released, and no more (R689). -/
theorem witness_BayRelease :
    let first := l3.set2 pgCseq CSEQ.FIRST_NO_LO_NO CSEQ.FIRST_NO_HI_NO 0x12A4F0
    let net := fun (n : NetSt) => { first with m := { first.m with nets := [(3, n)] } }
    let s := net { NetSt.reset with hold := [⟨0x12A4F0, 167, 0, 0, [1]⟩] }; let t := nextOf (exec (.bayRelease 3) s)
    let both := net { NetSt.reset with released := some 0x12A4F1 }
    nextRelease s 3 = some 0x12A4F0 ∧ (t.netSt 3).released = some 0x12A4F0 ∧ (t.netSt 3).hold = [] ∧
    bayAt (nextOf (exec (.bayRelease 3) first)) 3 301 0 = ⟨0, 0, 1⟩ ∧
    nextRelease both 3 = none ∧ nextOf (exec (.bayRelease 3) both) = both := by decide +kernel

/-- The spec's worked answer: 64 bytes from 0x2B41 through handle 0x30A7; refused from 0x2B42. -/
theorem witness_Egress :
    let part : EgPart := ⟨k9, 0x30A7, 64, List.replicate 64 1⟩
    let from' := fun (lid : Nat) => ((l3.set (pgTk k9 2) TP2.LID_ID lid).set (pgTk k9 2) TP2.LID_VALID 1)
    let tag := fun (s : State) => s.setWord (0x20C0011560 + 0x14) 0x81230000
    judgeEgress (tag (from' 0x2B41)) 3 true part = .accepted ⟨some 0x2B41, true, 0,
      egressHead (tag l3) 3 167 ++ List.replicate 64 1⟩ ∧ (egressHead (tag l3) 3 167).length = 16 ∧
    judgeEgress (tag (from' 0x2B42)) 3 true part = .refused ∧
    judgeEgress (from' 0x2B41) 3 true ⟨k9, 0x38A7, 64, List.replicate 64 1⟩ = .refused ∧
    judgeEgress (from' 0x2B41) 3 true ⟨k9, 0x30A7, 1, [1]⟩ = .refused := by decide +kernel

/-- L8 with port 0's drive up, and a transfer of two blocks of 4,096 bytes from drive to tile through slot 15. -/
def l8 : State :=
  ((up.setBit pgMpwr MPWR.LANDING_STATUS_LANDING_RAIL 8 true).setBit pgRoster ROSTER.LANDING_READY_READY 8 true).set (pgLanding 8 0)
    STRL.SCTL_MAX_GEN 3
def l8link : State := nextOf (exec (.storeLinkUp 0 0 3 16) l8)
def l8up : State := nextOf (exec (.storePortUp 0 0 12) l8link)
def l8go : State :=
  nextOf (exec (.xctlGo 0 15 1) (slotSet 8 15 STRLX.BLOCKS_COUNT 2 (slotSet 8 15 STRLX.TILES_COUNT 1 (slotSet 8 15 STRLX.TILES_BASE 1000 l8up))))

theorem witness_StoreLandingCommands :
    let go := fun (c : Instr) (s : State) => nextOf (exec c s)
    let st := fun (t : State) => (slotGet t 8 15 STRLX.XSTAT_STATE, slotGet t 8 15 STRLX.XSTAT_RESULT)
    let waiting := go (.xctlGo 0 15 1) (l8up.set pgCseq CSEQ.CSEQ_STATUS_STATE 2)
    let moved := modXfer 8 15 (fun x => { x with moved := x.len }) (modNvme 8 0 (fun n => { n with io := [] }) l8go)
    reachable l8 (pgLanding 8 1) = true ∧ storeLink l8link 8 0 = true ∧ storeUp l8link 8 0 = false ∧ storeUp l8up 8 0 = true ∧
    st waiting = (1, 0) ∧ st (go (.xctlGo 0 15 1) l8up) = (3, 1) ∧ st l8go = (2, 0) ∧ st (go (.xctlGo 0 15 0x101) l8go) = (2, 0) ∧
    (l8go.nvme 8 0).io.map (fun c => (c.cid, c.write, c.blocks, c.prp1, c.prp2)) = [(60, false, 2, 0x780000, 0x781000)] ∧
    (l8up.nvme 8 0).admin = bringUp ∧
    (let t := go (.nvmeCompletion 0 15 2 []) l8go
     (xferOf t 8 15).bind Xfer.result = some 3 ∧ (t.nvme 8 0).io = [] ∧ t.get (pgLanding 8 0) (STRL.SCNT0.at 1) = 1) ∧
    (let u := go (.storePortUp 0 0 9) l8link
     let v := go (.xctlGo 0 15 1) (slotSet 8 15 STRLX.BLOCKS_COUNT 1 (slotSet 8 15 STRLX.TILES_COUNT 2 (slotSet 8 15 STRLX.TILES_BASE 1000 u)))
     (xferOf (go (.nvmeCompletion 0 15 0 (List.replicate 512 7)) v) 8 15).map Xfer.moved = some 512) ∧
    st (go (.storeTransferComplete 0 15) moved) = (3, 0) ∧ slotGet (go (.storeTransferComplete 0 15) moved) 8 15 STRLX.XBYTES_BYTES = 8192 ∧
    (let t := go (.xferTimeout 0 15) l8go; let r := go (.pePerstNRelease 0 2) t
     st t = (3, 4) ∧ [0, 1, 2, 3].all (inReset t 8) = true ∧ storeLink t 8 0 = false ∧
     [0, 1, 2, 3].any (inReset r 8) = false ∧ r.m.wtime = t.m.wtime + 120000000) := by
  decide +kernel

theorem witness_StorePorts :
    let go := fun (c : Instr) (s : State) => nextOf (exec c s)
    let cnt := fun (t : State) (i : Nat) => t.get (pgLanding 8 0) (STRL.SCNT0.at i)
    (go (.deviceReadyTimeout 0 0) l8link).m.stores ≠ [] ∧ storeLink (go (.deviceReadyTimeout 0 0) l8link) 8 0 = false ∧
    (let t := go (.storeLinkDown 0 0) l8up; storeLink t 8 0 = false ∧ storeUp t 8 0 = false ∧ cnt t 3 = 1) ∧
    cnt (go (.inboundRequest 0 0 .msix) l8up) 4 = 1 ∧ cnt (go (.inboundRequest 0 0 .other) l8up) 2 = 1 ∧
    (go (.inboundRequest 0 0 (.staging 15)) l8go) = l8go ∧ cnt (go (.inboundRequest 0 0 (.staging 14)) l8go) 2 = 1 ∧ cnt (go (.intDrop 0 0) l8up) 7 = 1 := by decide +kernel

theorem witness_AerErrors :
    (nextOf (exec (.aerError 0 3 true) (l8.set (pgLanding 8 0) STRL.SCTL_MODE 1))).get (pgLanding 8 0) (STRL.SCNT3.at 6) = 1 ∧
    nextOf (exec (.aerError 0 3 true) l8) = l8 ∧
    (nextOf (exec (.aerError 0 0 false) l8)).get (pgLanding 8 0) (STRL.SCNT0.at 5) = 1 := by decide +kernel

/-! ### More of the spec's worked figures -/

/-- Stay partners of fields 23 and 27 (R593), the address of field 23's POWER_CAP, and its regulator's address (R102). -/
theorem test_worked_places :
    [0, 1, 2, 3].map (stayPartner 23) = [19, 37, 32, 55] ∧ [0, 1, 2, 3].map (stayPartner 27) = [31, 25, 28, 26] ∧
    pgFpwr 23 + FPWR.POWER_CAP_CAP_W.off = 0x45C0001040 ∧ railAddr (.field 23) = 0x27 ∧ pgTile 23 193 0 + 0x1C = 0x85D820001C ∧
    pgRostf 23 + (ROSTF.TILE_STATE.at 24).off = 0x0000057160 := by decide +kernel

/-- The spec's worked stop of a FOLD while the line at 0x41C0 is in progress: fptr reads 0x41C0 and frem 584 (R416). -/
theorem test_worked_fold_stop :
    let r := { (upField.rig k9) with fold := { (upField.rig k9).fold with busy := true, fptr := 0x41C0, frem := 584, ptr := 0x41C8, rem := 576 } }
    (stopFold r).fold.busy = false ∧ (stopFold r).fold.resume = true ∧ lookup 0 (stopFold r).socks 0x075 = 0x41C0 ∧
    lookup 0 (stopFold r).socks 0x076 = 584 := by decide +kernel

/-! ### The spec's worked image (R739 to R747) -/

/-- Halloran's image: keepers 0 to 4, the two berth positions, and audit spares. -/
def halloran : Image :=
  let keeper := fun c => (⟨1, 0, c, 0, 0, 0, 0, []⟩ : Role)
  { coreMajor := 1, coreMinor := 0, emulate := false, berthTiles := 2, berthsMin := 7000, berthsMax := 7900, snapBase := 24,
    snapPages := 8, holdBase := 16, holderRole := 1, budgetLo := 0, budgetHi := 0,
    roles := [keeper 2016, keeper 2640, keeper 1024, keeper 1968, keeper 670, ⟨0, 0, 0, 0, 0, 0, 0, []⟩, ⟨0, 1, 0, 0, 0, 0, 0, []⟩,
      ⟨2, 0, 0, 0, 0, 0, 0, []⟩], sections := [], relocs := [], bytes := [] }

/-- Its sizing on 24,161 ready tiles: F, k, B, the audit spares, berth 1,377's BASE and its holder. -/
theorem test_worked_load :
    halloran.rolesOk = true ∧ halloran.sizes 24161 = true ∧ halloran.fixedTiles = 8318 ∧ halloran.perHolder = 3 ∧
    halloran.berths 24161 = 7900 ∧ halloran.roleFirst 24161 7 = 24118 ∧ halloran.lids 24161 = 24161 ∧
    halloran.berthBase 1377 = 0x2B40 ∧ halloran.holderOf 24161 1377 = (0x09AB, 16) ∧
    [0, 2015, 2016, 8317, 0x2B40, 0x2B41, 24117, 24118].map (halloran.roleOf 24161) =
      [some 0, some 0, some 1, some 4, some 5, some 6, some 6, some 7] := by decide +kernel

/-- Its relocations on the first tile of berth 1,377, in field 23. -/
theorem test_worked_relocations :
    let s := (State.reset.set (pgRostf 23) ROSTF.LOGICAL_COUNT 432).set2 pgRoster ROSTER.FIELD_READY_LO_READY ROSTER.FIELD_READY_HI_READY
      (2 ^ 56 - 1)
    let v := fun (x : ShapeSource) => halloran.resolve s 24161 23 (halloran.ownFirst 24161 0x2B40) (x.reloc 0 0 0)
    v .tileidBase = 0x2B40 ∧ v (.tileidBaseOf 4) = 0x1DE0 ∧ v .berthCount = 0x1EDC ∧ v .tilecount = 0x5E61 ∧
    v .fieldShape = 0x3801B017 ∧ shapeBundle 0x014 = 0x40070014E00000E00000000000000000#128 := by decide +kernel

/-- A role's entry, a relocation with ADDEND -1, a register record, and a byte string with no header. -/
theorem test_image_tables :
    roleAt [0xFF, 1, 0, 0xE0, 7, 5, 0, 6, 0, 2, 0, 3, 0] 1 = ⟨1, 0, 0x7E0, 5, 6, 2, 3, []⟩ ∧
    relocAt [4, 0, 2, 2, 0x20, 0, 0, 0, 0xFF, 0xFF, 0, 0, 0xFF, 0xFF, 0xFF, 0xFF] 0 = ⟨4, 2, 2, 0x20, 0xFFFF, 0, -1⟩ ∧
    records [0x1C, 0x22, 0, 0, 0x10, 0, 0, 0] = [(2, 0x21C, 0x10)] ∧ recordOk 0 0x108 = false ∧ recordOk 1 0x108 = true ∧
    putLe [1, 2, 3, 4, 5] 1 3 (-2) = [1, 0xFE, 0xFF, 0xFF, 5] ∧ formFits 2 (-8388609) = false ∧
    loadRefused [] State.reset [] = some .badImage := by decide +kernel

/-- Regions do not nest, and a closed one covers its bundles. -/
theorem test_assemble :
    (assemble [.roleFill [], .bundle 0, .region 2, .bundle 0, .bundle 0, .endregion]).map (fun l => l.map AsmRole.regions) = some [[(1, 2, 2)]] ∧
    assemble [.roleFill [], .region 2, .region 3] = none := by decide +kernel

end Sys2Proof.Tests
end

section
namespace Sys2Proof.Machine
open Sys2Proof

/-! PROOFS. Right after reset the stores are empty (O3); every step keeps them sound (O4); the RTC and the supply of the
standby domain (O49).

O4 is one lemma for each function of the model that answers a state, in the order of the model: `sound_f` says that `f` keeps the
stores sound, `outSound_f` the same of the outcome of a command, `soundFst_f` of a pair's state. The proof of each follows its
function: a nested call is a nested lemma, a choice is `sound_ite` or a `split`, a fold is `sound_foldl`, and a state that the
function names is named by `extract_lets` with its soundness beside it. What an update outside the stores leaves is
`sound_frame`. -/

/-! ## Reset -/

/-- Nothing is listed right after reset. -/
theorem sound_reset : StoresSound State.reset := ⟨⟨rfl, rfl, rfl⟩, fun _ hp => nomatch hp⟩

theorem word_reset (a : Nat) : State.reset.word a = resetWord a ∧ State.reset.shadowWord a = resetWord a := ⟨rfl, rfl⟩

theorem memory_reset (k a : Nat) : State.reset.byte k a = 0 ∧ imemAt State.reset k a = 0 := ⟨rfl, rfl⟩

theorem pwrState_reset : pwrState State.reset = 0 := by decide +kernel

theorem clocked_reset : clocked State.reset = false := by decide +kernel

/-- Settles O3: right after reset every store is empty, so that each word, byte and bundle reads its default. -/
theorem resetIsMooredAndCanonical : Obligations.ResetIsMooredAndCanonical :=
  ⟨rfl, pwrState_reset, clocked_reset, rfl, sound_reset, word_reset, memory_reset⟩

/-! ## Parts of a store -/

theorem risingFrom_of_sublist {α : Type} {b : Nat} {m n : List (Nat × α)} (h : risingFrom b m = true) (hn : n.Sublist m) :
    risingFrom b n = true := by
  induction hn generalizing b with
  | slnil => rfl
  | cons e _ ih =>
    simp only [risingFrom, Bool.and_eq_true, decide_eq_true_eq] at h
    exact ih (risingFrom_mono (Nat.le_succ_of_le h.1) h.2)
  | cons_cons e _ ih =>
    simp only [risingFrom, Bool.and_eq_true, decide_eq_true_eq] at h ⊢
    exact ⟨h.1, ih h.2⟩

/-- A part of a canonical map is canonical. -/
theorem canonical_of_sublist {α : Type} [DecidableEq α] {d : Nat → α} {m n : List (Nat × α)} (h : canonical d m = true)
    (hn : n.Sublist m) : canonical d n = true := by
  simp only [canonical, Bool.and_eq_true, List.all_eq_true] at h ⊢
  exact ⟨risingFrom_of_sublist h.1 hn, fun e he => h.2 e (hn.subset he)⟩

variable {s : State}

/-- What is lost with a field, a landing or the main domain leaves parts of sound stores. -/
theorem sound_of_sublist {t : State} (hs : StoresSound s) (hlive : t.live.Sublist s.live) (hshadow : t.shadow.Sublist s.shadow)
    (hdmem : t.m.dmem.Sublist s.m.dmem) (himem : t.m.imem.Sublist s.m.imem)
    (hset : ∀ p, p ∈ t.m.hoist.set → p ∈ s.m.hoist.set) : StoresSound t := by
  obtain ⟨⟨hl, hw, hm⟩, hp⟩ := hs
  simp only [Memory.wf, Bool.and_eq_true] at hm
  refine ⟨⟨canonical_of_sublist hl hlive, canonical_of_sublist hw hshadow, ?_⟩, fun p h => hp p (hset p h)⟩
  simp only [Memory.wf, Bool.and_eq_true]
  exact ⟨canonical_of_sublist hm.1 hdmem, canonical_of_sublist hm.2 himem⟩

/-- A state that differs only outside the stores. -/
theorem sound_frame {t : State} (hs : StoresSound s) (ht : (t.live, t.shadow, t.m.dmem, t.m.imem, t.m.hoist.set) =
    (s.live, s.shadow, s.m.dmem, s.m.imem, s.m.hoist.set)) : StoresSound t := by
  simp only [Prod.mk.injEq] at ht
  obtain ⟨hl, hw, hd, hi, hp⟩ := ht
  exact sound_of_eq hs hl hw hd hi hp

/-! ## Choices and pairs

The `soundFst_` lemmas serve definitions that answer a state with something beside it. -/

section Pairs
variable {α : Type}

theorem soundFst_mk {t : State} {x : α} (h : StoresSound t) : StoresSound (t, x).1 := h

theorem soundFst_ite {c : Prop} [Decidable c] {p q : State × α} (hp : c → StoresSound p.1) (hq : ¬c → StoresSound q.1) :
    StoresSound (if c then p else q).1 := by
  split
  · next h => exact hp h
  · next h => exact hq h

theorem soundFst_foldl {β : Type} {g : State × α → β → State × α} (hg : ∀ r b, StoresSound r.1 → StoresSound (g r b).1)
    (l : List β) {r : State × α} (h : StoresSound r.1) : StoresSound (l.foldl g r).1 := by
  induction l generalizing r with
  | nil => exact h
  | cons b l ih => exact ih (hg r b h)

end Pairs

/-! ## Outcomes -/

/-- The next state that an outcome answers, if it answers one, has sound stores. -/
def OutSound : Out → Prop
  | .next s => StoresSound s
  | .fault _ | .refused _ => True

/-! ## The clock -/

theorem sound_tick (hs : StoresSound s) : StoresSound (tick s) := by
  unfold tick
  exact sound_ite (fun _ => sound_frame hs rfl) fun _ => hs

/-! ## The Mast -/

/-! ### The power state (R91) -/

theorem outSound_ifStandby {g : State → State} (hg : ∀ {t}, StoresSound t → StoresSound (g t)) (hs : StoresSound s) :
    OutSound (ifStandby g s) :=
  sound_ite (fun _ => hg hs) fun _ => hs

theorem outSound_ifAwake {g : State → State} (hg : ∀ {t}, StoresSound t → StoresSound (g t)) (hs : StoresSound s) :
    OutSound (ifAwake g s) :=
  sound_ite (fun _ => hg hs) fun _ => hs

/-! ### ALERT_N (R291 to R296) -/

theorem sound_clearCause {v : Nat} (hs : StoresSound s) : StoresSound (clearCause v s) := by
  unfold clearCause
  extract_lets t
  have h : StoresSound t := sound_set _ _ _ hs
  exact sound_ite (fun _ => sound_set _ _ _ h) fun _ => h

/-! ### Logbook events (R749 to R757) -/

theorem sound_raiseAll {es : List Event} (hs : StoresSound s) : StoresSound (raiseAll es s) :=
  sound_foldl (fun _ _ h => sound_raiseEvent _ h) _ hs

/-! ## The defect map -/

/-! ### Areas and copies (R190 to R193) -/

theorem sound_writeA {grade : Nat} {gen : Word} {rs : List MapRec} (hs : StoresSound s) :
    StoresSound (writeA grade gen rs s) := by
  unfold writeA
  extract_lets
  split <;> exact sound_frame hs rfl

/-! ### The DMAP page -/

theorem sound_showRecord (hs : StoresSound s) : StoresSound (showRecord s) :=
  sound_set _ _ _ (sound_set _ _ _ (sound_set _ _ _ (sound_set _ _ _ hs)))

theorem sound_mapRegs (hs : StoresSound s) : StoresSound (mapRegs s) :=
  sound_showRecord (sound_set _ _ _ (sound_set _ _ _ (sound_set _ _ _ hs)))

/-! ### Writing copy B (R194, R197, R200, R201, R204) -/

theorem sound_beginFlash {op : FlashOp} (hs : StoresSound s) : StoresSound (beginFlash op s) := by
  unfold beginFlash
  exact sound_frame hs rfl

theorem sound_setB {i : Nat} {x : MapArea} (hs : StoresSound s) : StoresSound (setB i x s) := by
  unfold setB
  exact sound_ite (fun _ => sound_frame hs rfl) fun _ => sound_frame hs rfl

theorem sound_startWhole {w : WholeCopy} (hs : StoresSound s) : StoresSound (startWhole w s) :=
  sound_beginFlash (sound_setB hs)

theorem sound_pumpFlash (hs : StoresSound s) : StoresSound (pumpFlash s) := by
  unfold pumpFlash
  extract_lets
  refine sound_ite (fun _ => hs) fun _ => ?_
  split
  · exact sound_startWhole (sound_frame hs rfl)
  · exact sound_ite (fun _ => sound_beginFlash (sound_frame hs rfl)) fun _ =>
      sound_ite (fun _ => sound_startWhole hs) fun _ => hs
  · exact hs

theorem sound_addSlotB {y : MapSlot} (hs : StoresSound s) : StoresSound (addSlotB y s) := by
  unfold addSlotB
  extract_lets
  split
  · exact sound_setB hs
  · exact sound_setB hs
  · exact hs

theorem sound_flashFault {how : Nat} {late : Bool} (hs : StoresSound s) : StoresSound (flashFault how late s) := by
  unfold flashFault
  split
  · exact hs
  · extract_lets _ t
    have h : StoresSound t := by
      unfold t
      split
      · exact sound_addSlotB hs
      · exact hs
    split
    · exact sound_beginFlash h
    · exact sound_raiseEvent _ (sound_set _ _ _ (sound_frame h rfl))

theorem sound_wholeWritten {w : WholeCopy} (hs : StoresSound s) : StoresSound (wholeWritten w s) := by
  unfold wholeWritten
  exact sound_frame (sound_setB hs) rfl

theorem sound_flashDone (hs : StoresSound s) : StoresSound (flashDone s) := by
  unfold flashDone
  split
  · exact hs
  · exact sound_mapRegs (sound_pumpFlash (sound_frame (sound_addSlotB hs) rfl))
  · exact sound_beginFlash hs
  · exact sound_ite (fun _ => sound_beginFlash hs) fun _ => sound_mapRegs (sound_pumpFlash (sound_wholeWritten hs))

theorem sound_startWholeB {area : Nat} (hs : StoresSound s) : StoresSound (startWholeB area s) := by
  unfold startWholeB
  extract_lets
  split
  · exact sound_pumpFlash (sound_frame hs rfl)
  · exact hs

/-! ### Adding an entry (R193 to R198) -/

theorem sound_appendA {r : MapRec} (hs : StoresSound s) : StoresSound (appendA r s) := by
  unfold appendA
  extract_lets _ _ _ t
  have h : StoresSound t := by
    unfold t
    split
    · exact sound_frame hs rfl
    · exact sound_frame hs rfl
    · exact hs
  exact sound_mapRegs (sound_ite (fun _ => sound_pumpFlash (sound_frame h rfl)) fun _ => h)

theorem sound_holdUnrecorded {r : MapRec} (hs : StoresSound s) : StoresSound (holdUnrecorded r s) := by
  unfold holdUnrecorded
  exact sound_ite (fun _ => hs) fun _ => sound_frame hs rfl

theorem sound_commitRec {e : MapEntry} {logseq : Nat} (hs : StoresSound s) : StoresSound (commitRec e logseq s).1 := by
  unfold commitRec
  split
  · exact hs
  · extract_lets t
    have h : StoresSound t := sound_ite (fun _ => hs) fun _ => sound_writeA hs
    split
    · exact h
    · exact soundFst_ite (fun _ => soundFst_mk (sound_appendA h)) fun _ =>
        soundFst_mk (sound_holdUnrecorded (sound_raiseEvent _ (sound_set _ _ _ h)))

theorem sound_fieldRecord {f : Nat} (hs : StoresSound s) : StoresSound (fieldRecord s f) := by
  unfold fieldRecord
  refine sound_ite (fun _ => hs) fun _ => ?_
  split
  · exact sound_commitRec hs
  · exact hs

theorem sound_fieldRecords (hs : StoresSound s) : StoresSound (fieldRecords s) :=
  sound_foldl (fun _ _ h => sound_fieldRecord h) _ hs

theorem sound_addEntry {e : MapEntry} {logseq : Nat} (hs : StoresSound s) : StoresSound (addEntry e logseq s).1 :=
  soundFst_ite (fun _ => hs) fun _ => sound_commitRec hs

theorem sound_raiseEntry {ev : Event} {e : MapEntry} (hs : StoresSound s) : StoresSound (raiseEntry ev e s).1 := by
  unfold raiseEntry
  extract_lets t
  have h : StoresSound t.1 := sound_addEntry hs
  split
  · exact soundFst_mk (sound_raiseAll h)
  · exact soundFst_mk (sound_raiseEvent _ h)
  · exact soundFst_mk (sound_raiseEvent _ h)

/-! ### Reconciliation (R203 to R207) -/

theorem sound_reconcileEvent {n : Nat} (hs : StoresSound s) : StoresSound (reconcileEvent n s) :=
  sound_raiseEvent _ (sound_mapRegs (sound_set _ _ _ hs))

theorem sound_countTorn (hs : StoresSound s) : StoresSound (countTorn s) := sound_set _ _ _ hs

theorem sound_of_resolve {t : State} (ht : resolve s = some t) (hs : StoresSound s) : StoresSound t := by
  unfold resolve at ht
  split at ht
  · cases ht
  · cases ht
    exact sound_reconcileEvent (sound_startWholeB (sound_set _ _ _ hs))
  · cases ht
    exact sound_reconcileEvent (sound_writeA (sound_set _ _ _ hs))
  · dsimp only at ht
    split at ht
    · cases ht
      exact sound_mapRegs (sound_set _ _ _ (sound_set _ _ _ hs))
    · split at ht
      · split at ht <;> cases ht
        · exact sound_reconcileEvent (sound_startWholeB (sound_set _ _ _ hs))
        · exact sound_reconcileEvent (sound_writeA (sound_set _ _ _ hs))
      · cases ht
        exact sound_reconcileEvent (sound_pumpFlash (sound_writeA (sound_set _ _ _ hs)))

theorem sound_of_reconcile {t : State} (ht : reconcile s = some t) (hs : StoresSound s) : StoresSound t := by
  simp only [reconcile, Option.map_eq_some_iff] at ht
  obtain ⟨u, hu, rfl⟩ := ht
  have hu := sound_of_resolve hu (sound_countTorn hs)
  exact sound_fieldRecords hu

theorem sound_clearFlashFault (hs : StoresSound s) : StoresSound (clearFlashFault s) := sound_set _ _ _ hs

theorem sound_probeFlash {wake meets : Bool} {jedec : Word} (hs : StoresSound s) :
    StoresSound (probeFlash wake meets jedec s) := by
  unfold probeFlash
  extract_lets _ _ _ _ _ _ t
  have h : StoresSound t := sound_set _ _ _ (sound_set _ _ _ (sound_frame hs rfl))
  exact sound_ite (fun _ => sound_raiseEvent _ h) fun _ => sound_ite (fun _ => sound_raiseEvent _ h) fun _ => h

/-! ## Berths -/

/-! ### Tile states (R165, R168) and identifiers -/

theorem sound_setTileState {f t v : Nat} (hs : StoresSound s) : StoresSound (setTileState f t v s) := sound_set _ _ _ hs

theorem sound_setFieldState {f v : Nat} (hs : StoresSound s) : StoresSound (setFieldState f v s) := sound_set _ _ _ hs

/-! ### Berth slots (R322, R325) -/

theorem sound_berthSet {b : Nat} {F : Fld} {v : Nat} (hs : StoresSound s) : StoresSound (berthSet b F v s) :=
  sound_set _ _ _ hs

theorem sound_modBerths {p : BerthRun → Bool} {g : BerthRun → BerthRun} (hs : StoresSound s) :
    StoresSound (modBerths p g s) :=
  sound_modX _ hs

/-! ### Suspension (R344, R345) -/

theorem sound_suspendBerth {b : Nat} (hs : StoresSound s) : StoresSound (suspendBerth b s) :=
  sound_ite (fun _ => hs) fun _ => sound_raiseEvent _ (sound_modBerths (sound_modX _ (sound_berthSet hs)))

/-! ### Damage and loss (R339, R341, R350) -/

theorem sound_markParty {lid : Nat} (hs : StoresSound s) : StoresSound (markParty lid s) := by
  unfold markParty
  split
  · exact sound_modBerths hs
  · split
    · exact sound_modX _ hs
    · exact hs

theorem sound_loseHolder {lid : Nat} (hs : StoresSound s) : StoresSound (loseHolder lid s) :=
  sound_modBerths (sound_modX _ (sound_foldl (fun _ _ h => sound_berthSet h) _ hs))

theorem sound_suspendGone {lid : Nat} (hs : StoresSound s) : StoresSound (suspendGone lid s) :=
  sound_ite (fun _ => sound_foldl (fun _ _ h => sound_suspendBerth h) _ hs) fun _ => sound_modX _ hs

theorem sound_markLost {lid : Nat} (hs : StoresSound s) : StoresSound (markLost lid s) :=
  sound_suspendGone (sound_loseHolder (sound_modBerths (sound_markParty hs)))

/-! ## The roster -/

/-! ### Channel entries (R157, R166) -/

theorem sound_setChan1 {p : Nat × Nat} {ready fenced : Bool} (hs : StoresSound s) :
    StoresSound (setChan1 p ready fenced s) :=
  sound_setBit _ _ _ _ (sound_setBit _ _ _ _ hs)

theorem sound_setChan {h e : Nat} {ready fenced : Bool} (hs : StoresSound s) : StoresSound (setChan h e ready fenced s) :=
  sound_ite (fun _ => hs) fun _ => sound_ite (fun _ => sound_setChan1 (sound_setChan1 hs)) fun _ => sound_setChan1 hs

/-! ### Tile entries and spare-column repair (R209 to R212) -/

theorem sound_releaseMatrix {f t : Nat} (hs : StoresSound s) : StoresSound (releaseMatrix f t s) :=
  sound_ite (fun _ => hs) fun _ => sound_set _ _ _ hs

theorem sound_enterPassed {f t : Nat} (hs : StoresSound s) : StoresSound (enterPassed f t s) := by
  unfold enterPassed
  extract_lets _ t
  have h : StoresSound t := sound_setTileState hs
  exact sound_ite (fun _ => h) fun _ => sound_releaseMatrix h

theorem sound_promote1 {f t : Nat} (hs : StoresSound s) : StoresSound (promote1 f t s) :=
  sound_ite (fun _ => sound_enterPassed hs) fun _ => hs

theorem sound_promoteRow {f r : Nat} (hs : StoresSound s) : StoresSound (promoteRow f r s) :=
  sound_promote1 (sound_promote1 hs)

theorem sound_setAllTiles {f v : Nat} (hs : StoresSound s) : StoresSound (setAllTiles f v s) :=
  sound_foldl (fun _ _ h => sound_set _ _ _ h) _ hs

/-! ### What follows from the entries (R162, R163, R165) -/

theorem sound_counts (hs : StoresSound s) : StoresSound (counts s) :=
  sound_set _ _ _ (sound_set _ _ _ (sound_set _ _ _
    (sound_set _ _ _ (sound_foldl (fun _ _ h => sound_set _ _ _ h) _ (sound_set2 _ _ _ _ hs)))))

theorem sound_setPort {k p : Nat} {up : Bool} (hs : StoresSound s) : StoresSound (setPort k p up s) :=
  sound_ite (fun _ => sound_setBit _ _ _ _ hs) fun _ => sound_setBit _ _ _ _ hs

theorem sound_bringup (hs : StoresSound s) : StoresSound (bringup s) :=
  sound_set _ _ _ (sound_set _ _ _ (sound_set _ _ _ (sound_set _ _ _ hs)))

/-! ### End of service (R218, R219) -/

theorem sound_settleEos (hs : StoresSound s) : StoresSound (settleEos s) := by
  unfold settleEos
  extract_lets _ _ t
  have h : StoresSound t := sound_set _ _ _ hs
  exact sound_ite (fun _ => sound_raiseEvent _ (sound_set _ _ _ h)) fun _ => h

/-! ### The order of the events of one edge (R750) -/

theorem sound_orderEdge {s0 : State} (hs : StoresSound s) : StoresSound (orderEdge s0 s) := by
  unfold orderEdge
  exact sound_ite (fun _ => hs) fun _ => sound_frame hs rfl

theorem sound_settle {s0 : State} (hs : StoresSound s) : StoresSound (settle s0 s) := by
  unfold settle
  extract_lets _ s1 s2
  have h1 : StoresSound s1 := sound_set _ _ _ (sound_bringup (sound_counts hs))
  have h2 : StoresSound s2 := sound_ite (fun _ => sound_pageEvent _ h1) fun _ => h1
  exact sound_orderEdge (sound_settleEos (sound_ite (fun _ => sound_frame h2 rfl) fun _ => h2))

theorem outSound_ifReach {p : Nat} {g : State → State} (hg : ∀ {t}, StoresSound t → StoresSound (g t)) (hs : StoresSound s) :
    OutSound (ifReach p g s) :=
  outSound_ifAwake (fun h => sound_ite (fun _ => hg h) fun _ => h) hs

theorem sound_onRoster {g : State → State} (hg : ∀ {t}, StoresSound t → StoresSound (g t)) (hs : StoresSound s) :
    StoresSound (onRoster g s) :=
  sound_settle (hg hs)

/-! ## Links -/

/-! ### Packets -/

theorem sound_lose {p : Pkt} (hs : StoresSound s) : StoresSound (lose p s) :=
  sound_ite (fun _ => hs) fun _ => sound_ite (fun _ => sound_modNet _ hs) fun _ => hs

theorem sound_discardAt {f t : Nat} (hs : StoresSound s) : StoresSound (discardAt f t s) :=
  sound_setError _ _ (sound_bumpSat _ _ _ hs)

theorem sound_unrouted {k : Nat} (hs : StoresSound s) : StoresSound (unrouted k s) :=
  sound_setError _ _ (sound_bumpSat _ _ _ hs)

/-! ### Routes in computation (R608) -/

theorem sound_startRoutes (hs : StoresSound s) : StoresSound (startRoutes s) :=
  sound_foldl (fun _ _ h => sound_ite (fun _ => sound_set _ _ _ h) fun _ => h) _ hs

/-! ### Ends -/

theorem sound_modHaw {h e : Nat} {g : HawEnd → HawEnd} (hs : StoresSound s) : StoresSound (s.modHaw h e g) :=
  sound_setHaw _ _ _ hs

theorem sound_modVc {h e v : Nat} {g : HVc → HVc} (hs : StoresSound s) : StoresSound (s.modVc h e v g) := sound_modHaw hs

theorem sound_setLink {h e v : Nat} (hs : StoresSound s) : StoresSound (setLink h e v s) := sound_set _ _ _ hs

theorem sound_endError {h e n : Nat} (hs : StoresSound s) : StoresSound (endError h e n s) :=
  sound_ite (fun _ => sound_ite (fun _ => sound_setError _ _ hs) fun _ => sound_alertError _ _ hs) fun _ => hs

theorem sound_send {h e code w : Nat} (hs : StoresSound s) : StoresSound (send h e code w s) := sound_modHaw hs

theorem sound_sendTrain {h e w : Nat} (hs : StoresSound s) : StoresSound (sendTrain h e w s) := sound_modHaw hs

theorem sound_transmit {h e : Nat} (hs : StoresSound s) : StoresSound (transmit h e s) :=
  sound_ite (fun _ => sound_modHaw hs) fun _ => hs

theorem sound_received {h e code : Nat} {w : Word} (hs : StoresSound s) : StoresSound (received h e code w s) :=
  sound_modHaw hs

/-! ### Sending and replay (R642 to R651, R660, R663) -/

theorem sound_showHeld {h e : Nat} (hs : StoresSound s) : StoresSound (showHeld h e s) :=
  sound_set _ _ _ (sound_set _ _ _ hs)

theorem sound_sendNew {h e v : Nat} (hs : StoresSound s) : StoresSound (sendNew h e v s) := by
  unfold sendNew
  extract_lets
  split
  · exact hs
  · exact sound_showHeld (sound_modHaw (sound_bumpSat _ _ _ (sound_bump _ _ (sound_modVc hs))))

theorem sound_pump {h e n : Nat} (hs : StoresSound s) : StoresSound (pump h e n s) := by
  induction n generalizing s with
  | zero => exact hs
  | succ n ih =>
    unfold pump
    split
    · exact hs
    · exact ih (sound_sendNew hs)

theorem sound_pumpEnd {h e : Nat} (hs : StoresSound s) : StoresSound (pumpEnd h e s) := sound_pump hs

theorem sound_replayed {h e v n : Nat} (hs : StoresSound s) : StoresSound (replayed h e v n s) :=
  sound_modVc (sound_ite (fun _ => hs) fun _ => sound_bumpSat _ _ _ hs)

theorem sound_settleEnd {h e : Nat} (hs : StoresSound s) : StoresSound (settleEnd h e s) :=
  sound_ite (fun _ => sound_pumpEnd (sound_replayed (sound_replayed hs))) fun _ => hs

theorem sound_discardRouted {h e : Nat} {p : Pkt} (hs : StoresSound s) : StoresSound (discardRouted h e p s) := by
  unfold discardRouted
  extract_lets _ s1 s2 s3
  have h1 : StoresSound s1 := sound_bumpSat _ _ _ hs
  have h2 : StoresSound s2 := sound_ite (fun _ => sound_discardAt h1) fun _ => h1
  have h3 : StoresSound s3 := by
    unfold s3
    split
    · exact sound_modX _ h2
    · exact sound_foldl (fun _ _ h4 => sound_markParty h4) _ h2
  exact sound_lose h3

theorem sound_strand {p : Pkt} {k : Nat} (hs : StoresSound s) : StoresSound (strand p k s) :=
  sound_lose (sound_foldl (fun _ _ h => sound_markParty h) _ (sound_discardAt hs))

theorem sound_forward {p : Pkt} (hs : StoresSound s) : StoresSound (forward p s) := by
  unfold forward
  extract_lets
  refine sound_ite (fun _ => sound_strand hs) fun _ => ?_
  split
  · exact sound_modNet _ hs
  · exact sound_ite (fun _ => sound_settleEnd (sound_modVc hs)) fun _ => sound_discardRouted hs

theorem sound_replay {h e v : Nat} (hs : StoresSound s) : StoresSound (replay h e v s) := sound_modVc hs

theorem sound_release {h e v n : Nat} (hs : StoresSound s) : StoresSound (release h e v n s) :=
  sound_ite (fun _ => hs) fun _ => sound_showHeld (sound_modVc hs)

/-! ### Broken links (R671 to R673) -/

theorem sound_breakLink {h e reason : Nat} (hs : StoresSound s) : StoresSound (breakLink h e reason s) :=
  sound_endError (sound_foldl (fun _ _ h1 => sound_lose h1) _
    (sound_modX _ (sound_set _ _ _ (sound_set _ _ _
    (sound_bumpSat _ _ _ (sound_showHeld (sound_setLink (sound_setHaw _ _ _ hs))))))))

/-! ### Lanes (R627, R652 to R657, R668, R669) -/

theorem sound_setLane {h e n v : Nat} (hs : StoresSound s) : StoresSound (setLane h e n v s) :=
  sound_ite (fun _ => sound_set _ _ _ hs) fun _ => hs

theorem sound_showLanes {h e : Nat} (hs : StoresSound s) : StoresSound (showLanes h e s) :=
  sound_set _ _ _ (sound_set _ _ _ hs)

theorem sound_shedTx {h e n : Nat} (hs : StoresSound s) : StoresSound (shedTx h e n s) := by
  unfold shedTx
  extract_lets _ _ _ _ _ _ t
  have h1 : StoresSound t := sound_send (sound_set _ _ _ (sound_setHaw _ _ _ hs))
  exact sound_ite (fun _ => hs) fun _ => sound_ite (fun _ => sound_breakLink h1) fun _ => h1

theorem sound_reportLane {h e n : Nat} (hs : StoresSound s) : StoresSound (reportLane h e n s) :=
  sound_endError (sound_modX _ (sound_modHaw hs))

theorem sound_sendNak {h e v reason : Nat} {ln : Option Nat} (hs : StoresSound s) :
    StoresSound (sendNak h e v reason ln s) :=
  sound_modVc (sound_bumpSat _ _ _ (sound_send hs))

theorem sound_sendAck {h e v : Nat} (hs : StoresSound s) : StoresSound (sendAck h e v s) := sound_modVc (sound_send hs)

theorem sound_setNakSent {h e v : Nat} {b : Bool} (hs : StoresSound s) : StoresSound (setNakSent h e v b s) :=
  sound_setBit _ _ _ _ hs

/-! ### The receive buffer and flow control (R658 to R660) -/

theorem sound_sendFlow {h e : Nat} (hs : StoresSound s) : StoresSound (sendFlow h e s) := sound_send hs

theorem sound_flowCheck {h e v : Nat} (hs : StoresSound s) : StoresSound (flowCheck h e v s) :=
  sound_ite (fun _ => sound_sendFlow (sound_setBit _ _ _ _ hs)) fun _ =>
    sound_ite (fun _ => sound_sendFlow (sound_setBit _ _ _ _ hs)) fun _ => hs

theorem sound_toRouter {h e : Nat} {p : Pkt} (hs : StoresSound s) : StoresSound (toRouter h e p s) :=
  sound_ite (fun _ => sound_unrouted hs) fun _ => sound_forward hs

theorem sound_takeBuffered {h e : Nat} (hs : StoresSound s) : StoresSound (takeBuffered h e s) :=
  sound_flowCheck (sound_flowCheck (sound_foldl (fun _ _ h1 => sound_toRouter h1) _ (sound_modNet _ hs)))

/-! ### Training (R664 to R670) -/

theorem sound_enterProbe {h e : Nat} (hs : StoresSound s) : StoresSound (enterProbe h e s) := sound_setLink (sound_modHaw hs)

theorem sound_startEnd {h e : Nat} (hs : StoresSound s) : StoresSound (startEnd h e s) :=
  sound_ite (fun _ => sound_enterProbe hs) fun _ => hs

theorem sound_startEnds {h : Nat} (hs : StoresSound s) : StoresSound (startEnds h s) :=
  sound_foldl (fun _ _ h1 => sound_startEnd h1) _ hs

theorem sound_dropEnd {h e : Nat} (hs : StoresSound s) : StoresSound (dropEnd h e s) := by
  unfold dropEnd
  extract_lets _ _ _ _ s1
  have h1 : StoresSound s1 := sound_foldl
    (fun _ _ h2 => sound_lose (sound_foldl (fun _ _ h3 => sound_markParty h3) _ h2)) _
    (sound_showHeld (sound_setLink (sound_setHaw _ _ _ hs)))
  exact sound_ite (fun _ => hs) fun _ => sound_ite (fun _ => sound_setChan h1) fun _ => h1

theorem sound_failAttempt {h e : Nat} (hs : StoresSound s) : StoresSound (failAttempt h e s) :=
  sound_enterProbe (sound_endError (sound_bumpSat _ _ _ hs))

theorem sound_exchanged {h e : Nat} (hs : StoresSound s) : StoresSound (exchanged h e s) :=
  sound_ite (fun _ => sound_failAttempt hs) fun _ =>
    sound_sendTrain (sound_setLink (sound_showLanes
    (sound_set _ _ _ (sound_set _ _ _ (sound_foldl (fun _ _ h1 => sound_setLane h1) _ (sound_setHaw _ _ _ hs))))))

theorem sound_enterExchange {h e : Nat} (hs : StoresSound s) : StoresSound (enterExchange h e s) :=
  sound_foldl (fun _ _ h1 => sound_sendTrain h1) _ (sound_setLink hs)

theorem sound_enterUp {h e : Nat} (hs : StoresSound s) : StoresSound (enterUp h e s) := by
  unfold enterUp
  extract_lets _ _ _ _ _ _ _ _ s1
  have h1 : StoresSound s1 := sound_foldl
    (fun _ _ h2 => sound_shedTx h2) _ (sound_foldl (fun _ _ h2 => sound_reportLane h2) _
    (sound_setLink (sound_showHeld (sound_modHaw
    (sound_set _ _ _ (sound_set _ _ _ (sound_set _ _ _
    (sound_set _ _ _ (sound_set _ _ _ (sound_set _ _ _ (sound_set _ _ _ hs)))))))))))
  exact sound_ite (fun _ => sound_startRoutes (sound_onRoster sound_setChan h1)) fun _ => h1

/-! ## The data space of a tile -/

/-! ### Arbitration (R566, R571, R581, R582) -/

theorem sound_grant {k m t beats : Nat} (hs : StoresSound s) : StoresSound (grant k m t beats s) := by
  unfold grant
  extract_lets _ _ _ t
  have h : StoresSound t := sound_ite (fun _ => sound_frame hs rfl) fun _ => hs
  exact sound_frame h rfl

theorem sound_grantBursts {k m a n : Nat} (hs : StoresSound s) : StoresSound (grantBursts k m a n s) := by
  unfold grantBursts
  extract_lets _ t
  have h : StoresSound t := sound_grant hs
  exact sound_ite (fun _ => h) fun _ => sound_grant h

/-! ## Rigs -/

/-! ### Reaching a tile's rig and registers -/

theorem sound_bankSet {k : Nat} {F : Fld} {v : Nat} (hs : StoresSound s) : StoresSound (bankSet s k F v) :=
  sound_set _ _ _ hs

theorem sound_setPriv {k level : Nat} {berth : Bool} (hs : StoresSound s) : StoresSound (setPriv s k level berth) :=
  sound_set _ _ _ (sound_set _ _ _ hs)

/-! ### Fixed-latency results (R369 to R373) -/

theorem sound_raiseOne {k : Nat} {a : Arith} (hs : StoresSound s) : StoresSound (raiseOne k s a) :=
  sound_ite (fun _ => sound_modRig _ _ hs) fun _ => sound_modRig _ _ (sound_set _ _ _ hs)

theorem sound_raiseDue {k : Nat} (hs : StoresSound s) : StoresSound (raiseDue k s) :=
  sound_foldl (fun _ _ h => sound_raiseOne h) _ (sound_setRig _ _ hs)

theorem sound_settleRig {k : Nat} (hs : StoresSound s) : StoresSound (settleRig k s) := sound_raiseDue (sound_modRig _ _ hs)

/-! ### Where issue goes on (R358, R379, R381, R487) -/

theorem sound_setGstack {k i v : Nat} (hs : StoresSound s) : StoresSound (setGstack s k i v) := by
  unfold setGstack
  split <;> exact sound_set _ _ _ hs

theorem sound_saveShadow {k : Nat} (hs : StoresSound s) : StoresSound (saveShadow s k) :=
  sound_foldl (fun _ _ h => sound_setWord _ _ h) _ (sound_set _ _ _ hs)

theorem sound_loadShadow {k : Nat} (hs : StoresSound s) : StoresSound (loadShadow s k) := sound_modRig _ _ hs

theorem sound_histLoad {k : Nat} (hs : StoresSound s) : StoresSound (histLoad s k) := sound_set _ _ _ hs

theorem sound_foldReturn {k : Nat} {stopped : Bool} (hs : StoresSound s) : StoresSound (foldReturn s k stopped) :=
  sound_ite (fun _ => sound_modRig _ _ hs) fun _ => hs

theorem sound_arriveEret {k : Nat} (hs : StoresSound s) : StoresSound (arriveEret s k) :=
  sound_foldReturn (sound_modRig _ _ (sound_histLoad
    (sound_bankSet (sound_bankSet (sound_bankSet (sound_bankSet (sound_setPriv hs)))))))

theorem sound_arrive {k : Nat} {q : Pend} (hs : StoresSound s) : StoresSound (arrive s k q) := by
  unfold arrive
  extract_lets
  split
  · exact sound_modRig _ _ hs
  · exact sound_modRig _ _ hs
  · exact sound_modRig _ _ hs
  · exact sound_modRig _ _ (sound_setPriv (sound_set _ _ _ (sound_setGstack hs)))
  · exact sound_modRig _ _ (sound_setPriv (sound_set _ _ _ hs))
  · exact sound_modRig _ _ (sound_setPriv
      (sound_set _ _ _ (sound_set _ _ _ (sound_set _ _ _ (sound_set _ _ _ (sound_saveShadow hs))))))
  · exact sound_modRig _ _ (sound_set _ _ _ (sound_setPriv (sound_loadShadow hs)))
  · exact sound_modRig _ _ (sound_setPriv (sound_set _ _ _ (sound_set _ _ _ (sound_set _ _ _ hs))))
  · exact sound_modRig _ _ (sound_set _ _ _ (sound_setPriv hs))
  · exact sound_arriveEret hs

theorem sound_arrivals {k : Nat} (hs : StoresSound s) : StoresSound (arrivals s k) := by
  unfold arrivals
  extract_lets
  split
  · exact sound_arrive (sound_setRig _ _ hs)
  · exact hs

/-! ### The issue of one bundle -/

theorem sound_reefIssue {k n held c : Nat} (hs : StoresSound s) : StoresSound (reefIssue s k n held c) := by
  unfold reefIssue
  extract_lets _ _ _ s1 s2 s3
  have h1 : StoresSound s1 := sound_bumpSat _ _ _ (sound_bumpSat _ _ _ (sound_set _ _ _ hs))
  have h2 : StoresSound s2 := sound_ite (fun _ => h1) fun _ => sound_bumpSat _ _ _ h1
  have h3 : StoresSound s3 := by
    unfold s3
    split
    · exact sound_set _ _ _ (sound_set _ _ _ h2)
    · exact sound_set _ _ _ h2
  exact sound_ite (fun _ => h3) fun _ => sound_modRig _ _ h3

theorem sound_countBundle {k : Nat} (hs : StoresSound s) : StoresSound (countBundle s k) :=
  sound_ite (fun _ => sound_set2 _ _ _ _ hs) fun _ => hs

theorem sound_setFerry {k : Nat} {e : Ferry} (hs : StoresSound s) : StoresSound (s.setFerry k e) := by
  unfold State.setFerry
  exact sound_set _ _ _ (sound_set _ _ _ (sound_frame hs rfl))

theorem sound_closeFerry {k : Nat} (hs : StoresSound s) : StoresSound (closeFerry k s) := sound_setFerry hs

theorem sound_kickFerry {k : Nat} {t : Word} (hs : StoresSound s) : StoresSound (kickFerry s k t) := sound_setFerry hs

theorem sound_countImem {k a : Nat} {ue : Bool} (hs : StoresSound s) : StoresSound (countImem k a ue s) :=
  sound_set _ _ _ (sound_set _ _ _ (sound_set _ _ _ (sound_bumpSat _ _ _ hs)))

theorem sound_grantFetch {k : Nat} (hs : StoresSound s) : StoresSound (grantFetch k s) := by
  unfold grantFetch
  extract_lets _ t
  have h : StoresSound t := sound_grant hs
  exact sound_ite (fun _ => hs) fun _ => sound_ite (fun _ => sound_countImem h) fun _ => h

theorem sound_issue {k : Nat} (hs : StoresSound s) : StoresSound (issue s k) := by
  unfold issue
  extract_lets _ _ _ _ _ kick _ s1 s2
  have h1 : StoresSound s1 := sound_countBundle (sound_grantFetch (sound_atTime _ hs))
  have h2 : StoresSound s2 := by
    unfold s2
    clear_value kick
    split
    · exact sound_kickFerry h1
    · exact h1
  exact sound_arrivals (sound_setRig _ _ (sound_reefIssue h2))

theorem sound_reefHeld {k n : Nat} (hs : StoresSound s) : StoresSound (reefHeld k n s) :=
  sound_ite (fun _ => hs) fun _ => sound_bumpSat _ _ _ (sound_bumpSat _ _ _ hs)

theorem sound_holdIssue {k n : Nat} (hs : StoresSound s) : StoresSound (holdIssue k n s) := by
  induction n generalizing s with
  | zero => exact hs
  | succ n ih =>
    unfold holdIssue
    split
    · exact hs
    · extract_lets u
      have hu : StoresSound u := sound_raiseDue (sound_atTime _ hs)
      exact sound_ite (fun _ => hs) fun _ =>
        sound_ite (fun _ => sound_reefHeld (sound_atTime _ hu)) fun _ => ih (sound_atTime _ hu)

theorem sound_issueState {k : Nat} (hs : StoresSound s) : StoresSound (issueState k s) := by
  unfold issueState
  extract_lets t
  have h : StoresSound t := sound_settleRig hs
  exact sound_ite (fun _ => sound_holdIssue h) fun _ => h

theorem sound_issueWhere {row : State → Bool} {k : Nat} (hs : StoresSound s) : StoresSound (issueWhere row k s) := by
  unfold issueWhere
  extract_lets t
  have h : StoresSound t := sound_issueState hs
  exact sound_ite (fun _ => sound_ite (fun _ => sound_issue h) fun _ => h) fun _ => sound_settleRig hs

theorem sound_issueRow {row : List Dest → Bool} {k : Nat} (hs : StoresSound s) : StoresSound (issueRow row k s) :=
  sound_issueWhere hs

/-! ## Memory -/

theorem outSound_ifTile {f : FieldId} {t : TileId} {g : State → State} (hg : ∀ {t}, StoresSound t → StoresSound (g t))
    (hs : StoresSound s) : OutSound (ifTile f t g s) :=
  outSound_ifAwake (fun h => sound_ite (fun _ => hg h) fun _ => h) hs

/-! ### What a read of a word finds (R461, R465, R467, R796) -/

theorem sound_countCe {k a : Nat} {real : Bool} (hs : StoresSound s) : StoresSound (countCe k a real s) := by
  unfold countCe
  extract_lets _ _ t
  have h : StoresSound t := sound_set _ _ _ (sound_set _ _ _ (sound_bumpSat _ _ _ hs))
  exact sound_ite (fun _ => sound_setError _ _ h) fun _ => h

theorem sound_countUe {k a : Nat} (hs : StoresSound s) : StoresSound (countUe k a s) := by
  unfold countUe
  extract_lets _ _ _ t
  have h : StoresSound t := sound_alertError _ _
    (sound_set _ _ _ (sound_set _ _ _ (sound_set _ _ _ (sound_bumpSat _ _ _ hs))))
  exact sound_ite (fun _ => h) fun _ => sound_modX _ (sound_setBit _ _ _ _ h)

theorem sound_countInjUe {k a : Nat} {recorded : Bool} (hs : StoresSound s) : StoresSound (countInjUe k a recorded s) := by
  unfold countInjUe
  extract_lets _ t
  have h : StoresSound t := sound_bumpSat _ _ _ hs
  exact sound_ite (fun _ => h) fun _ => sound_set _ _ _ (sound_set _ _ _ (sound_set _ _ _ h))

theorem sound_findReal {k a : Nat} (hs : StoresSound s) : StoresSound (findReal k a s) := by
  unfold findReal
  extract_lets t
  have h : StoresSound t := sound_countCe hs
  split
  · exact hs
  · exact sound_ite (fun _ => sound_setWordErr _ _ _ h) fun _ => h
  · exact sound_countUe hs

theorem sound_readWord {k a : Nat} (hs : StoresSound s) : StoresSound (readWord k a s).1 := by
  unfold readWord
  extract_lets _ _ _ s1 _ s2
  have h1 : StoresSound s1 := sound_findReal hs
  have h2 : StoresSound s2 := sound_frame h1 rfl
  exact sound_ite (fun _ => sound_ite (fun _ => sound_countInjUe h2) fun _ =>
    sound_ite (fun _ => (sound_bumpSat _ _ _ h2)) fun _ => sound_countCe h2) fun _ => h1

theorem sound_readWords {k a n : Nat} (hs : StoresSound s) : StoresSound (readWords k a n s).1 := by
  induction n generalizing a s with
  | zero => exact hs
  | succ n ih => exact ih (sound_readWord hs)

theorem sound_readBytes {k a n : Nat} (hs : StoresSound s) : StoresSound (readBytes k a n s).1 := sound_readWords hs

/-! ### Stores (R462) -/

theorem sound_storeWord {k a o : Nat} {bs : List Byte} (hs : StoresSound s) : StoresSound (storeWord k a o bs s).1 := by
  unfold storeWord
  extract_lets t
  have h : StoresSound t.1 := sound_readWord hs
  refine soundFst_ite (fun _ => soundFst_mk (sound_setWordErr _ _ _ (sound_putBytes _ _ _ hs))) fun _ => ?_
  split
  · exact h
  · exact soundFst_mk (sound_setWordErr _ _ _ (sound_putBytes _ _ _ h))

theorem sound_storeBytes {k n a : Nat} {bs : List Byte} (hs : StoresSound s) : StoresSound (storeBytes k n a bs s).1 := by
  induction n generalizing a bs s with
  | zero => exact hs
  | succ n ih =>
    unfold storeBytes
    exact soundFst_ite (fun _ => hs) fun _ => ih (sound_storeWord hs)

theorem sound_writeBytes {k a : Nat} {bs : List Byte} (hs : StoresSound s) : StoresSound (writeBytes k a bs s).1 :=
  sound_storeBytes hs

/-! ### The rig and the post bay (R332) -/

theorem sound_readAs {rig : Bool} {k d n : Nat} (hs : StoresSound s) : StoresSound (readAs rig k d n s).1 :=
  soundFst_ite (fun _ => soundFst_mk (sound_modX _ hs)) fun _ => sound_readBytes hs

theorem sound_writeAs {rig berth : Bool} {k d : Nat} {bs : List Byte} (hs : StoresSound s) :
    StoresSound (writeAs rig berth k d bs s).1 :=
  soundFst_ite (fun _ => hs) fun _ => sound_writeBytes hs

/-! ### T11 (R572, R573, R590) -/

theorem sound_toT11 {k master kind a : Nat} (hs : StoresSound s) : StoresSound (toT11 k master kind a s) :=
  sound_setError _ _ (sound_bumpSat _ _ _ (sound_set _ _ _ (sound_set _ _ _ (sound_set _ _ _ (sound_set _ _ _ hs)))))

/-! ### IMEM (R468 to R472, R558) -/

theorem sound_incAddr {k : Nat} {inc : Bool} (hs : StoresSound s) : StoresSound (incAddr k inc s) :=
  sound_ite (fun _ => sound_bump _ _ hs) fun _ => hs

theorem sound_serveIf {k : Nat} {q : IfWait} (hs : StoresSound s) : StoresSound (serveIf k q s) := by
  unfold serveIf
  extract_lets _ t
  have h : StoresSound t := sound_grant hs
  split
  · exact sound_writeBundle _ _ _ h
  · exact sound_set _ _ _ (sound_set _ _ _
      (sound_set _ _ _ (sound_set _ _ _ (sound_set _ _ _ (sound_ite (fun _ => h) fun _ => sound_countImem h)))))

theorem sound_drainIf {k n : Nat} (hs : StoresSound s) : StoresSound (drainIf k n s) := by
  induction n generalizing s with
  | zero => exact hs
  | succ n ih =>
    unfold drainIf
    split
    · exact hs
    · exact sound_ite (fun _ => ih (sound_serveIf hs)) fun _ => hs

theorem sound_ifGo {k : Nat} {inc : Bool} {store : Option (BitVec 128)} (hs : StoresSound s) :
    StoresSound (ifGo k inc store s) := by
  unfold ifGo
  exact sound_incAddr (sound_drainIf (sound_frame hs rfl))

theorem sound_ifsGo {k : Nat} {inc : Bool} (hs : StoresSound s) : StoresSound (ifsGo k inc s) := sound_ifGo hs

theorem sound_iflGo {k : Nat} {inc : Bool} (hs : StoresSound s) : StoresSound (iflGo k inc s) := sound_ifGo hs

/-! ### Injection and patrol (R464, R467) -/

theorem sound_injectErr {k : Nat} {ue : Bool} (hs : StoresSound s) : StoresSound (injectErr k ue s) := by
  unfold injectErr
  exact sound_frame hs rfl

theorem sound_patrolLine {k b : Nat} (hs : StoresSound s) : StoresSound (patrolLine k b s) := by
  unfold patrolLine
  extract_lets _ _ _ s1
  have h1 : StoresSound s1 := sound_foldl (fun _ _ h2 => sound_findReal h2) _ hs
  exact sound_frame h1 rfl

theorem outSound_execPatrolScrub {f : FieldId} {t : TileId} {b : Fin 8} (hs : StoresSound s) :
    OutSound (execPatrolScrub f t b s) :=
  outSound_ifAwake (fun h => sound_ite (fun _ => sound_patrolLine h) fun _ => h) hs

/-! ## Routes -/

/-! ### The live routes (R603, R604, R611) -/

theorem sound_computeLive {f : Nat} {s0 : State} (hs : StoresSound s0) : StoresSound (computeLive f s0) := by
  unfold computeLive
  extract_lets _ _ _ _ _ _ s1
  have h1 : StoresSound s1 := sound_foldl
    (fun _ _ h2 => sound_set _ _ _ h2) _
    (sound_foldl (fun _ _ h2 => sound_set _ _ _ h2) _
    (sound_foldl (fun _ _ h2 => sound_set _ _ _ h2) _ (sound_set _ _ _ (sound_set _ _ _ (sound_set _ _ _ hs)))))
  exact sound_ite (fun _ => sound_bump _ _ h1) fun _ => h1

/-! ### New routes (R608, R609) -/

theorem sound_rerouteVc {f e v : Nat} (hs : StoresSound s) : StoresSound (rerouteVc f e v s) := by
  unfold rerouteVc
  extract_lets
  refine sound_ite (fun _ => hs) fun _ => ?_
  refine sound_foldl (fun _ _ h => ?_) _ (sound_modVc hs)
  split
  · exact sound_forward h
  · exact sound_lose (sound_discardAt h)

theorem sound_dropStranded {f : Nat} (hs : StoresSound s) : StoresSound (dropStranded f s) :=
  sound_foldl (fun _ _ h1 => sound_ite (fun _ => sound_rerouteVc (sound_rerouteVc h1)) fun _ => h1) _
    (sound_foldl (fun _ _ h2 => sound_lose (sound_discardAt h2)) _ (sound_modNet _ hs))

theorem outSound_execRouteComputeEnd {f : FieldId} (hs : StoresSound s) : OutSound (execRouteComputeEnd f s) := by
  unfold execRouteComputeEnd
  extract_lets
  refine outSound_ifAwake (fun h1 => ?_) hs
  extract_lets s2
  have h2 : StoresSound s2 := sound_set _ _ _ h1
  exact sound_ite (fun _ => sound_ite (fun _ => sound_dropStranded (sound_computeLive h2)) fun _ => sound_set _ _ _ h2)
    fun _ => h1

theorem sound_pendingRoutes (hs : StoresSound s) : StoresSound (pendingRoutes s) :=
  sound_foldl (fun _ _ h => sound_ite (fun _ => sound_dropStranded (sound_computeLive (sound_set _ _ _ h))) fun _ => h) _ hs

/-! ### What the topology table shows (R611) -/

theorem outSound_execLookupIn {f : FieldId} {lid : BitVec 16} (hs : StoresSound s) : OutSound (execLookupIn f lid s) :=
  outSound_ifReach (sound_set _ _ _) hs

/-! ## The mesh -/

/-! ### Leaving a tile -/

theorem sound_depart {k fd td : Nat} {p : Pkt} (hs : StoresSound s) : StoresSound (depart k fd td p s).1 := by
  unfold depart
  refine soundFst_ite (fun _ => soundFst_mk (sound_unrouted hs)) fun _ => ?_
  split
  · exact soundFst_mk (sound_forward (sound_bumpSat _ _ _ hs))
  · exact soundFst_mk (sound_unrouted hs)

theorem sound_departLid {k lid : Nat} {p : Pkt} (hs : StoresSound s) : StoresSound (departLid k lid p s).1 := by
  unfold departLid
  split
  · exact sound_depart hs
  · exact soundFst_mk (sound_unrouted hs)

theorem sound_answer {p : Pkt} {kind : Nat} {data : Word} {flits : List Byte} (hs : StoresSound s) :
    StoresSound (answer p kind data flits s) := by
  unfold answer
  extract_lets
  split
  · exact sound_forward hs
  · exact sound_lose hs

/-! ### Arriving at a tile or a landing -/

theorem sound_consume {i : Nat} {p : Pkt} (hs : StoresSound s) : StoresSound (consume i p s) := by
  unfold consume
  extract_lets s1 s2
  have h1 : StoresSound s1 := sound_modNet _ hs
  have h2 : StoresSound s2 := by
    unfold s2
    split
    · exact sound_transmit (sound_flowCheck h1)
    · exact h1
  exact sound_ite (fun _ => sound_bumpSat _ _ _ h2) fun _ => h2

/-! ## Function units -/

theorem outSound_unitRow {p : Dest → Bool} {f : FieldId} {t : TileId} (hs : StoresSound s) : OutSound (unitRow p f t s) :=
  sound_issueRow hs

theorem outSound_aluRow {op : AluOp} {f : FieldId} {t : TileId} (hs : StoresSound s) : OutSound (aluRow op f t s) :=
  outSound_unitRow hs

/-! ### Results (R369, R528) -/

theorem sound_unitResult {k : Nat} (hs : StoresSound s) : StoresSound (unitResult k s) := by
  unfold unitResult
  split
  · exact sound_settleRig (sound_ite (fun _ => hs) fun _ => sound_atTime _ hs)
  · exact sound_settleRig hs

/-! ## Loads and stores -/

/-! ### Issue -/

theorem outSound_accessRow {kind : Nat} {f : FieldId} {t : TileId} (hs : StoresSound s) : OutSound (accessRow kind f t s) :=
  outSound_unitRow hs

/-! ### Completion of an access -/

theorem sound_lsuDone {k : Nat} {v : Option Word} (hs : StoresSound s) : StoresSound (lsuDone k v s) := sound_modRig _ _ hs

theorem sound_raiseBus {k info bundle slot : Nat} {addr : Word} (hs : StoresSound s) :
    StoresSound (raiseBus k info bundle slot addr s) :=
  sound_modRig _ _ hs

theorem sound_lsuFail {k : Nat} (hs : StoresSound s) : StoresSound (lsuFail k s) := by
  unfold lsuFail
  split
  · exact hs
  · exact sound_raiseBus (sound_lsuDone hs)

theorem sound_dmemAccess {rig berth : Bool} {k d : Nat} {kind : LsuKind} {data cmp : Word} (hs : StoresSound s) :
    StoresSound (dmemAccess rig berth k d kind data cmp s).1 := by
  unfold dmemAccess
  extract_lets t
  have h : StoresSound t.1 := sound_readAs hs
  split
  · exact sound_readAs hs
  · exact sound_writeAs hs
  · exact hs
  · split
    · exact h
    · extract_lets
      split
      · exact h
      · exact sound_writeAs h

theorem sound_lsuLocal {k d : Nat} {a : LsuAcc} (hs : StoresSound s) : StoresSound (lsuLocal k d a s) := by
  unfold lsuLocal
  extract_lets t
  have h : StoresSound t.1 := sound_dmemAccess (sound_grant hs)
  split
  · exact sound_lsuDone h
  · exact sound_lsuFail h

theorem sound_lsuFar {k lid r : Nat} {a : LsuAcc} (hs : StoresSound s) : StoresSound (lsuFar k lid r a s) := by
  unfold lsuFar
  extract_lets t
  have h : StoresSound t.1 := sound_departLid (sound_grant hs)
  exact sound_ite (fun _ => sound_modRig _ _ h) fun _ => sound_lsuFail h

theorem sound_lsuStep {k : Nat} (hs : StoresSound s) : StoresSound (lsuStep k s) := by
  unfold lsuStep
  split
  · exact hs
  · extract_lets
    refine sound_ite (fun _ => hs) fun _ => ?_
    refine sound_ite (fun _ => sound_lsuDone hs) fun _ => ?_
    refine sound_ite (fun _ => sound_lsuFail hs) fun _ => ?_
    refine sound_ite (fun _ => hs) fun _ => ?_
    split
    · exact sound_lsuFail (sound_toT11 hs)
    · exact sound_ite (fun _ => hs) fun _ => sound_lsuLocal hs
    · exact sound_ite (fun _ => sound_lsuFar hs) fun _ => hs

theorem sound_lsuResponse {k tag : Nat} {v : Option Word} (hs : StoresSound s) : StoresSound (lsuResponse k tag v s) := by
  unfold lsuResponse
  split
  · exact hs
  · refine sound_ite (fun _ => ?_) fun _ => hs
    split
    · exact sound_lsuFail hs
    · exact sound_lsuDone hs

/-! ### FOLD -/

theorem sound_foldBytes {k : Nat} {bs : List Byte} (hs : StoresSound s) : StoresSound (foldBytes k bs s) :=
  sound_modRig _ _ hs

theorem sound_foldFail {k : Nat} (hs : StoresSound s) : StoresSound (foldFail k s) := sound_raiseBus (sound_modRig _ _ hs)

theorem sound_foldLocal {k d n : Nat} (hs : StoresSound s) : StoresSound (foldLocal k d n s) := by
  unfold foldLocal
  extract_lets t
  have h : StoresSound t.1 := sound_readAs (sound_grant hs)
  split
  · exact sound_foldFail h
  · exact sound_foldBytes h

theorem sound_foldFar {k lid r n : Nat} {fo : Fold} (hs : StoresSound s) : StoresSound (foldFar k lid r n fo s) := by
  unfold foldFar
  extract_lets _ _ t
  have h : StoresSound t.1 := sound_departLid (sound_grant hs)
  exact sound_ite (fun _ => sound_modRig _ _ h) fun _ => sound_foldFail h

theorem sound_foldStep {k : Nat} (hs : StoresSound s) : StoresSound (foldStep k s) := by
  unfold foldStep
  extract_lets t
  have h : StoresSound t := sound_settleRig hs
  refine sound_ite (fun _ => h) fun _ => ?_
  split
  · exact sound_foldFail (sound_toT11 h)
  · exact sound_ite (fun _ => sound_foldLocal h) fun _ => h
  · exact sound_ite (fun _ => sound_foldFar h) fun _ => h

theorem sound_foldResponse {k tag : Nat} {bs : Option (List Byte)} (hs : StoresSound s) :
    StoresSound (foldResponse k tag bs s) := by
  unfold foldResponse
  extract_lets t
  have h : StoresSound t := sound_settleRig hs
  refine sound_ite (fun _ => ?_) fun _ => h
  split
  · exact sound_foldBytes h
  · exact sound_foldFail h

/-! ## The ferry engine -/

/-! ### Credits (R581, R585) -/

theorem sound_setCredits (hs : StoresSound s) : StoresSound (setCredits s) := by
  unfold setCredits
  exact sound_frame hs rfl

theorem sound_creditEdge (hs : StoresSound s) : StoresSound (creditEdge s) := sound_atTime _ hs

theorem outSound_execCreditWindow (hs : StoresSound s) : OutSound (execCreditWindow s) :=
  outSound_ifAwake (fun h => sound_ite (fun _ => sound_setCredits (sound_creditEdge h)) fun _ => h) hs

/-! ### Descriptors (R614) -/

theorem sound_takeSeq {k : Nat} (hs : StoresSound s) : StoresSound (takeSeq k s) := sound_modX _ hs

/-! ### Bursts (R616, R617) -/

theorem sound_modAct {k : Nat} {g : FryAct → FryAct} (hs : StoresSound s) : StoresSound (modAct k g s) := sound_setFerry hs

theorem sound_fryFail {k code : Nat} (hs : StoresSound s) : StoresSound (fryFail k code s) := sound_modAct hs

theorem sound_frySent {k : Nat} {q : State × Bool} (hq : StoresSound q.1) : StoresSound (frySent k q) :=
  sound_ite (fun _ => sound_modAct hq) fun _ => sound_fryFail hq

theorem sound_fryGot {k : Nat} {bs : List Byte} (hs : StoresSound s) : StoresSound (fryGot k bs s) := sound_modAct hs

theorem sound_fryRead {k : Nat} {a : FryAct} (hs : StoresSound s) : StoresSound (fryRead k a s) := by
  unfold fryRead
  extract_lets
  split
  · exact sound_fryFail (sound_toT11 hs)
  · extract_lets t
    have h : StoresSound t.1 := sound_readAs (sound_grantBursts hs)
    split
    · exact sound_fryFail h
    · exact sound_fryGot h
  · extract_lets _ t
    have h : StoresSound t.1 := sound_departLid (sound_grant hs)
    exact sound_ite (fun _ => sound_modAct h) fun _ => sound_fryFail h

theorem sound_fryWrite {k : Nat} {a : FryAct} (hs : StoresSound s) : StoresSound (fryWrite k a s) := by
  unfold fryWrite
  extract_lets
  split
  · exact sound_fryFail (sound_toT11 hs)
  · extract_lets t
    have h : StoresSound t.1 := sound_writeAs (sound_grantBursts hs)
    exact sound_ite (fun _ => sound_modAct h) fun _ => sound_fryFail h
  · exact sound_modAct (sound_frySent (sound_departLid (sound_grant hs)))

theorem sound_putBundles {k n a : Nat} {bs : List Byte} (hs : StoresSound s) : StoresSound (putBundles k n a bs s) := by
  induction n generalizing a bs s with
  | zero => exact hs
  | succ n ih =>
    unfold putBundles
    exact sound_ite (fun _ => hs) fun _ => ih (sound_writeBundle _ _ _ hs)

theorem sound_fryBundles {k : Nat} {a : FryAct} (hs : StoresSound s) : StoresSound (fryBundles k a s) :=
  sound_drainIf (sound_modAct (sound_putBundles (sound_grant hs)))

/-! ### Posts, frames and their capture (R331, R348, R696) -/

theorem sound_sendPost {k lid seq : Nat} {a : FryAct} {body : List Byte} (hs : StoresSound s) :
    StoresSound (sendPost k lid seq a body s) :=
  sound_ite (fun _ => sound_frySent (sound_departLid (sound_grant hs))) fun _ =>
    sound_frySent (sound_departLid (sound_grant (sound_frySent (sound_departLid (sound_grant hs)))))

theorem sound_capture {k : Nat} {b : Latched} {a : FryAct} (hs : StoresSound s) : StoresSound (capture k b a s) :=
  sound_foldl (fun _ _ h => sound_sendPost (sound_takeSeq h)) _ hs

theorem sound_sendFrame {k n o : Nat} {a : FryAct} (hs : StoresSound s) : StoresSound (sendFrame k a n o s) := by
  induction n generalizing o s with
  | zero => exact hs
  | succ n ih =>
    unfold sendFrame
    exact sound_ite (fun _ => hs) fun _ => ih (sound_frySent (sound_depart (sound_grant hs)))

theorem sound_sendItem {k : Nat} {a : FryAct} (hs : StoresSound s) : StoresSound (sendItem k a s) := by
  unfold sendItem
  extract_lets berth s1 s2
  have h1 : StoresSound s1 := sound_modAct hs
  have h2 : StoresSound s2 := by
    unfold s2
    clear_value berth
    split
    · exact sound_ite (fun _ => h1) fun _ => sound_ite (fun _ => sound_sendPost h1) fun _ => sound_sendFrame h1
    · exact sound_ite (fun _ => sound_sendPost h1) fun _ => sound_sendFrame h1
  clear_value berth
  split
  · exact sound_ite (fun _ => sound_capture h2) fun _ => h2
  · exact h2

/-! ### The engine -/

theorem sound_fryBurst {k : Nat} (hs : StoresSound s) : StoresSound (fryBurst k s) := by
  unfold fryBurst
  split
  · exact hs
  · exact sound_ite (fun _ => hs) fun _ =>
      sound_ite (fun _ => sound_ite (fun _ => sound_fryRead hs) fun _ => sound_ite (fun _ => hs) fun _ => sound_fryWrite hs)
      fun _ => sound_ite (fun _ => sound_fryRead hs) fun _ => sound_ite (fun _ => sound_fryBundles hs) fun _ =>
      sound_sendItem hs

theorem sound_fryPump {k n : Nat} (hs : StoresSound s) : StoresSound (fryPump k n s) := by
  induction n generalizing s with
  | zero => exact hs
  | succ n ih =>
    unfold fryPump
    extract_lets t
    have ht : StoresSound t := sound_fryBurst hs
    exact sound_ite (fun _ => ht) fun _ => ih ht

theorem sound_runFerry {k : Nat} (hs : StoresSound s) : StoresSound (runFerry k s) :=
  sound_ite (fun _ => hs) fun _ => sound_fryPump hs

theorem sound_ferryAfterLine {k : Nat} (hs : StoresSound s) : StoresSound (ferryAfterLine k s) :=
  sound_ite (fun _ => sound_fryBurst hs) fun _ => sound_runFerry hs

theorem sound_readDescriptor {k : Nat} {r : FryReq} (hs : StoresSound s) : StoresSound (readDescriptor k r s).1 := by
  unfold readDescriptor
  extract_lets
  refine soundFst_ite (fun _ => hs) fun _ => ?_
  split
  · exact soundFst_mk (sound_toT11 hs)
  · exact sound_readWords (sound_grant hs)

theorem sound_startDescriptor {k : Nat} (hs : StoresSound s) : StoresSound (startDescriptor k s) := by
  unfold startDescriptor
  extract_lets
  split
  · extract_lets _ t
    have h : StoresSound t := sound_set _ _ _ (sound_readDescriptor hs)
    exact sound_ite (fun _ => hs) fun _ => sound_ite (fun _ => sound_runFerry (sound_takeSeq (sound_setFerry h))) fun _ =>
      sound_runFerry (sound_setFerry h)
  · exact hs

theorem sound_recordFerryError {k : Nat} {a : FryAct} {code : Nat} (hs : StoresSound s) :
    StoresSound (recordFerryError k a code s) :=
  sound_setError _ _ (sound_bumpSat _ _ _ (sound_set _ _ _ (sound_set _ _ _ hs)))

theorem sound_finishDescriptor {k : Nat} {a : FryAct} (hs : StoresSound s) : StoresSound (finishDescriptor k a s) := by
  unfold finishDescriptor
  extract_lets _ _ _ _ _ _ s1 s2
  have h1 : StoresSound s1 := sound_set _ _ _ (sound_bump _ _ (sound_setFerry hs))
  have h2 : StoresSound s2 := sound_ite (fun _ => h1) fun _ => sound_recordFerryError h1
  exact sound_ite (fun _ => sound_set _ _ _ h2) fun _ => h2

theorem sound_completeDescriptor {k : Nat} (hs : StoresSound s) : StoresSound (completeDescriptor k s) := by
  unfold completeDescriptor
  extract_lets t
  have h : StoresSound t := sound_runFerry hs
  split
  · exact sound_ite (fun _ => sound_finishDescriptor h) fun _ => h
  · exact h

/-! ### Responses -/

theorem sound_ferryData {k : Nat} {bs : List Byte} (hs : StoresSound s) : StoresSound (ferryData k bs s) := by
  unfold ferryData
  split
  · exact sound_ite (fun _ => sound_runFerry (sound_fryGot hs)) fun _ => hs
  · exact hs

theorem sound_writeDone {k : Nat} (hs : StoresSound s) : StoresSound (writeDone k s) := sound_modAct hs

theorem sound_ferryAck {k : Nat} (hs : StoresSound s) : StoresSound (ferryAck k s) := sound_runFerry (sound_writeDone hs)

theorem sound_ferryError {k tag : Nat} (hs : StoresSound s) : StoresSound (ferryError k tag s) := by
  unfold ferryError
  split
  · exact sound_ite (fun _ => sound_fryFail (sound_modAct hs)) fun _ => sound_fryFail (sound_writeDone hs)
  · exact hs

/-! ## Network landings -/

/-! ### Reaching a net landing -/

theorem sound_setNetSt {k : Nat} {n : NetSt} (hs : StoresSound s) : StoresSound (s.setNetSt k n) := by
  unfold State.setNetSt
  exact sound_set _ _ _ (sound_set _ _ _ (sound_frame hs rfl))

theorem sound_modNetSt {k : Nat} {g : NetSt → NetSt} (hs : StoresSound s) : StoresSound (s.modNetSt k g) := sound_setNetSt hs

theorem sound_countPort {k p i n : Nat} (hs : StoresSound s) : StoresSound (countPort k p i s n) := sound_bumpSat _ _ _ hs

theorem sound_countLanding {k i : Nat} (hs : StoresSound s) : StoresSound (countLanding k i s) :=
  sound_setError _ _ (sound_bumpSat _ _ _ hs)

theorem sound_setPstat {k p i : Nat} {b : Bool} (hs : StoresSound s) : StoresSound (setPstat k p i b s) :=
  sound_setBit _ _ _ _ hs

theorem outSound_ifLanding {k : Nat} {g : State → State} (hg : ∀ {t}, StoresSound t → StoresSound (g t)) (hs : StoresSound s)
    :
    OutSound (ifLanding k g s) :=
  outSound_ifAwake (fun h => sound_ite (fun _ => hg h) fun _ => h) hs

/-! ### The line (R682, R683, R700) -/

theorem sound_onLine {k p : Nat} {bs : List Byte} (hs : StoresSound s) : StoresSound (onLine k p bs s) := sound_modNetSt hs

theorem sound_sendPause {k quanta : Nat} (hs : StoresSound s) : StoresSound (sendPause k quanta s) :=
  sound_onLine (sound_onLine hs)

theorem sound_pauseCheck {k : Nat} (hs : StoresSound s) : StoresSound (pauseCheck k s) :=
  sound_ite (fun _ => sound_ite (fun _ => sound_sendPause (sound_modNetSt hs)) fun _ =>
    sound_ite (fun _ => sound_sendPause (sound_modNetSt hs)) fun _ => hs) fun _ => hs

theorem sound_sendPort {k p : Nat} (hs : StoresSound s) : StoresSound (sendPort k p s) :=
  sound_ite (fun _ => hs) fun _ => sound_ite (fun _ => sound_countPort (sound_setNetSt hs)) fun _ =>
    sound_ite (fun _ => hs) fun _ => sound_countPort (sound_setNetSt hs)

theorem sound_macControl {k p opcode quanta : Nat} (hs : StoresSound s) : StoresSound (macControl k p opcode quanta s) := by
  unfold macControl
  extract_lets s1 s2
  have h1 : StoresSound s1 := sound_countPort hs
  have h2 : StoresSound s2 := sound_setPstat (sound_modNetSt h1)
  exact sound_ite (fun _ => sound_ite (fun _ => sound_sendPort h2) fun _ => h2) fun _ => h1

theorem outSound_execPauseFrame {k : NetId} {p : Fin 2} {opcode quanta : BitVec 16} (hs : StoresSound s) :
    OutSound (execPauseFrame k p opcode quanta s) :=
  outSound_ifLanding (fun h => sound_ite (fun _ => sound_macControl h) fun _ => h) hs

theorem outSound_execPauseQuantaExpiry {k : NetId} {p : Fin 2} (hs : StoresSound s) :
    OutSound (execPauseQuantaExpiry k p s) :=
  outSound_ifLanding (fun h => sound_ite (fun _ => h) fun _ => sound_sendPort (sound_setPstat (sound_modNetSt h))) hs

/-! ### Ports (R680, R716) -/

theorem sound_netPortUp {k p : Nat} {pause : Bool} (hs : StoresSound s) : StoresSound (netPortUp k p pause s) :=
  sound_ite (fun _ => hs) fun _ => sound_pageEvent _
    (sound_onRoster sound_setPort (sound_setPstat (sound_setPstat (sound_setPstat (sound_setPstat hs)))))

theorem sound_netPortDown {k p : Nat} (hs : StoresSound s) : StoresSound (netPortDown k p s) :=
  sound_ite (fun _ => sound_pageEvent _
    (sound_onRoster sound_setPort (sound_sendPort
    (sound_modNetSt (sound_foldl (fun _ _ h => sound_setPstat h) _ (sound_countPort hs)))))) fun _ => hs

/-! ### Delivery (R689 to R692) -/

theorem sound_bayLost {k : Nat} {frame : Option Nat} (hs : StoresSound s) : StoresSound (bayLost k frame s) := by
  unfold bayLost
  split
  · exact hs
  · exact sound_ite (fun _ => hs) fun _ => sound_countLanding (sound_modNetSt hs)

theorem sound_landingSend {k lid : Nat} {p : Pkt} (hs : StoresSound s) : StoresSound (landingSend k lid p s).1 := by
  unfold landingSend
  split
  · exact hs
  · split
    · exact hs
    · exact soundFst_mk (sound_forward hs)

theorem sound_baySend {k j qos : Nat} {frame : Option Nat} {p : Pkt} (hs : StoresSound s) :
    StoresSound (baySend k j qos frame p s) := by
  unfold baySend
  extract_lets t
  have h : StoresSound t.1 := sound_landingSend hs
  exact sound_ite (fun _ => h) fun _ => sound_bayLost h

theorem sound_bayBlocks {k j qos n a : Nat} {frame : Option Nat} {bs : List Byte} (hs : StoresSound s) :
    StoresSound (bayBlocks k j qos frame n a bs s) := by
  induction n generalizing a bs s with
  | zero => exact hs
  | succ n ih =>
    unfold bayBlocks
    exact sound_ite (fun _ => hs) fun _ => ih (sound_baySend hs)

theorem sound_bayWord {k j qos : Nat} {frame : Option Nat} {a v : Nat} (hs : StoresSound s) :
    StoresSound (bayWord k j qos frame a v s) :=
  sound_baySend hs

theorem sound_setBay {k j h : Nat} {b : Bay} (hs : StoresSound s) : StoresSound (setBay k j h b s) := sound_modNetSt hs

theorem sound_bayHeader {k m j : Nat} (hs : StoresSound s) : StoresSound (bayHeader k m j s) :=
  sound_bayBlocks (sound_setBay hs)

theorem sound_bayCounts {k j h qos : Nat} {frame : Option Nat} (hs : StoresSound s) :
    StoresSound (bayCounts k j h qos frame s) :=
  sound_bayWord (sound_bayWord hs)

theorem sound_deliverFrame {k : Nat} {f : HeldFrame} (hs : StoresSound s) : StoresSound (deliverFrame k s f) := by
  unfold deliverFrame
  extract_lets
  split
  · exact sound_bayLost hs
  · exact sound_ite (fun _ => sound_bayCounts (sound_countLanding (sound_setBay hs))) fun _ =>
      sound_bayCounts (sound_setBay (sound_bayBlocks hs))

theorem sound_deliverHeld {k : Nat} (hs : StoresSound s) : StoresSound (deliverHeld k s) :=
  sound_pauseCheck (sound_foldl (fun _ _ h => sound_deliverFrame h) _ (sound_setNetSt hs))

theorem sound_bayRelease {k : Nat} (hs : StoresSound s) : StoresSound (bayRelease k s) := by
  unfold bayRelease
  split
  · exact hs
  · exact sound_deliverHeld (sound_modNetSt (sound_foldl (fun _ _ h => sound_bayHeader h) _ hs))

/-! ### Frames received (R681 to R687, R694) -/

/-- The definition itself as an equation: the kernel compares a call with its unfolding by evaluating the flow table. -/
theorem classify_eq : classify = delta% classify := rfl

theorem sound_classify {k p : Nat} {bs : List Byte} (hs : StoresSound s) : StoresSound (classify k p bs s) := by
  rw [classify_eq]
  beta_reduce
  extract_lets +onlyGivenNames t
  have h : StoresSound t := sound_countPort hs
  clear_value t
  split
  · exact sound_countPort h
  · exact sound_ite (fun _ => sound_countLanding h) fun _ => sound_ite (fun _ => sound_countLanding h) fun _ =>
      sound_deliverHeld (sound_setNetSt h)

theorem sound_countFec {k p corr uncorr : Nat} (hs : StoresSound s) : StoresSound (countFec k p corr uncorr s) :=
  sound_countPort (sound_countPort hs)

theorem sound_netFrameRx {k p : Nat} {bs : List Byte} {corr uncorr : Nat} (hs : StoresSound s) :
    StoresSound (netFrameRx k p bs corr uncorr s) := by
  unfold netFrameRx
  extract_lets t
  have h : StoresSound t := sound_countFec hs
  exact sound_ite (fun _ => hs) fun _ => sound_ite (fun _ => sound_countPort h) fun _ =>
    sound_ite (fun _ => sound_macControl h) fun _ => sound_classify h

/-! ### Egress (R696 to R700) -/

theorem sound_egressPacket {k : Nat} {p : Pkt} (hs : StoresSound s) : StoresSound (egressPacket k p s).1 := by
  unfold egressPacket
  extract_lets _ _ _ _ _ _ cur t
  have h : StoresSound t := sound_setNetSt hs
  clear_value cur
  split
  · exact soundFst_mk (sound_countLanding (sound_setNetSt hs))
  · extract_lets
    refine soundFst_ite (fun _ => soundFst_mk (sound_setNetSt hs)) fun _ => ?_
    split
    · exact soundFst_mk (sound_countLanding h)
    · exact soundFst_mk (sound_countLanding h)
    · exact soundFst_mk (sound_modNetSt h)

theorem sound_egressArrives {i : Nat} (hs : StoresSound s) : StoresSound (egressArrives i s) := by
  unfold egressArrives
  split
  · exact hs
  · extract_lets t
    have h : StoresSound t := sound_consume hs
    exact sound_answer (soundFst_ite (fun _ => sound_egressPacket h) fun _ => h)

theorem sound_releaseEgress {k : Nat} (hs : StoresSound s) : StoresSound (releaseEgress s k) :=
  sound_sendPort (sound_sendPort (sound_setNetSt hs))

theorem sound_egressTimeout {k p : Nat} (hs : StoresSound s) : StoresSound (egressTimeout k p s) := by
  unfold egressTimeout
  extract_lets
  split
  · exact sound_ite (fun _ => hs) fun _ => sound_setError _ _ (sound_countPort (sound_modNetSt (sound_atTime _ hs)))
  · exact hs

/-! ## Staged registers -/

/-! ### Shadows -/

theorem sound_followLive {a : Nat} (hs : StoresSound s) : StoresSound (followLive s a) :=
  sound_ite (fun _ => hs) fun _ => sound_setShadow _ _ hs

theorem sound_makeLive {p : Nat} (hs : StoresSound s) : StoresSound (makeLive p s) :=
  sound_foldl (fun _ _ h => sound_ite (fun _ => h) fun _ => sound_setWord _ _ h) _ hs

theorem sound_applyPage {p : Nat} (hs : StoresSound s) : StoresSound (applyPage p s) :=
  sound_bump _ _ (sound_set _ _ _ (sound_set _ _ _ (sound_makeLive hs)))

theorem sound_discardPage {p : Nat} (hs : StoresSound s) : StoresSound (discardPage p s) :=
  sound_set _ _ _ (sound_set _ _ _ (sound_set _ _ _ (sound_foldl (fun _ _ h => sound_followLive h) _ hs)))

theorem sound_discard {p : Nat} (hs : StoresSound s) : StoresSound (discard p s) :=
  sound_ite (fun _ => sound_setError _ _ hs) fun _ => sound_discardPage hs

theorem outSound_execDiscard {page : BitVec 40} (hs : StoresSound s) : OutSound (execDiscard page s) :=
  sound_ite (fun _ => sound_discard hs) fun _ => hs

/-! ### Halts -/

theorem sound_haltRig {k : Nat} (hs : StoresSound s) : StoresSound (haltRig k s) := by
  unfold haltRig
  extract_lets t
  have h : StoresSound t := sound_set _ _ _ hs
  exact sound_ite (fun _ => h) fun _ => sound_set _ _ _ h

theorem sound_releaseRig {k : Nat} (hs : StoresSound s) : StoresSound (releaseRig k s) := by
  unfold releaseRig
  extract_lets t
  have h : StoresSound t := sound_set _ _ _ hs
  exact sound_ite (fun _ => h) fun _ => sound_set _ _ _ (sound_setRig _ _ h)

theorem sound_haltReq {p : Nat} {request : Bool} (hs : StoresSound s) : StoresSound (haltReq p request s) := by
  unfold haltReq
  extract_lets _ t
  have h : StoresSound t := sound_set _ _ _ hs
  split
  · exact sound_ite (fun _ => sound_haltRig hs) fun _ => sound_releaseRig hs
  · exact sound_ite (fun _ => h) fun _ => sound_drainIf (sound_set _ _ _ h)
  · exact hs

theorem sound_haltPoint {p : Nat} (hs : StoresSound s) : StoresSound (haltPoint p s) := by
  unfold haltPoint
  extract_lets
  refine sound_ite (fun _ => hs) fun _ => ?_
  split
  · exact sound_ite (fun _ => hs) fun _ => sound_set _ _ _ hs
  · exact sound_set _ _ _ hs
  · exact hs

/-! ## Control -/

theorem sound_gateRow {ret : Bool} {k : Nat} (hs : StoresSound s) : StoresSound (gateRow ret k s) := sound_issueWhere hs

/-! ## Exceptions -/

/-! ### Entry (R524) -/

theorem sound_writeBank {k : Nat} {c : Choice} (hs : StoresSound s) : StoresSound (writeBank k c s) :=
  sound_foldl (fun _ _ h1 => sound_bankSet h1) _ (sound_foldl (fun _ _ h2 => sound_bankSet h2) _ hs)

theorem sound_writeEstat {k : Nat} {c : Choice} (hs : StoresSound s) : StoresSound (writeEstat k c s) :=
  sound_foldl (fun _ _ h => sound_bankSet h) _ hs

theorem sound_faultMarks {k : Nat} {c : Choice} (hs : StoresSound s) : StoresSound (faultMarks k c s) := by
  unfold faultMarks
  split
  · exact sound_ite (fun _ => sound_set _ _ _ hs) fun _ =>
      sound_ite (fun _ => sound_setError _ _ (sound_bumpSat _ _ _ hs)) fun _ => hs
  · exact hs

theorem sound_writeXb {k : Nat} {c : Choice} (hs : StoresSound s) : StoresSound (writeXb k c s) := by
  unfold writeXb
  extract_lets
  split
  · exact sound_ite (fun _ => sound_foldl (fun _ _ h => sound_set _ _ _ h) _ hs) fun _ => hs
  · exact hs

theorem sound_clearPending {k : Nat} {c : Choice} (hs : StoresSound s) : StoresSound (clearPending k c s) := by
  unfold clearPending
  split
  · exact sound_set _ _ _ hs
  · exact hs

theorem sound_saveHist {k : Nat} (hs : StoresSound s) : StoresSound (saveHist k s) := sound_set _ _ _ (sound_set _ _ _ hs)

theorem sound_enterHandler {k : Nat} {c : Choice} (hs : StoresSound s) : StoresSound (enterHandler k c s) :=
  sound_modRig _ _ (sound_bankSet (sound_setPriv
    (sound_saveHist (sound_clearPending (sound_writeEstat (sound_writeBank (sound_faultMarks (sound_writeXb hs))))))))

/-! ### Stops (R321, R327, R328, R534, R537) -/

theorem sound_stopTile {k : Nat} (hs : StoresSound s) : StoresSound (stopTile k s) := sound_closeFerry (sound_modRig _ _ hs)

theorem sound_toDraining (hs : StoresSound s) : StoresSound (toDraining s) :=
  sound_ite (fun _ => sound_set _ _ _ hs) fun _ => hs

theorem sound_stopBerth {l : Latched} {but : Nat} (hs : StoresSound s) : StoresSound (stopBerth l but s) :=
  sound_foldl (fun _ _ h => sound_stopTile h) _ hs

theorem sound_showReports {f : Nat} (hs : StoresSound s) : StoresSound (showReports f s) :=
  sound_set _ _ _ (sound_set _ _ _ (sound_set _ _ _ (sound_set _ _ _ hs)))

theorem sound_setReports {f : Nat} {q : List (BitVec 96)} (hs : StoresSound s) : StoresSound (setReports f q s) := by
  unfold setReports
  exact sound_showReports (sound_frame hs rfl)

theorem sound_pushReport {f : Nat} {x : BitVec 96} (hs : StoresSound s) : StoresSound (pushReport f x s) := by
  unfold pushReport
  extract_lets _ _ t
  have h : StoresSound t := sound_bumpSat _ _ _ hs
  exact sound_ite (fun _ => sound_pageEvent _ (sound_setReports h)) fun _ => sound_setError _ _ (sound_bumpSat _ _ _ h)

theorem sound_escalate {k : Nat} {c : Choice} (hs : StoresSound s) : StoresSound (escalate k c s) := by
  unfold escalate
  extract_lets _ s1 s2 _ _ _ _ s3
  have h1 : StoresSound s1 := sound_faultMarks hs
  have h2 : StoresSound s2 := by
    unfold s2
    split
    · exact sound_ite (fun _ => sound_alertError _ _ (sound_countImem h1)) fun _ => h1
    · exact h1
  have h3 : StoresSound s3 := sound_modX _ (sound_set _ _ _ (sound_closeFerry (sound_modRig _ _ (sound_pushReport h2))))
  refine sound_toDraining ?_
  split
  · exact h3
  · split
    · exact h3
    · exact sound_stopBerth (sound_modBerths h3)

theorem sound_handlerEntry {k : Nat} (hs : StoresSound s) : StoresSound (handlerEntry k s) := by
  unfold handlerEntry
  extract_lets s1 s2
  have h1 : StoresSound s1 := sound_settleRig hs
  have h2 : StoresSound s2 := sound_atTime _ h1
  refine sound_ite (fun _ => h1) fun _ => ?_
  split
  · exact h1
  · exact sound_ite (fun _ => sound_escalate h2) fun _ => sound_ite (fun _ => sound_enterHandler h2) fun _ =>
      sound_modRig _ _ h2

/-! ### Events (R520) -/

theorem sound_timerEvent {k : Nat} (hs : StoresSound s) : StoresSound (timerEvent k s) :=
  sound_ite (fun _ => sound_set _ _ _ (sound_set _ _ _ (sound_atTime _ hs))) fun _ => hs

theorem outSound_execRaise {f : FieldId} {t : TileId} (hs : StoresSound s) : OutSound (execRaise f t s) :=
  outSound_ifTile (sound_set _ _ _) hs

/-! ### PMODE (R511, R514, R234) -/

theorem sound_clearGwState {k : Nat} (hs : StoresSound s) : StoresSound (clearGwState k s) := sound_setWord _ _ hs

theorem sound_pmodeWrite {k : Nat} {split : Bool} (hs : StoresSound s) : StoresSound (pmodeWrite k split s) :=
  sound_ite (fun _ => sound_setError _ _ hs) fun _ => sound_ite (fun _ => hs) fun _ =>
    sound_clearGwState (sound_set _ _ _ (sound_set _ _ _ (sound_setPriv (sound_set _ _ _ hs))))

/-! ### Release (R535, R536) -/

theorem sound_releaseTile {k : Nat} (hs : StoresSound s) : StoresSound (releaseTile k s) := by
  unfold releaseTile
  extract_lets _ t
  have h : StoresSound t := sound_set _ _ _ (sound_modRig _ _ hs)
  exact sound_ite (fun _ => sound_ite (fun _ => sound_setTileState h) fun _ => h) fun _ => hs

theorem sound_escRelease {k : Nat} (hs : StoresSound s) : StoresSound (escRelease k s) := by
  unfold escRelease
  exact sound_ite (fun _ => hs) fun _ => sound_ite (fun _ => sound_onRoster sound_releaseTile hs) fun _ =>
    sound_ite (fun _ => hs) fun _ => sound_frame hs rfl

theorem outSound_execEscRelease {f : FieldId} {t : Nat} (hs : StoresSound s) : OutSound (execEscRelease f t s) := by
  refine outSound_ifReach (fun h => ?_) hs
  split
  · exact sound_escRelease h
  · exact h

theorem sound_popReport {f : Nat} (hs : StoresSound s) : StoresSound (popReport f s) := sound_setReports hs

/-! ## Hawsers -/

theorem outSound_atEnd {h : HostId} {e : EndId} {g : State → State} (hg : ∀ {t}, StoresSound t → StoresSound (g t))
    (hs : StoresSound s) : OutSound (atEnd h e g s) :=
  outSound_ifAwake (fun h1 => sound_ite (fun _ => sound_transmit (hg (sound_settleEnd h1))) fun _ => h1) hs

theorem outSound_atEndNow {h : HostId} {e : EndId} {g : State → State} (hg : ∀ {t}, StoresSound t → StoresSound (g t))
    (hs : StoresSound s) : OutSound (atEndNow h e g s) :=
  outSound_atEnd (fun h1 => hg (sound_settleEnd h1)) hs

theorem sound_linkItem {h e : Nat} (hs : StoresSound s) : StoresSound (linkItem h e s) :=
  sound_ite (fun _ => sound_enterUp hs) fun _ => hs

theorem sound_inUp {h e : Nat} {g : State → State} (hg : ∀ {t}, StoresSound t → StoresSound (g t)) (hs : StoresSound s) :
    StoresSound (inUp h e g s) := by
  unfold inUp
  extract_lets t
  have h1 : StoresSound t := sound_linkItem hs
  exact sound_ite (fun _ => hg h1) fun _ => h1

/-! ### What a direction's lanes carry (R628 to R634, R639) -/

theorem sound_deliver {h e v q len : Nat} {taken : Bool} (hs : StoresSound s) :
    StoresSound (deliver h e v q len taken s) := by
  unfold deliver
  extract_lets
  split
  · exact hs
  · exact sound_ite (fun _ => sound_toRouter hs) fun _ => sound_flowCheck (sound_modNet _ hs)

theorem sound_seqIn {h e v q len : Nat} {parity taken : Bool} (hs : StoresSound s) :
    StoresSound (seqIn h e v q len parity taken s) := by
  unfold seqIn
  extract_lets _ _ _ _ t
  have h1 : StoresSound t := sound_modVc (sound_bumpSat _ _ _ (sound_setNakSent (sound_set _ _ _ hs)))
  exact sound_ite (fun _ => sound_setNakSent (sound_modVc (sound_ite (fun _ => hs) fun _ => sound_sendNak hs))) fun _ =>
    sound_ite (fun _ => sound_ite (fun _ => sound_deliver (sound_ite (fun _ => sound_sendAck h1) fun _ => h1)) fun _ =>
    sound_ite (fun _ => hs) fun _ => sound_setNakSent (sound_sendNak hs)) fun _ =>
    sound_ite (fun _ => sound_sendAck hs) fun _ => sound_ite (fun _ => hs) fun _ => sound_setNakSent (sound_sendNak hs)

theorem sound_dataIn {h e hd bad : Nat} {parity taken : Bool} (hs : StoresSound s) :
    StoresSound (dataIn h e hd bad parity taken s) := by
  unfold dataIn
  extract_lets
  split
  · exact sound_breakLink hs
  · refine sound_ite (fun _ => hs) fun _ => ?_
    refine sound_ite (fun _ => sound_breakLink hs) fun _ => ?_
    split
    · exact sound_breakLink hs
    · exact sound_ite (fun _ => sound_breakLink (sound_transmit (sound_sendNak hs))) fun _ => sound_seqIn hs

theorem outSound_execDataPacket {h : HostId} {e : EndId} {hd : BitVec 64} {parity : Bool} {badType badLen : BitVec 2}
    {taken : Bool} (hs : StoresSound s) :
    OutSound (execDataPacket h e hd parity badType badLen taken s) :=
  outSound_atEndNow (fun h1 => sound_ite (fun _ => h1) fun _ => sound_inUp sound_dataIn h1) hs

/-! ### Commands (R639 to R641, R645 to R647, R654, R655) -/

theorem outSound_execHawserAck {h : HostId} {e : EndId} {w : Word} (hs : StoresSound s) :
    OutSound (execHawserAck h e w s) := by
  unfold execHawserAck
  extract_lets
  refine outSound_atEndNow (fun h1 => ?_) hs
  refine sound_inUp (fun h2 => ?_) h1
  extract_lets s3
  have h3 : StoresSound s3 := sound_received h2
  exact sound_ite (fun _ => sound_pumpEnd (sound_release h3)) fun _ => sound_breakLink h3

theorem sound_nakLane {h e n : Nat} (hs : StoresSound s) : StoresSound (nakLane h e n s) := by
  unfold nakLane
  extract_lets _ t
  have h1 : StoresSound t := sound_setHaw _ _ _ hs
  exact sound_ite (fun _ => sound_reportLane (sound_showLanes (sound_ite (fun _ => sound_setLane h1) fun _ => h1))) fun _ =>
    sound_ite (fun _ => sound_shedTx (sound_reportLane hs)) fun _ => hs

theorem sound_holdTimer {h e v : Nat} (hs : StoresSound s) : StoresSound (holdTimer h e v s) := sound_modVc hs

theorem sound_nakIn {h e w sent : Nat} (hs : StoresSound s) : StoresSound (nakIn h e w sent s) := by
  unfold nakIn
  extract_lets _ _ s1 _ s2 s3
  have h1 : StoresSound s1 := sound_bumpSat _ _ _ (sound_replayed hs)
  have h2 : StoresSound s2 := sound_holdTimer (sound_release h1)
  have h3 : StoresSound s3 := sound_ite (fun _ => sound_nakLane h2) fun _ => h2
  exact sound_ite (fun _ => sound_breakLink h1) fun _ => sound_ite (fun _ => sound_breakLink h1) fun _ =>
    sound_ite (fun _ => h3) fun _ => sound_pumpEnd (sound_ite (fun _ => h3) fun _ => sound_replay h3)

theorem outSound_execNak {h : HostId} {e : EndId} {w : Word} {sent : Nat} (hs : StoresSound s) :
    OutSound (execNak h e w s sent) :=
  outSound_atEnd (fun h1 => sound_inUp (fun h2 => sound_nakIn (sound_received h2)) h1) hs

theorem sound_laneIn {h e w : Nat} (hs : StoresSound s) : StoresSound (laneIn h e w s) := by
  unfold laneIn
  extract_lets _ _ _ _ _ s1 _ s2
  have h1 : StoresSound s1 := sound_ite (fun _ => sound_setLane hs) fun _ => hs
  have h2 : StoresSound s2 := sound_showLanes (sound_set _ _ _ (sound_ite (fun _ => sound_setLane h1) fun _ => h1))
  exact sound_ite (fun _ => sound_ite (fun _ => sound_breakLink h2) fun _ => h2) fun _ => sound_breakLink hs

theorem outSound_execLane {h : HostId} {e : EndId} {w : Word} (hs : StoresSound s) : OutSound (execLane h e w s) :=
  outSound_atEndNow (fun h1 => sound_inUp (fun h2 => sound_laneIn (sound_received h2)) h1) hs

theorem sound_flowIn {h e v sent : Nat} {off : Bool} (hs : StoresSound s) : StoresSound (flowIn h e v sent off s) :=
  sound_modVc (sound_setBit _ _ _ _ (sound_ite (fun _ => sound_replayed hs) fun _ => hs))

theorem outSound_execFlow {h : HostId} {e : EndId} {w : Word} {sent0 sent1 : Nat} (hs : StoresSound s) :
    OutSound (execFlow h e w s sent0 sent1) :=
  outSound_atEnd (fun h1 => sound_inUp (fun h2 => sound_pumpEnd (sound_flowIn (sound_flowIn (sound_received h2)))) h1) hs

theorem outSound_execUnknownItemType {h : HostId} {e : EndId} {framing : Bool} (hs : StoresSound s) :
    OutSound (execUnknownItemType h e framing s) :=
  outSound_atEndNow (fun h1 => sound_ite (fun _ => sound_breakLink h1) fun _ => h1) hs

/-! ### Training (R664 to R670) -/

theorem sound_maskIn {h e w : Nat} (hs : StoresSound s) : StoresSound (maskIn h e w s) := by
  unfold maskIn
  extract_lets s1 _ s2
  have h1 : StoresSound s1 := sound_ite (fun _ => sound_enterExchange hs) fun _ => hs
  have h2 : StoresSound s2 := sound_modHaw h1
  exact sound_ite (fun _ => h1) fun _ => sound_ite (fun _ => sound_exchanged h2) fun _ => h2

theorem outSound_execTrainMask {h : HostId} {e : EndId} {w : Word} (hs : StoresSound s) :
    OutSound (execTrainMask h e w s) := by
  unfold execTrainMask
  refine outSound_atEnd (fun h1 => ?_) hs
  extract_lets s2
  have h2 : StoresSound s2 := sound_received h1
  exact sound_ite (fun _ => sound_breakLink h2) fun _ => sound_maskIn h2

theorem sound_readyIn {h e w : Nat} {link : Bool} (hs : StoresSound s) : StoresSound (readyIn h e w link s) := by
  unfold readyIn
  split
  · exact sound_ite (fun _ => hs) fun _ => sound_enterExchange hs
  · exact sound_ite (fun _ => sound_sendTrain (sound_setLink hs)) fun _ => sound_failAttempt hs
  · exact sound_ite (fun _ => sound_enterUp hs) fun _ => hs
  · exact sound_ite (fun _ => hs) fun _ => sound_breakLink hs
  · exact hs

theorem outSound_execTrainReady {h : HostId} {e : EndId} {w : Word} {link : Bool} (hs : StoresSound s) :
    OutSound (execTrainReady h e w link s) :=
  outSound_atEnd (fun h1 => sound_readyIn (sound_received h1)) hs

theorem outSound_execLaneJudgedGood {h : HostId} {e : EndId} {lane : Nat} (hs : StoresSound s) :
    OutSound (execLaneJudgedGood h e lane s) :=
  outSound_atEnd (fun h1 => sound_ite (fun _ => sound_setHaw _ _ _ h1) fun _ => h1) hs

theorem outSound_execProbeWindowEnd {h : HostId} {e : EndId} (hs : StoresSound s) : OutSound (execProbeWindowEnd h e s) := by
  unfold execProbeWindowEnd
  refine outSound_atEnd (fun h1 => ?_) hs
  extract_lets
  split
  · exact sound_ite (fun _ => sound_enterExchange (sound_frame h1 rfl)) fun _ => h1
  · exact h1

theorem outSound_execTrainingAttemptTimeout {h : HostId} {e : EndId} (hs : StoresSound s) :
    OutSound (execTrainingAttemptTimeout h e s) := by
  unfold execTrainingAttemptTimeout
  refine outSound_atEnd (fun h1 => ?_) hs
  extract_lets _ _ _ s2
  have h2 : StoresSound s2 := sound_failAttempt (sound_frame h1 rfl)
  exact sound_ite (fun _ => sound_ite (fun _ => sound_startRoutes (sound_onRoster sound_setChan h2)) fun _ => h2) fun _ => h1

theorem outSound_execUpWaitReadyInterval {h : HostId} {e : EndId} (hs : StoresSound s) :
    OutSound (execUpWaitReadyInterval h e s) :=
  outSound_atEnd (fun h1 => sound_ite (fun _ => sound_sendTrain h1) fun _ => h1) hs

theorem outSound_execQuietEnd {h : HostId} {e : EndId} (hs : StoresSound s) : OutSound (execQuietEnd h e s) := by
  unfold execQuietEnd
  exact outSound_atEnd (fun h1 => sound_ite (fun _ => sound_enterProbe (sound_frame h1 rfl)) fun _ => h1) hs

theorem sound_breakEnd {h e : Nat} (hs : StoresSound s) : StoresSound (breakEnd h e s) :=
  sound_ite (fun _ => sound_breakLink hs) fun _ => hs

/-! ### Lane errors, timers and flow control -/

theorem sound_badLane {h e n : Nat} (hs : StoresSound s) : StoresSound (badLane h e n s) := by
  unfold badLane
  extract_lets _ t
  have h1 : StoresSound t := sound_setLane hs
  exact sound_reportLane (sound_bumpSat _ _ _ (sound_ite (fun _ => sound_modHaw h1) fun _ => h1))

theorem sound_nakLanes {h e : Nat} {inside : Option (Fin 2)} {active spare : List Nat} (hs : StoresSound s) :
    StoresSound (nakLanes h e inside active spare s) := by
  unfold nakLanes
  split
  · exact sound_foldl (fun _ _ h1 => sound_sendNak h1) _ (sound_modVc (sound_sendNak hs))
  · exact sound_foldl (fun _ _ h2 => sound_sendNak h2) _ hs

theorem sound_parityErrors {h e : Nat} {lanes : List Nat} {inside : Option (Fin 2)} (hs : StoresSound s) :
    StoresSound (parityErrors h e lanes inside s) :=
  sound_ite (fun _ => sound_breakLink hs) fun _ =>
    sound_foldl (fun _ _ h1 => sound_shedTx h1) _
    (sound_nakLanes (sound_showLanes (sound_foldl (fun _ _ h2 => sound_badLane h2) _ hs)))

theorem outSound_execLaneParityError {h : HostId} {e : EndId} {lanes : List Nat} {inside : Option (Fin 2)}
    (hs : StoresSound s) : OutSound (execLaneParityError h e lanes inside s) :=
  outSound_atEndNow (fun h1 => sound_ite (fun _ => sound_parityErrors h1) fun _ => h1) hs

theorem outSound_execAckTimerExpiry {h : HostId} {e : EndId} {v : Fin 2} (hs : StoresSound s) :
    OutSound (execAckTimerExpiry h e v s) := by
  unfold execAckTimerExpiry
  extract_lets
  refine outSound_atEndNow (fun h1 => ?_) hs
  extract_lets
  split
  · exact h1
  · extract_lets _ _ s2
    have h2 : StoresSound s2 := sound_modVc (sound_bumpSat _ _ _ (sound_frame h1 rfl))
    exact sound_ite (fun _ => h1) fun _ => sound_ite (fun _ => sound_breakLink h2) fun _ => sound_replay h2

theorem outSound_execAckDue {h : HostId} {e : EndId} {v : Fin 2} (hs : StoresSound s) : OutSound (execAckDue h e v s) := by
  unfold execAckDue
  refine outSound_atEndNow (fun h1 => ?_) hs
  extract_lets
  refine sound_ite (fun _ => ?_) fun _ => h1
  split
  · exact sound_takeBuffered h1
  · exact sound_sendAck (sound_takeBuffered (sound_frame h1 rfl))

theorem outSound_execFlowRefresh {h : HostId} {e : EndId} (hs : StoresSound s) : OutSound (execFlowRefresh h e s) :=
  outSound_atEndNow (fun h1 => sound_ite (fun _ => sound_sendFlow (sound_takeBuffered h1)) fun _ => h1) hs

theorem outSound_execCreditTimeout {h : HostId} {e : EndId} {v : Fin 2} (hs : StoresSound s) :
    OutSound (execCreditTimeout h e v s) := by
  unfold execCreditTimeout
  refine outSound_atEndNow (fun h1 => ?_) hs
  extract_lets
  split
  · exact sound_ite (fun _ => sound_breakLink (sound_frame h1 rfl)) fun _ => h1
  · exact h1

/-! ## Retirement -/

/-! ### Tiles that leave use -/

theorem sound_deadRig {k : Nat} (hs : StoresSound s) : StoresSound (deadRig k s) :=
  sound_modX _ (sound_setFerry (sound_setRig _ _ hs))

theorem sound_loseUse {lid : Nat} (hs : StoresSound s) : StoresSound (loseUse lid s) :=
  sound_suspendGone (sound_loseHolder (sound_modBerths hs))

theorem sound_fenceEnd {h e : Nat} (hs : StoresSound s) : StoresSound (fenceEnd h e s) :=
  sound_ite (fun _ => sound_setChan hs) fun _ => hs

theorem sound_dropDead {f : Nat} (hs : StoresSound s) : StoresSound (dropDead f s) :=
  sound_foldl (fun _ _ h => sound_ite (fun _ => sound_fenceEnd (sound_dropEnd h)) fun _ => h) _ hs

theorem sound_retireTile {f t : Nat} (hs : StoresSound s) : StoresSound (retireTile f t s) := by
  unfold retireTile
  extract_lets t
  have h : StoresSound t := by
    unfold t
    split
    · exact sound_ite (fun _ => sound_loseUse hs) fun _ => hs
    · exact hs
  exact sound_ite (fun _ => hs) fun _ => sound_dropDead (sound_promoteRow (sound_setTileState (sound_deadRig h)))

/-! ### Banks (R465, R466, R586) -/

theorem sound_scaleShares {k b : Nat} (hs : StoresSound s) : StoresSound (scaleShares k b s) := by
  unfold scaleShares
  extract_lets _ _ s1 _ _ s3 s4
  have h1 : StoresSound s1 := sound_foldl (fun _ _ h2 => sound_set _ _ _ h2) _ hs
  have h3 : StoresSound s3 := sound_frame h1 rfl
  have h4 : StoresSound s4 := sound_ite (fun _ => h3) fun _ => sound_setShadow _ _ (sound_setShadow _ _ h3)
  exact sound_ite (fun _ => sound_alertError _ _ h4) fun _ => h4

theorem sound_retireBank {f t b : Nat} (hs : StoresSound s) : StoresSound (retireBank f t b s) := by
  unfold retireBank
  extract_lets _ _ _ s1 s2
  have h1 : StoresSound s1 := sound_scaleShares (sound_setBit _ _ _ _ (sound_setBit _ _ _ _ hs))
  have h2 : StoresSound s2 := sound_ite (fun _ => sound_setTileState h1) fun _ => h1
  exact sound_ite (fun _ => hs) fun _ => sound_ite (fun _ => sound_foldl (fun _ _ h3 => sound_suspendBerth h3) _ h2) fun _ =>
    sound_modBerths h2

/-! ### Lanes (R656, R657) -/

theorem sound_retireLaneEnd {h e n : Nat} (hs : StoresSound s) : StoresSound (retireLaneEnd h e n s) := by
  unfold retireLaneEnd
  extract_lets t
  have h1 : StoresSound t := sound_modHaw hs
  exact sound_ite (fun _ => hs) fun _ => sound_ite (fun _ => h1) fun _ =>
    sound_ite (fun _ => sound_showLanes (sound_modHaw (sound_ite (fun _ => sound_setLane h1) fun _ => h1))) fun _ =>
    sound_transmit (sound_shedTx h1)

theorem sound_retireLane {f ctype cindex n : Nat} (hs : StoresSound s) : StoresSound (retireLane f ctype cindex n s) :=
  sound_retireLaneEnd (sound_retireLaneEnd hs)

/-! ### Fields -/

theorem sound_dropPackets {f : Nat} {mark : Bool} (hs : StoresSound s) : StoresSound (dropPackets f mark s) :=
  sound_foldl (fun _ _ h1 => sound_lose
    (sound_ite (fun _ => sound_foldl (fun _ _ h2 => sound_markParty h2) _ h1) fun _ => h1)) _ (sound_modNet _ hs)

theorem sound_clearField {f : Nat} (hs : StoresSound s) : StoresSound (clearField f s) :=
  sound_of_sublist hs List.filter_sublist List.filter_sublist List.filter_sublist List.filter_sublist (fun _ h => h)

theorem sound_bistCycles {f : Nat} (hs : StoresSound s) : StoresSound (bistCycles f s) := sound_set _ _ _ hs

theorem sound_removeField {f fieldTo tileTo : Nat} {lost : Bool} (hs : StoresSound s) :
    StoresSound (removeField f fieldTo tileTo lost s) := by
  unfold removeField
  extract_lets _ _ _ _ s1 _ s3
  have h1 : StoresSound s1 := sound_setAllTiles
    (sound_setFieldState (sound_foldl (fun _ _ h2 => sound_ite (fun _ => sound_markLost h2) fun _ => sound_loseUse h2) _
    (sound_ite (fun _ => sound_bistCycles hs) fun _ => hs)))
  have h3 : StoresSound s3 := sound_clearField (sound_dropPackets (sound_ite (fun _ => sound_dropDead h1) fun _ => h1))
  exact sound_ite (fun _ => sound_startRoutes h3) fun _ => h3

/-! ### Retirements (R49, R213 to R215, R608) -/

theorem sound_applyRetire {r : Retire} (hs : StoresSound s) : StoresSound (applyRetire r s) := by
  unfold applyRetire
  split
  · exact sound_retireTile hs
  · exact sound_ite (fun _ => hs) fun _ => sound_retireBank hs
  · exact sound_retireLane hs
  · exact sound_ite (fun _ => hs) fun _ => sound_removeField hs

theorem sound_applyRetirements (hs : StoresSound s) : StoresSound (applyRetirements s) := by
  unfold applyRetirements
  exact sound_foldl (fun _ _ h => sound_applyRetire h) _ (sound_frame hs rfl)

theorem sound_requestRetire {r : Retire} (hs : StoresSound s) : StoresSound (requestRetire r s) := by
  unfold requestRetire
  extract_lets s1 _ s2
  have h1 : StoresSound s1 := by
    unfold s1
    split
    · exact sound_setBit _ _ _ _ hs
    · exact hs
  have h2 : StoresSound s2 := sound_ite
    (fun _ => sound_applyRetire hs) fun _ => sound_ite (fun _ => h1) fun _ => sound_frame h1 rfl
  split
  · exact h2
  · exact sound_startRoutes (sound_dropDead h2)
  · exact sound_startRoutes (sound_dropDead h2)
  · exact sound_startRoutes h2

/-! ### Escalations at the roster (R35, R176, R208) -/

theorem sound_failRequests {f t : Nat} (hs : StoresSound s) : StoresSound (failRequests f t s) := by
  unfold failRequests
  exact sound_foldl (fun _ _ h => sound_lose h) _ (sound_frame hs rfl)

theorem sound_loseTile {f t : Nat} {inRouter : List Nat} (hs : StoresSound s) : StoresSound (loseTile f t inRouter s) := by
  unfold loseTile
  extract_lets _ _ s1 s4
  have h1 : StoresSound s1 := sound_foldl (fun _ _ h2 => sound_foldl (fun _ _ h3 => sound_markParty h3) _ h2) _ hs
  have h4 : StoresSound s4 := by
    unfold s4
    split
    · exact sound_markLost h1
    · exact h1
  exact sound_ite (fun _ => hs) fun _ =>
    sound_toDraining (sound_requestRetire
    (sound_dropDead (sound_failRequests (sound_foldl
    (fun _ _ h2 => sound_lose h2) _ (sound_modNet _ (sound_setTileState (sound_deadRig h4)))))))

theorem sound_escalation {e : Escalation} (hs : StoresSound s) : StoresSound (escalation e s) := by
  unfold escalation
  split
  · extract_lets s1
    have h1 : StoresSound s1 := sound_raiseEvent _ hs
    exact sound_ite (fun _ => sound_setTileState h1) fun _ => h1
  · exact sound_loseTile (sound_raiseEntry hs)
  · exact sound_requestRetire (sound_raiseEntry hs)
  · exact sound_startRoutes (sound_raiseEntry hs)
  · exact sound_startRoutes (sound_fenceEnd (sound_foldl (fun _ _ h2 => sound_markParty h2) _ (sound_raiseEvent _ hs)))

theorem sound_newFieldRecords {s0 : State} (hs : StoresSound s) : StoresSound (newFieldRecords s0 s) :=
  sound_foldl (fun _ _ h => sound_requestRetire h) _ (sound_fieldRecords hs)

theorem sound_reachRoster {e : Escalation} (hs : StoresSound s) : StoresSound (reachRoster e s) :=
  sound_ite (fun _ => hs) fun _ => sound_settle (sound_newFieldRecords (sound_escalation (sound_modX _ hs)))

/-! ## Store landings -/

/-! ### Registers -/

theorem sound_setStoreSt {k : Nat} {n : StoreSt} (hs : StoresSound s) : StoresSound (s.setStoreSt k n) := by
  unfold State.setStoreSt
  exact sound_frame hs rfl

theorem sound_modStoreSt {k : Nat} {g : StoreSt → StoreSt} (hs : StoresSound s) : StoresSound (s.modStoreSt k g) :=
  sound_setStoreSt hs

theorem sound_setPortStat {k p : Nat} {F : Fld} {v : Nat} (hs : StoresSound s) : StoresSound (setPortStat k p F v s) :=
  sound_set _ _ _ hs

theorem sound_countStore {k p i : Nat} (hs : StoresSound s) : StoresSound (countStore k p i s) := sound_bumpSat _ _ _ hs

theorem sound_slotSet {k i : Nat} {F : Fld} {v : Nat} (hs : StoresSound s) : StoresSound (slotSet k i F v s) :=
  sound_set _ _ _ hs

theorem outSound_ifStorePort {k : StoreId} {p : Fin 4} {g : State → State} (hg : ∀ {t}, StoresSound t → StoresSound (g t))
    (hs : StoresSound s) : OutSound (ifStorePort k p g s) :=
  outSound_ifLanding (fun h => sound_ite (fun _ => hg h) fun _ => h) hs

/-! ### Transfers (R707 to R710) -/

theorem sound_modXfer {k i : Nat} {g : Xfer → Xfer} (hs : StoresSound s) : StoresSound (modXfer k i g s) :=
  sound_modStoreSt hs

theorem sound_skipTile {k i lid : Nat} (hs : StoresSound s) : StoresSound (skipTile k i lid s) := by
  unfold skipTile
  extract_lets
  split
  · exact hs
  · exact sound_ite (fun _ => sound_modXfer hs) fun _ => sound_ite (fun _ => hs) fun _ =>
      sound_bumpSat _ _ _ (sound_modXfer hs)

theorem sound_xferSend {k i : Nat} {x : Xfer} {lid : Nat} {p : Pkt} (hs : StoresSound s) :
    StoresSound (xferSend k i x lid p s) := by
  unfold xferSend
  extract_lets t
  have h : StoresSound t.1 := sound_landingSend hs
  exact sound_ite (fun _ => sound_modXfer h) fun _ => sound_skipTile h

theorem sound_xferBlock {k i : Nat} {x : Xfer} {a : Nat} {bs : List Byte} (hs : StoresSound s) :
    StoresSound (xferBlock k i x a bs s) :=
  sound_foldl (fun _ _ h => sound_xferSend h) _ hs

theorem sound_xferBlocks {k i n a : Nat} {x : Xfer} {bs : List Byte} (hs : StoresSound s) :
    StoresSound (xferBlocks k i x n a bs s) := by
  induction n generalizing a bs s with
  | zero => exact hs
  | succ n ih =>
    unfold xferBlocks
    exact sound_ite (fun _ => hs) fun _ => ih (sound_xferBlock hs)

theorem sound_xferReads {k i n o : Nat} {x : Xfer} (hs : StoresSound s) : StoresSound (xferReads k i x n o s) := by
  induction n generalizing o s with
  | zero => exact hs
  | succ n ih =>
    unfold xferReads
    exact sound_ite (fun _ => hs) fun _ => ih (sound_xferSend hs)

/-! ### The commands of the drive (R705, R709) -/

theorem sound_modNvme {k p : Nat} {g : Nvme → Nvme} (hs : StoresSound s) : StoresSound (modNvme k p g s) :=
  sound_modStoreSt hs

theorem sound_submit {k : Nat} {x : Xfer} {at' upTo : Nat} (hs : StoresSound s) : StoresSound (submit k x at' upTo s) :=
  sound_ite (fun _ => hs) fun _ => sound_modNvme hs

theorem sound_submitWrites {k i : Nat} (hs : StoresSound s) : StoresSound (submitWrites k i s) := by
  unfold submitWrites
  split
  · exact hs
  · exact sound_ite (fun _ => hs) fun _ => sound_modXfer (sound_submit hs)

theorem sound_askTile {k : Nat} {x : Xfer} (hs : StoresSound s) : StoresSound (askTile k s x) := by
  unfold askTile
  extract_lets t
  have h : StoresSound t := sound_modXfer hs
  exact sound_ite (fun _ => sound_ite (fun _ => sound_xferReads h) fun _ => sound_submit h) fun _ => hs

theorem sound_askTiles {k : Nat} (hs : StoresSound s) : StoresSound (askTiles k s) :=
  sound_foldl (fun _ _ h => sound_askTile h) _ hs

theorem sound_endXfer {k i res : Nat} (hs : StoresSound s) : StoresSound (endXfer k i res s) := by
  unfold endXfer
  extract_lets
  split
  · exact hs
  · extract_lets _ t
    have h : StoresSound t := sound_slotSet (sound_slotSet (sound_slotSet (sound_modNvme (sound_modStoreSt hs))))
    exact sound_askTiles (sound_ite (fun _ => h) fun _ => sound_setError _ _ h)

theorem sound_startXferAt {k i : Nat} {inCrossing : Bool} (hs : StoresSound s) :
    StoresSound (startXferAt k i inCrossing s) := by
  unfold startXferAt
  split
  · exact hs
  · extract_lets _ t
    have h : StoresSound t := sound_modXfer (sound_slotSet hs)
    split
    · exact sound_endXfer h
    · exact sound_askTiles h

theorem sound_startWaiting {k : Nat} (hs : StoresSound s) : StoresSound (startWaiting s k) :=
  sound_foldl (fun _ _ h => sound_startXferAt h) _ hs

theorem sound_xctlWrite {k i : Nat} {v : Word} (hs : StoresSound s) : StoresSound (xctlWrite k i v s) := by
  unfold xctlWrite
  extract_lets _ s1 _ _ s2
  have h1 : StoresSound s1 := sound_slotSet (sound_slotSet (sound_slotSet hs))
  have h2 : StoresSound s2 := sound_slotSet (sound_slotSet (sound_slotSet (sound_slotSet (sound_modStoreSt h1))))
  exact sound_ite (fun _ => h1) fun _ => sound_ite (fun _ => sound_startXferAt h2) fun _ => h2

theorem sound_nvmeDone {k i status : Nat} {data : List Byte} (hs : StoresSound s) :
    StoresSound (nvmeDone k i status data s) := by
  unfold nvmeDone
  split
  · exact hs
  · split
    · exact hs
    · extract_lets _ t
      have h : StoresSound t := sound_countStore (sound_modNvme hs)
      exact sound_ite (fun _ => hs) fun _ => sound_ite (fun _ => h) fun _ => sound_ite (fun _ => sound_modXfer h) fun _ =>
        sound_slotSet (sound_modXfer (sound_ite (fun _ => h) fun _ => sound_xferBlocks h))

theorem sound_xferComplete {k i : Nat} (hs : StoresSound s) : StoresSound (xferComplete k i s) := by
  unfold xferComplete
  split
  · exact hs
  · exact sound_ite (fun _ => sound_endXfer hs) fun _ => hs

theorem sound_xferAnswer {k i tag : Nat} {ok : Bool} {bytes : List Byte} (hs : StoresSound s) :
    StoresSound (xferAnswer k i tag ok bytes s) := by
  unfold xferAnswer
  extract_lets t
  have h : StoresSound t := sound_modXfer hs
  split
  · exact hs
  · exact sound_ite (fun _ => sound_submitWrites h) fun _ => sound_skipTile h

/-! ### Ports (R703, R704, R711) -/

theorem sound_endPort {k p : Nat} (hs : StoresSound s) : StoresSound (endPort k p s) :=
  sound_foldl (fun _ _ h => sound_endXfer h) _ hs

theorem sound_portLost {k p : Nat} (hs : StoresSound s) : StoresSound (portLost k p s) := by
  unfold portLost
  extract_lets _ _ _ s1
  have h1 : StoresSound s1 := sound_modNvme
    (sound_endPort (sound_foldl (fun _ _ h2 => sound_setPortStat h2) _
    (sound_ite (fun _ => sound_countStore hs) fun _ => hs)))
  exact sound_ite (fun _ => sound_pageEvent _ (sound_onRoster sound_setPort h1)) fun _ => h1

theorem sound_lowerPerst {k p : Nat} (hs : StoresSound s) : StoresSound (lowerPerst k p s) := sound_modStoreSt hs

theorem sound_resetPort {k p : Nat} (hs : StoresSound s) : StoresSound (resetPort k p s) :=
  sound_lowerPerst (sound_portLost hs)

theorem sound_resetPorts {k : Nat} (hs : StoresSound s) : StoresSound (resetPorts k s) :=
  sound_foldl (fun _ _ h => sound_resetPort h) _ hs

theorem sound_xferTimeout {k i : Nat} (hs : StoresSound s) : StoresSound (xferTimeout k i s) := by
  unfold xferTimeout
  split
  · exact sound_resetPort (sound_endXfer (sound_atTime _ hs))
  · exact hs

theorem sound_releasePerst {k p : Nat} (hs : StoresSound s) : StoresSound (releasePerst k p s) := by
  unfold releasePerst
  extract_lets
  split
  · exact hs
  · exact sound_modStoreSt (sound_atTime _ hs)

theorem sound_storeLinkUp {k p gen width : Nat} (hs : StoresSound s) : StoresSound (storeLinkUp k p gen width s) :=
  sound_ite (fun _ => hs) fun _ => sound_modNvme (sound_setPortStat (sound_setPortStat (sound_setPortStat hs)))

theorem sound_storePortUp {k p lbads : Nat} (hs : StoresSound s) : StoresSound (storePortUp k p lbads s) :=
  sound_ite (fun _ => sound_pageEvent _
    (sound_onRoster sound_setPort (sound_setPortStat (sound_setPortStat (sound_modNvme hs))))) fun _ => hs

theorem sound_deviceLate {k p : Nat} (hs : StoresSound s) : StoresSound (deviceLate k p s) :=
  sound_ite (fun _ => sound_resetPort (sound_atTime _ hs)) fun _ => hs

theorem outSound_execStoreLinkDown {k : StoreId} {p : Fin 4} (hs : StoresSound s) : OutSound (execStoreLinkDown k p s) :=
  outSound_ifStorePort (fun h => sound_ite (fun _ => sound_portLost h) fun _ => h) hs

/-! ### The drives' requests (R702, R706) -/

theorem sound_inboundRequest {k p : Nat} {target : Inbound} (hs : StoresSound s) :
    StoresSound (inboundRequest k p target s) := by
  unfold inboundRequest
  split
  · exact sound_countStore hs
  · exact sound_ite (fun _ => hs) fun _ => sound_countStore hs
  · exact sound_countStore hs

theorem outSound_execInboundRequest {k : StoreId} {p : Fin 4} {target : Inbound} (hs : StoresSound s) :
    OutSound (execInboundRequest k p target s) :=
  outSound_ifStorePort (fun h => sound_ite (fun _ => sound_inboundRequest h) fun _ => h) hs

/-! ## The hoist -/

/-- The hoist sequencer's own fields are no part of the stores, but its set is. -/
theorem sound_modH {g : HoistSt → HoistSt} (hg : (g s.m.hoist).set = s.m.hoist.set) (hs : StoresSound s) :
    StoresSound (s.modH g) := sound_of_eq hs rfl rfl rfl rfl hg

theorem sound_modH_of_pages {g : HoistSt → HoistSt} (hg : ∀ p ∈ (g s.m.hoist).set, pageOf p = p) (hs : StoresSound s) :
    StoresSound (s.modH g) := ⟨hs.1, hg⟩

theorem sound_setHoistState {v : Nat} (hs : StoresSound s) : StoresSound (setHoistState v s) := sound_set _ _ _ hs

/-! ### CHECK, ARM, DISARM and ABORT (R242 to R245, R253, R254) -/

theorem sound_lockSet {b : Bool} (hs : StoresSound s) : StoresSound (lockSet b s) :=
  sound_foldl (fun _ _ h => sound_set _ _ _ h) _ hs

theorem pageOf_pageOf (a : Nat) : pageOf (pageOf a) = pageOf a := by
  unfold pageOf
  omega

theorem pageOf_of_mem_dirtyPages {p : Nat} (hp : p ∈ dirtyPages s) : pageOf p = p := by
  obtain ⟨e, -, rfl⟩ := List.mem_map.1 hp
  exact pageOf_pageOf e.1

theorem sound_startCheck {arming : Bool} (hs : StoresSound s) : StoresSound (startCheck arming s) :=
  sound_ite (fun _ => sound_set _ _ _ hs) fun _ => sound_set _ _ _ (sound_set _ _ _ (sound_set _ _ _ (sound_setHoistState
    (sound_lockSet (sound_modH_of_pages (fun _ => pageOf_of_mem_dirtyPages) hs)))))

theorem sound_toIdle (hs : StoresSound s) : StoresSound (toIdle s) :=
  sound_modH rfl (sound_setHoistState (sound_set _ _ _ (sound_lockSet hs)))

theorem sound_disarm (hs : StoresSound s) : StoresSound (disarm s) := sound_ite (fun _ => sound_toIdle hs) fun _ => hs

theorem sound_abort (hs : StoresSound s) : StoresSound (abort s) :=
  sound_ite (fun _ => sound_set _ _ _ (sound_toIdle hs)) fun _ => hs

/-! ### The check (R247 to R251, R255, R256) -/

theorem sound_pushEntry {x : BitVec 64} (hs : StoresSound s) : StoresSound (pushEntry s x) :=
  sound_modH rfl (sound_setError _ _ (sound_bumpSat _ _ _ (sound_set _ _ _ (sound_set _ _ _ hs))))

theorem sound_pushEntries (hs : StoresSound s) : StoresSound (pushEntries s) := by
  refine sound_modH ?_ (sound_set _ _ _ (sound_foldl (fun _ _ h => sound_pushEntry h) _ (sound_modH rfl hs)))
  split
  · rfl
  · split <;> rfl

theorem sound_judgeSet (hs : StoresSound s) : StoresSound (judgeSet s) :=
  sound_pushEntries (sound_modH rfl (sound_foldl (fun _ _ h => sound_set _ _ _ (sound_set _ _ _ h)) _ hs))

theorem sound_armPassed (hs : StoresSound s) : StoresSound (armPassed s) :=
  sound_ite (fun _ => sound_set _ _ _ (sound_toIdle hs)) fun _ => sound_modH rfl (sound_setHoistState hs)

theorem sound_finishCheck (hs : StoresSound s) : StoresSound (finishCheck s) := by
  unfold finishCheck
  extract_lets _ _ s1 s3
  have h1 : StoresSound s1 := sound_foldl
    (fun _ _ h2 => sound_ite (fun _ => h2) fun _ => sound_set _ _ _ h2) _ (sound_set _ _ _ hs)
  have h3 : StoresSound s3 := sound_set _ _ _ h1
  exact sound_ite (fun _ => sound_set _ _ _ (sound_toIdle h1)) fun _ => sound_ite (fun _ => sound_armPassed h3) fun _ =>
    sound_toIdle h3

theorem sound_checkEnd (hs : StoresSound s) : StoresSound (checkEnd s) := by
  unfold checkEnd
  extract_lets t
  have h : StoresSound t := sound_ite (fun _ => hs) fun _ => sound_judgeSet hs
  exact sound_ite (fun _ => hs) fun _ => sound_ite (fun _ => sound_finishCheck h) fun _ => h

theorem sound_popFifo (hs : StoresSound s) : StoresSound (popFifo s) := by
  unfold popFifo
  extract_lets t
  have h : StoresSound t := sound_modH rfl hs
  exact sound_ite (fun _ => sound_pushEntries h) fun _ => h

/-! ### The hoist instant (R257 to R260) -/

theorem sound_scaleApplied {p : Nat} (hs : StoresSound s) : StoresSound (scaleApplied p s) :=
  sound_ite (fun _ => hs) fun _ => sound_foldl (fun _ _ h => sound_ite (fun _ => sound_scaleShares h) fun _ => h) _ hs

theorem sound_headerChanged {old : State} {p : Nat} (hs : StoresSound s) : StoresSound (headerChanged old p s) := by
  unfold headerChanged
  extract_lets
  refine sound_ite (fun _ => hs) fun _ => ?_
  split
  · exact sound_foldl (fun _ _ h => sound_bayHeader h) _ hs
  · exact hs

theorem sound_resetChanged {old : State} {p : Nat} (hs : StoresSound s) : StoresSound (resetChanged old p s) :=
  sound_ite (fun _ => sound_resetPorts hs) fun _ => hs

theorem sound_dropPage {p : Nat} (hs : StoresSound s) : StoresSound (dropPage p s) := sound_set _ _ _ (sound_discardPage hs)

/-- The hoist leaves an empty set. -/
theorem sound_hoistNow (hs : StoresSound s) : StoresSound (hoistNow s) :=
  sound_setHoistState (sound_modH_of_pages (fun _ h => nomatch h) (sound_set _ _ _ (sound_bump _ _ (sound_set2 _ _ _ _
    (sound_foldl (fun _ _ h => sound_resetChanged (sound_headerChanged (sound_scaleApplied h))) _
      (sound_foldl (fun _ _ h => sound_applyPage h) _ (sound_foldl (fun _ _ h => sound_dropPage h) _ hs)))))))

theorem sound_hoistAtSlack (hs : StoresSound s) : StoresSound (hoistAtSlack s) := by
  unfold hoistAtSlack
  split
  · exact hs
  · exact sound_ite (fun _ => sound_hoistNow hs) fun _ => sound_ite (fun _ => sound_hoistNow (sound_set _ _ _ hs)) fun _ =>
      hs

theorem sound_hoistInstant (hs : StoresSound s) : StoresSound (hoistInstant s) := by
  unfold hoistInstant
  extract_lets
  split
  · exact hs
  · exact sound_ite (fun _ => sound_ite (fun _ => sound_hoistNow (sound_atTime _ hs)) fun _ => hs) fun _ =>
      sound_ite (fun _ => sound_ite (fun _ => hs) fun _ => sound_hoistNow (sound_atTime _ hs)) fun _ =>
      sound_ite (fun _ => sound_modH rfl (sound_set _ _ _ (sound_atTime _ hs))) fun _ => hs

/-! ## The logbook -/

theorem sound_setSlot {seq : Nat} {b : BitVec 256} (hs : StoresSound s) : StoresSound (setSlot s seq b) := by
  unfold setSlot
  exact sound_frame hs rfl

theorem sound_logbookWrite (hs : StoresSound s) : StoresSound (logbookWrite s) := by
  unfold logbookWrite
  extract_lets
  split
  · exact hs
  · extract_lets _ s1 s2
    have h1 : StoresSound s1 := sound_setSlot (sound_frame hs rfl)
    have h2 : StoresSound s2 := sound_bumpSat _ _ _ h1
    exact sound_ite (fun _ => sound_ite (fun _ => h2) fun _ => sound_logAlert _ h2) fun _ => h1

theorem sound_setReadWindow {st : Nat} {b : BitVec 256} (hs : StoresSound s) : StoresSound (setReadWindow st b s) :=
  sound_foldl (fun _ _ h => sound_set _ _ _ h) _ (sound_set _ _ _ hs)

theorem sound_readSeq {v : Word} (hs : StoresSound s) : StoresSound (readSeq v s) := by
  unfold readSeq
  extract_lets t
  have h : StoresSound t := sound_set _ _ _ hs
  exact sound_ite (fun _ => sound_setReadWindow h) fun _ =>
    sound_ite (fun _ => sound_setReadWindow (sound_bumpSat _ _ _ h)) fun _ =>
    sound_ite (fun _ => sound_setReadWindow h) fun _ => sound_setReadWindow h

theorem sound_ackSeq {v : Word} (hs : StoresSound s) : StoresSound (ackSeq v s) :=
  sound_ite (fun _ => sound_set _ _ _ hs) fun _ => sound_setError _ _ hs

theorem sound_serviceMark {v : Word} (hs : StoresSound s) : StoresSound (serviceMark v s) :=
  sound_ite (fun _ => hs) fun _ => sound_set _ _ _ hs

theorem sound_serviceReason {reason : Byte} (hs : StoresSound s) : StoresSound (serviceReason reason s) :=
  sound_ite (fun _ => hs) fun _ => sound_raiseEvent _ (sound_set _ _ _ (sound_set _ _ _ hs))

/-! ## The port -/

theorem sound_rejectFrame {f : Frame} {reason : Nat} (hs : StoresSound s) : StoresSound (rejectFrame f reason s) := by
  unfold rejectFrame
  exact sound_frame (sound_bumpSat _ _ _ hs) rfl

theorem sound_statusFrame (hs : StoresSound s) : StoresSound (statusFrame s) := by
  unfold statusFrame
  exact sound_frame hs rfl

theorem sound_takeCommand {tag : Byte} {c : PendCmd} {n : Nat} (hs : StoresSound s) :
    StoresSound (takeCommand tag c n s) := by
  unfold takeCommand
  exact sound_frame hs rfl

theorem outSound_ifFree {code : Nat} {tag : Byte} {n : Nat} {g : State → State}
    (hg : ∀ {t}, StoresSound t → StoresSound (g t)) (hs : StoresSound s) : OutSound (ifFree code tag n g s) :=
  sound_ite (fun _ => hs) fun _ => sound_ite (fun _ => sound_rejectFrame hs) fun _ => hg hs

theorem sound_answerCommand {result : Nat} {data : Word} (hs : StoresSound s) :
    StoresSound (answerCommand result data s) := by
  unfold answerCommand
  extract_lets _ t
  have h : StoresSound t := sound_frame hs rfl
  exact sound_ite (fun _ => sound_bumpSat _ _ _ h) fun _ => h

theorem sound_clearCounters (hs : StoresSound s) : StoresSound (clearCounters s) :=
  sound_foldl (fun _ _ h => sound_set _ _ _ h) _ hs

theorem outSound_execAlertHeldLow {low : Bool} (hs : StoresSound s) : OutSound (execAlertHeldLow s low) := by
  unfold execAlertHeldLow
  refine outSound_ifStandby (fun h1 => ?_) hs
  extract_lets _ s2
  have h2 : StoresSound s2 := sound_frame h1 rfl
  exact sound_ite (fun _ => sound_set _ _ _ h2) fun _ => h2

/-! ## Power -/

/-! ### Rails (R91, R93) -/

theorem sound_powerAlert {code arg0 arg1 : Nat} (hs : StoresSound s) : StoresSound (powerAlert code arg0 arg1 s) :=
  sound_raiseEvent _ hs

theorem sound_modP {g : PowerSt → PowerSt} (hs : StoresSound s) : StoresSound (s.modP g) := by
  unfold State.modP
  exact sound_frame hs rfl

theorem sound_setFault {r : Rail} (hs : StoresSound s) : StoresSound (setFault r s) := by
  unfold setFault
  split
  · exact sound_setBit2 _ _ _ _ _ hs
  · exact sound_setBit _ _ _ _ hs
  · exact sound_set _ _ _ hs

theorem sound_railFault {r : Rail} (hs : StoresSound s) : StoresSound (railFault r s) :=
  sound_ite (fun _ => sound_onRoster sound_setFault hs) fun _ => sound_setFault hs

theorem sound_operation {r : Rail} {v : Nat} (hs : StoresSound s) : StoresSound (operation r v s) :=
  sound_ite (fun _ => sound_modP hs) fun _ => hs

theorem sound_voutCommand {r : Rail} {mv : Nat} (hs : StoresSound s) : StoresSound (voutCommand r mv s) := sound_modP hs

theorem sound_sentTo {r : Rail} {code v : Nat} (hs : StoresSound s) : StoresSound (sentTo r code v s) := sound_modP hs

theorem sound_clearFaults {r : Rail} (hs : StoresSound s) : StoresSound (clearFaults r s) := sound_sentTo hs

theorem sound_configure {r : Rail} (hs : StoresSound s) : StoresSound (configure r s) :=
  sound_sentTo (sound_sentTo (sound_sentTo (sound_sentTo (sound_sentTo hs))))

theorem sound_setFieldRail {f : Nat} {b : Bool} (hs : StoresSound s) : StoresSound (setFieldRail f b s) :=
  sound_setBit2 _ _ _ _ _ hs

theorem sound_setFieldOn {f : Nat} {b : Bool} (hs : StoresSound s) : StoresSound (setFieldOn f b s) :=
  sound_setBit2 _ _ _ _ _ hs

theorem sound_setLandingRail {k : Nat} {b : Bool} (hs : StoresSound s) : StoresSound (setLandingRail k b s) :=
  sound_setBit _ _ _ _ hs

/-! ### Transactions that wait (R105) -/

theorem sound_notAcked {r : Rail} {p : PmbPurpose} (hs : StoresSound s) : StoresSound (notAcked r p s) :=
  sound_ite (fun _ => hs) fun _ => sound_modP hs

theorem sound_railKept {f : Nat} (hs : StoresSound s) : StoresSound (railKept f s) := by
  unfold railKept
  extract_lets t
  have h : StoresSound t := sound_raiseEvent _ hs
  exact sound_ite (fun _ => sound_frame h rfl) fun _ => h

theorem sound_dropWaits {p : PmbWait → Bool} (hs : StoresSound s) : StoresSound (dropWaits p s) :=
  sound_foldl (fun _ _ h => sound_ite (fun _ => sound_railKept h) fun _ => h) _ (sound_modP hs)

theorem sound_railOff {r : Rail} {v : Nat} (hs : StoresSound s) : StoresSound (railOff r v s) := by
  unfold railOff
  extract_lets t
  have h : StoresSound t := sound_operation hs
  split
  · exact sound_set _ _ _ (sound_setFieldRail h)
  · exact sound_setLandingRail h
  · exact h

theorem sound_switchOff {r : Rail} {v : Nat} (hs : StoresSound s) : StoresSound (switchOff r v s) :=
  sound_ite (fun _ => hs) fun _ => sound_ite (fun _ => sound_notAcked hs) fun _ => sound_railOff hs

theorem sound_fieldOff {f v : Nat} (hs : StoresSound s) : StoresSound (fieldOff f v s) := sound_switchOff hs

/-! ### Mooring (R135 to R138, R142) -/

theorem sound_stopFlash (hs : StoresSound s) : StoresSound (stopFlash s) := by
  unfold stopFlash
  extract_lets t
  have h : StoresSound t := by
    unfold t
    split
    · exact sound_addSlotB hs
    · exact hs
  exact sound_frame h rfl

theorem sound_resetLogged (hs : StoresSound s) : StoresSound (resetLogged s) := by
  unfold resetLogged
  split
  · exact hs
  · exact sound_raiseEvent _ (sound_modP hs)

theorem sound_wakeFails (hs : StoresSound s) : StoresSound (wakeFails s) :=
  sound_resetLogged (sound_set _ _ _ (sound_of_sublist (sound_set _ _ _ (sound_stopFlash (sound_modP hs))) List.filter_sublist
    List.filter_sublist (List.nil_sublist _) (List.nil_sublist _) fun _ h => nomatch h))

theorem sound_railsOff (hs : StoresSound s) : StoresSound (railsOff s) :=
  sound_switchOff (sound_foldl (fun _ _ h1 => sound_ite (fun _ => sound_switchOff h1) fun _ => h1) _
    (sound_foldl (fun _ _ h2 => sound_ite (fun _ => sound_switchOff h2) fun _ => h2) _ hs))

theorem sound_moorEnd (hs : StoresSound s) : StoresSound (moorEnd s) := by
  unfold moorEnd
  extract_lets
  split
  · exact hs
  · exact sound_ite (fun _ => hs) fun _ =>
      sound_resetLogged (sound_set _ _ _ (sound_flushRepeat (sound_raiseEvent _ (sound_modP hs))))

theorem sound_moorNow {c : MoorCause} (hs : StoresSound s) : StoresSound (moorNow c s) :=
  sound_moorEnd (sound_mapRegs (sound_set _ _ _ (sound_of_sublist
    (sound_set _ _ _ (sound_set _ _ _ (sound_modP (sound_railsOff (sound_stopFlash (sound_set _ _ _ hs))))))
    List.filter_sublist List.filter_sublist (List.nil_sublist _) (List.nil_sublist _) fun _ h => nomatch h)))

theorem sound_requestMoor {c : MoorCause} (hs : StoresSound s) : StoresSound (requestMoor c s) := by
  unfold requestMoor
  split
  · exact sound_moorNow hs
  · exact sound_ite (fun _ => sound_modP hs) fun _ => sound_moorNow hs
  · exact hs

theorem sound_of_moorIfPending {t : State} (ht : moorIfPending s = some t) (hs : StoresSound s) : StoresSound t := by
  obtain ⟨c, -, rfl⟩ := Option.map_eq_some_iff.1 ht
  exact sound_moorNow hs

/-! ### What a rail takes with it -/

theorem sound_dropLanding {k : Nat} (hs : StoresSound s) : StoresSound (dropLanding k s) :=
  sound_of_sublist (sound_foldl (fun _ _ h => sound_lose (sound_foldl (fun _ _ h => sound_markParty h) _ h)) _
      (sound_modNet _ (sound_foldl (fun _ _ h => sound_dropEnd h) _ (sound_setBit _ _ _ _
        (sound_foldl (fun _ _ h => sound_setPort h) _ hs)))))
    List.filter_sublist List.filter_sublist (List.Sublist.refl _) (List.Sublist.refl _) fun _ h => h

theorem sound_rosterField {f v : Nat} (hs : StoresSound s) : StoresSound (rosterField f v s) :=
  sound_onRoster sound_setFieldState hs

/-! ### Self-test (R149) -/

theorem sound_startBist {f : Nat} (hs : StoresSound s) : StoresSound (startBist f s) := by
  unfold startBist
  extract_lets _ _ s1
  have h1 : StoresSound s1 := by
    unfold s1
    refine sound_foldl (fun _ _ h2 => ?_) _
      (sound_set _ _ _ (sound_set _ _ _ (sound_set _ _ _ (sound_setAllTiles (sound_setFieldState hs)))))
    refine sound_ite (fun _ => h2) fun _ => ?_
    split
    · exact sound_setTileState h2
    · exact sound_setBit _ _ _ _ h2
    · exact h2
  exact sound_frame h1 rfl

theorem sound_finishBist {f : Nat} (hs : StoresSound s) : StoresSound (finishBist f s) := by
  unfold finishBist
  extract_lets t
  have h : StoresSound t := sound_bistCycles hs
  exact sound_ite (fun _ => hs) fun _ =>
    sound_ite (fun _ => sound_fieldOff (sound_clearField (sound_setFieldState (sound_raiseEvent _ h)))) fun _ =>
    sound_startRoutes (sound_startEnds (sound_dropDead (sound_setFieldState h)))

/-! ### The rail step (R96 to R101) -/

theorem sound_startStep {r : Rail} (hs : StoresSound s) : StoresSound (startStep r s) :=
  sound_modP (sound_operation (sound_voutCommand hs))

theorem sound_wclkStart (hs : StoresSound s) : StoresSound (wclkStart s) := by
  unfold wclkStart
  refine sound_onRoster (fun h => ?_) (sound_frame (sound_set _ _ _ (sound_set _ _ _ hs)) rfl)
  exact sound_foldl (fun _ _ h => sound_finishBist h) _
    (sound_foldl (fun _ _ h => sound_ite (fun _ => sound_startBist h) fun _ => h) _ h)

theorem sound_pumpRails {n : Nat} (hs : StoresSound s) : StoresSound (pumpRails n s) := by
  induction n generalizing s with
  | zero => exact hs
  | succ n ih =>
    unfold pumpRails
    refine sound_ite (fun _ => hs) fun _ => ?_
    split
    · refine sound_ite (fun _ => hs) fun _ => ?_
      split
      · next t ht => exact sound_of_moorIfPending ht hs
      · exact sound_wclkStart hs
    · refine sound_ite (fun _ => hs) fun _ => sound_ite (fun _ => sound_startStep (sound_modP hs)) fun _ => ih ?_
      split
      · exact sound_ite (fun _ => sound_rosterField (sound_modP hs)) fun _ => sound_modP hs
      · exact sound_modP hs

theorem sound_nextRail (hs : StoresSound s) : StoresSound (nextRail s) := by
  unfold nextRail
  split
  · next s heq => exact sound_of_moorIfPending heq hs
  · exact sound_pumpRails hs

theorem sound_queueRail {r : Rail} (hs : StoresSound s) : StoresSound (queueRail r s) :=
  sound_ite (fun _ => hs) fun _ => sound_pumpRails (sound_modP hs)

theorem sound_railGood {r : Rail} {deskewOk : Bool} (hs : StoresSound s) : StoresSound (railGood r deskewOk s) := by
  unfold railGood
  extract_lets +onlyGivenNames t
  have ht : StoresSound t := sound_modP hs
  split
  · split
    · next u hu => exact sound_of_moorIfPending hu ht
    · exact sound_modP ht
  · extract_lets s1 s2
    have h1 : StoresSound s1 := sound_setLandingRail ht
    have h2 : StoresSound s2 := sound_ite (fun _ => sound_resetPorts h1) fun _ => h1
    exact sound_nextRail (sound_onRoster (fun h => sound_ite (fun _ => h) fun _ => sound_switchOff h) h2)
  · extract_lets s1 _ s2 s3 s4
    have h1 : StoresSound s1 := sound_set _ _ _ (sound_setFieldRail ht)
    have h2 : StoresSound s2 := sound_of_sublist h1 List.filter_sublist (List.Sublist.refl _) (List.Sublist.refl _)
      (List.Sublist.refl _) fun _ h => h
    have h3 : StoresSound s3 := sound_rosterField h2
    have h4 : StoresSound s4 := sound_ite (fun _ => sound_fieldOff (sound_rosterField h3)) fun _ => sound_ite (fun _ => h3)
      fun _ => sound_ite (fun _ => sound_onRoster (fun h => sound_finishBist (sound_startBist h)) h3) fun _ =>
        sound_fieldOff (sound_raiseEvent _ (sound_rosterField h3))
    exact sound_nextRail h4

theorem sound_stepFailed {r : Rail} (hs : StoresSound s) : StoresSound (stepFailed r s) := by
  unfold stepFailed
  extract_lets s1
  have h1 : StoresSound s1 := sound_modP hs
  split
  · exact sound_wakeFails h1
  · exact sound_nextRail (sound_rosterField h1)
  · exact sound_nextRail (sound_onRoster (fun h2 => h2) h1)

theorem sound_railLost {r : Rail} {w : Nat} (hs : StoresSound s) : StoresSound (railLost r w s) := by
  unfold railLost
  extract_lets _ _ _ s1
  have h1 : StoresSound s1 := sound_powerAlert (sound_ite (fun _ => hs) fun _ => sound_railFault hs)
  split
  · exact sound_ite (fun _ => sound_moorNow h1) fun _ => h1
  · extract_lets _ s2 s3
    have h2 : StoresSound s2 := sound_set _ _ _ (sound_setFieldRail (sound_setFieldOn h1))
    have h3 : StoresSound s3 := sound_onRoster sound_removeField (sound_modP h2)
    exact sound_ite (fun _ => h2) fun _ => sound_ite (fun _ => sound_nextRail (sound_modP h3)) fun _ => h3
  · extract_lets s4 s2
    have h4 : StoresSound s4 := sound_setLandingRail (sound_setBit _ _ _ _ h1)
    have h2 : StoresSound s2 := sound_onRoster (fun h3 => sound_startRoutes (sound_dropLanding h3)) h4
    exact sound_ite (fun _ => h4) fun _ => sound_ite (fun _ => sound_nextRail (sound_modP h2)) fun _ => h2

theorem sound_polled {r : Rail} {w : BitVec 16} {deskewOk : Bool} (hs : StoresSound s) :
    StoresSound (polled r w deskewOk s) := by
  unfold polled
  extract_lets t
  have h : StoresSound t := sound_ite (fun _ => sound_clearFaults hs) fun _ => hs
  exact sound_ite (fun _ => sound_railLost h) fun _ => sound_ite (fun _ => sound_railGood h) fun _ => h

theorem outSound_execRailStatusPoll {reply : StatusReply} {deskewOk : Bool} (hs : StoresSound s) :
    OutSound (execRailStatusPoll reply deskewOk s) := by
  unfold execRailStatusPoll
  refine outSound_ifStandby (fun h => ?_) hs
  split
  · exact h
  · refine sound_ite (fun _ => h) fun _ => ?_
    split
    · exact sound_notAcked h
    · exact sound_polled h

theorem outSound_execPowerGoodTimeout (hs : StoresSound s) : OutSound (execPowerGoodTimeout s) := by
  unfold execPowerGoodTimeout
  refine outSound_ifStandby (fun h => ?_) hs
  split
  · exact h
  · exact sound_ite (fun _ => h) fun _ => sound_stepFailed (sound_powerAlert (sound_setFault (sound_operation h)))

/-! ### The probe (R104 to R106) -/

theorem sound_probeRead {r : Rail} {rev cap mode : Byte} (hs : StoresSound s) :
    StoresSound (probeRead r rev cap mode s) := by
  unfold probeRead
  extract_lets t
  have h : StoresSound t := sound_configure (sound_modP hs)
  exact sound_ite (fun _ => h) fun _ => sound_powerAlert (sound_railFault (sound_modP h))

theorem sound_endProbe (hs : StoresSound s) : StoresSound (endProbe s) := by
  unfold endProbe
  extract_lets s1 _ _ s2
  have h1 : StoresSound s1 := sound_modP hs
  have h2 : StoresSound s2 := sound_dropWaits (sound_powerAlert (sound_set _ _ _ h1))
  split
  · next s heq => exact sound_of_moorIfPending heq h1
  · exact sound_ite (fun _ => sound_ite (fun _ => sound_wakeFails h2) fun _ => h2) fun _ => sound_ite (fun _ => h1) fun _ =>
      sound_ite (fun _ => sound_wakeFails h1) fun _ => sound_startStep (sound_modP h1)

theorem sound_probeFrom {ans : ProbeAnswers} {n i : Nat} (hs : StoresSound s) : StoresSound (probeFrom ans n i s) := by
  induction n generalizing i s with
  | zero => exact sound_endProbe hs
  | succ n ih =>
    unfold probeFrom
    split
    · next t ht => exact sound_of_moorIfPending ht hs
    · split
      · exact sound_notAcked (sound_modP hs)
      · exact ih (sound_probeRead hs)

theorem sound_beginProbe (hs : StoresSound s) : StoresSound (beginProbe s) :=
  sound_modP (sound_set _ _ _ (sound_set _ _ _ hs))

theorem sound_startProbe {ans : ProbeAnswers} (hs : StoresSound s) : StoresSound (startProbe ans s) :=
  sound_probeFrom (sound_beginProbe hs)

theorem sound_askProbe (hs : StoresSound s) : StoresSound (askProbe s) :=
  sound_ite (fun _ => hs) fun _ => sound_beginProbe hs

theorem sound_giveUp {w : PmbWait} {probe : ProbeAnswers} (hs : StoresSound s) : StoresSound (giveUp w probe s) := by
  unfold giveUp
  extract_lets _ _ t
  have h : StoresSound t := sound_dropWaits (sound_powerAlert (sound_railFault (sound_modP hs)))
  split
  · exact sound_probeFrom h
  · exact sound_stepFailed h
  · exact sound_nextRail (sound_railKept h)
  · exact sound_ite (fun _ => sound_wakeFails h) fun _ => sound_nextRail h

theorem sound_alertRead {r : Rail} {w : BitVec 16} (hs : StoresSound s) : StoresSound (alertRead r w s) := by
  unfold alertRead
  extract_lets t
  have h : StoresSound t := sound_clearFaults (sound_raiseEvent _ hs)
  exact sound_ite (fun _ => sound_railLost h) fun _ => h

theorem sound_visit {f : Nat} (hs : StoresSound s) : StoresSound (visit f s) := sound_set _ _ _ (sound_voutCommand hs)

theorem sound_retried {w : PmbWait} {reply : RetryReply} {probe : ProbeAnswers} (hs : StoresSound s) :
    StoresSound (retried w reply probe s) := by
  unfold retried
  extract_lets
  split
  · exact sound_probeFrom (sound_probeRead hs)
  · exact sound_ite (fun _ => sound_polled hs) fun _ => hs
  · exact sound_alertRead hs
  · exact sound_nextRail (sound_railOff hs)
  · exact sound_nextRail (sound_railOff hs)
  · split
    · exact sound_ite (fun _ => sound_visit hs) fun _ => hs
    · exact hs
  · exact hs

/-! ### Wake sources (R139 to R143, R206, R791) -/

theorem sound_setCauses {l : List WakeSource} (hs : StoresSound s) : StoresSound (setCauses l s) :=
  sound_foldl (fun _ _ h => sound_set _ _ _ h) _ hs

theorem sound_startWake {l : List WakeSource} {probe : ProbeAnswers} (hs : StoresSound s) :
    StoresSound (startWake l probe s) := by
  unfold startWake
  extract_lets t
  have h : StoresSound t := sound_setCauses (sound_modP hs)
  exact sound_ite (fun _ => h) fun _ =>
    sound_startProbe (sound_modP (sound_raiseEvent _
    (sound_clearFlashFault (sound_frame (sound_set _ _ _ (sound_set _ _ _ (sound_set _ _ _ h))) rfl))))

theorem sound_holdWake {w : WakeSource} (hs : StoresSound s) : StoresSound (holdWake w s) := sound_modP hs

theorem sound_wakeArrives {w : WakeSource} {probe : ProbeAnswers} (hs : StoresSound s) :
    StoresSound (wakeArrives w probe s) := by
  unfold wakeArrives
  split
  · exact sound_ite (fun _ => sound_holdWake hs) fun _ => sound_startWake hs
  · exact sound_setCauses hs
  · exact sound_holdWake hs
  · exact hs

theorem sound_actHeld {probe : ProbeAnswers} (hs : StoresSound s) : StoresSound (actHeld probe s) :=
  sound_ite (fun _ => sound_startWake hs) fun _ => hs

theorem sound_afterMoor {probe : ProbeAnswers} (hs : StoresSound s) : StoresSound (afterMoor probe s) :=
  sound_ite (fun _ => sound_actHeld (sound_moorEnd hs)) fun _ => hs

/-! ### The sideband's rows (R105 to R112) -/

theorem outSound_execPmbusRetry {reply : RetryReply} {probe : ProbeAnswers} (hs : StoresSound s) :
    OutSound (execPmbusRetry reply probe s) := by
  unfold execPmbusRetry
  refine outSound_ifStandby (fun h1 => ?_) hs
  refine sound_ite (fun _ => h1) fun _ => ?_
  split
  · exact h1
  · extract_lets s2
    have h2 : StoresSound s2 := sound_modP h1
    split
    · exact sound_ite (fun _ => sound_modP h1) fun _ => sound_afterMoor (sound_giveUp h2)
    · exact sound_ite (fun _ => h1) fun _ => sound_afterMoor (sound_retried h2)
    · exact sound_afterMoor (sound_retried h2)

theorem outSound_execSdaLowIdle {freed : Bool} (hs : StoresSound s) : OutSound (execSdaLowIdle freed s) := by
  unfold execSdaLowIdle
  refine outSound_ifStandby (fun h1 => ?_) hs
  extract_lets _ _ s2
  have h2 : StoresSound s2 := sound_dropWaits (sound_powerAlert (sound_modP (sound_set _ _ _ (sound_set _ _ _ h1))))
  refine sound_ite (fun _ => h1) fun _ => ?_
  split
  · exact sound_wakeFails h2
  · exact sound_wakeFails h2
  · exact sound_moorEnd (sound_nextRail (sound_modP h2))

theorem outSound_execSclLowTimeout {rail : Rail} (hs : StoresSound s) : OutSound (execSclLowTimeout rail s) :=
  outSound_ifStandby (fun h => sound_ite (fun _ => h) fun _ => sound_notAcked h) hs

theorem outSound_execSidebandRetry {probe : ProbeAnswers} (hs : StoresSound s) : OutSound (execSidebandRetry probe s) :=
  outSound_ifStandby (fun h => sound_ite (fun _ => h) fun _ => sound_ite (fun _ => sound_probeFrom h) fun _ =>
    sound_ite (fun _ => h) fun _ => sound_startProbe h) hs

theorem outSound_execPmbAlertService {rail : Rail} {reply : StatusReply} (hs : StoresSound s) :
    OutSound (execPmbAlertService rail reply s) := by
  unfold execPmbAlertService
  refine outSound_ifStandby (fun h => ?_) hs
  refine sound_ite (fun _ => h) fun _ => ?_
  split
  · exact sound_notAcked h
  · exact sound_alertRead h

/-! ### The wake's events (R129, R130, R139 to R141, R206) -/

theorem outSound_execWakeN {probe : ProbeAnswers} (hs : StoresSound s) : OutSound (execWakeN probe s) := by
  unfold execWakeN
  exact outSound_ifStandby (fun h => sound_ite (fun _ => h) fun _ => sound_wakeArrives (sound_frame h rfl)) hs

theorem outSound_execRtcAlarm {probe : ProbeAnswers} (hs : StoresSound s) : OutSound (execRtcAlarm probe s) :=
  outSound_ifStandby (fun h => sound_ite (fun _ => sound_wakeArrives (sound_modP h)) fun _ => h) hs

theorem sound_wakeFrame {tag : Byte} {probe : ProbeAnswers} (hs : StoresSound s) : StoresSound (wakeFrame tag probe s) :=
  sound_wakeArrives (sound_takeCommand hs)

theorem sound_moorFrame {tag : Byte} (hs : StoresSound s) : StoresSound (moorFrame tag s) :=
  sound_requestMoor (sound_takeCommand hs)

theorem outSound_execPllLocked {flash : FlashProbe} (hs : StoresSound s) : OutSound (execPllLocked flash s) :=
  outSound_ifStandby (fun h => sound_ite (fun _ => h) fun _ => sound_probeFlash (sound_modP (sound_set _ _ _ h))) hs

theorem outSound_execPllNoLock (hs : StoresSound s) : OutSound (execPllNoLock s) :=
  outSound_ifStandby (fun h => sound_ite (fun _ => h) fun _ =>
    sound_wakeFails (sound_operation (sound_powerAlert (sound_set _ _ _ h)))) hs

theorem sound_showRetired (hs : StoresSound s) : StoresSound (showRetired s) :=
  sound_foldl (fun _ _ h => sound_rosterField h) _ hs

theorem outSound_execReconciled (hs : StoresSound s) : OutSound (execReconciled s) := by
  unfold execReconciled
  refine outSound_ifStandby (fun h1 => ?_) hs
  extract_lets
  refine sound_ite (fun _ => h1) fun _ => ?_
  split
  · exact sound_wakeFails (sound_operation (sound_raiseEvent _ (sound_set _ _ _ h1)))
  · next s heq =>
      have h2 := sound_of_reconcile heq h1
      extract_lets
      split
      · next s heq => exact sound_of_moorIfPending heq h2
      · exact sound_pumpRails (sound_showRetired (sound_modP h2))

/-! ### RESET_N and VSTBY (R143, R178 to R180, R279) -/

theorem outSound_execResetN {frame : Option Frame} (hs : StoresSound s) : OutSound (execResetN frame s) := by
  unfold execResetN
  refine outSound_ifStandby (fun h1 => ?_) hs
  extract_lets _ s2 s3 s4
  have h2 : StoresSound s2 := sound_frame h1 rfl
  have h3 : StoresSound s3 := by
    unfold s3
    split
    · exact sound_rejectFrame h2
    · exact h2
  have h4 : StoresSound s4 := sound_requestMoor (sound_modP h3)
  exact sound_ite (fun _ => h2) fun _ => sound_ite (fun _ => sound_resetLogged h4) fun _ => h4

theorem outSound_execResetNRise {probe : ProbeAnswers} (hs : StoresSound s) : OutSound (execResetNRise probe s) := by
  unfold execResetNRise
  exact outSound_ifStandby (fun h => sound_actHeld (sound_frame h rfl)) hs

theorem sound_cutWrite {written : Nat} (hs : StoresSound s) : StoresSound (cutWrite written s) := by
  unfold cutWrite
  extract_lets
  split
  · exact hs
  · exact sound_setSlot hs

theorem outSound_execVstbyRemoved {written : Nat} (hs : StoresSound s) : OutSound (execVstbyRemoved written s) :=
  outSound_ifStandby (fun h => sound_set _ _ _ (sound_of_sublist (sound_stopFlash (sound_cutWrite h)) List.filter_sublist
    (List.nil_sublist _) (List.nil_sublist _) (List.nil_sublist _) fun _ h => nomatch h)) hs

theorem outSound_execVstbyApplied (hs : StoresSound s) : OutSound (execVstbyApplied s) := by
  unfold execVstbyApplied
  extract_lets s1 s2
  have h1 : StoresSound s1 := sound_mapRegs (sound_frame hs rfl)
  have h2 : StoresSound s2 := by
    unfold s2
    split
    · exact sound_set _ _ _ h1
    · exact h1
  exact sound_ite (fun _ => hs) fun _ => sound_set _ _ _ (sound_set _ _ _ h2)

/-! ### Requests for rails (R99 to R101) -/

theorem sound_leaveField {f : Nat} (hs : StoresSound s) : StoresSound (leaveField f s) := by
  unfold leaveField
  extract_lets s1 s2
  have h1 : StoresSound s1 := sound_modP hs
  have h2 : StoresSound s2 := sound_fieldOff (sound_ite (fun _ => sound_removeField h1) fun _ => sound_removeField h1)
  exact sound_ite (fun _ => sound_queueRail h2) fun _ => h2

theorem sound_fieldOnSet {f : Nat} (hs : StoresSound s) : StoresSound (fieldOnSet f s) := by
  unfold fieldOnSet
  extract_lets s1
  have h1 : StoresSound s1 := sound_setFieldOn hs
  exact sound_ite (fun _ => hs) fun _ => sound_ite (fun _ => sound_queueRail (sound_onRoster (fun h2 => h2) h1)) fun _ =>
    sound_ite (fun _ => sound_queueRail h1) fun _ => h1

theorem sound_fieldCleared {f : Nat} (hs : StoresSound s) : StoresSound (fieldCleared f s) := by
  unfold fieldCleared
  extract_lets _ t
  have h : StoresSound t := sound_modP hs
  exact sound_ite (fun _ => sound_ite (fun _ => sound_leaveField hs) fun _ => sound_ite (fun _ => h) fun _ =>
    sound_startRoutes (sound_dropDead (sound_setFieldState h)))
    fun _ => sound_ite (fun _ => sound_setFieldState hs) fun _ => hs

theorem sound_fieldOnClear {f : Nat} (hs : StoresSound s) : StoresSound (fieldOnClear f s) := by
  unfold fieldOnClear
  extract_lets t
  have h : StoresSound t := sound_setFieldOn hs
  exact sound_ite (fun _ => hs) fun _ => sound_ite (fun _ => sound_onRoster sound_fieldCleared h) fun _ =>
    sound_ite (fun _ => sound_fieldOff (sound_rosterField h)) fun _ => h

theorem sound_landingOnSet {k : Nat} (hs : StoresSound s) : StoresSound (landingOnSet k s) := by
  unfold landingOnSet
  extract_lets s1
  have h1 : StoresSound s1 := sound_setBit _ _ _ _ hs
  exact sound_ite (fun _ => hs) fun _ => sound_ite (fun _ => sound_queueRail (sound_onRoster (fun h2 => h2) h1)) fun _ =>
    sound_ite (fun _ => sound_queueRail h1) fun _ => h1

theorem sound_landingOnClear {k : Nat} (hs : StoresSound s) : StoresSound (landingOnClear k s) := by
  unfold landingOnClear
  extract_lets s1
  have h1 : StoresSound s1 := sound_setBit _ _ _ _ hs
  exact sound_ite (fun _ => hs) fun _ =>
    sound_ite (fun _ => sound_ite (fun _ => sound_onRoster (fun h2 => h2) h1) fun _ => h1) fun _ =>
    sound_switchOff (sound_onRoster (fun h2 => sound_startRoutes (sound_dropLanding h2)) h1)

/-! ## Commands of the defect map -/

/-! ### Operator retirements -/

theorem sound_finishTests (hs : StoresSound s) : StoresSound (finishTests s) :=
  sound_foldl (fun _ _ h => sound_finishBist h) _ hs

theorem sound_retireNow {kind field loc : Nat} (hs : StoresSound s) : StoresSound (retireNow kind field loc s) :=
  sound_ite (fun _ => sound_requestRetire hs) fun _ => hs

theorem sound_retireValid {d : Nat} (hs : StoresSound s) : StoresSound (retireValid d s) := by
  unfold retireValid
  extract_lets _ _ _ _ t
  have h : StoresSound t.1 := sound_addEntry hs
  refine sound_ite (fun _ => sound_set _ _ _ (sound_raiseEvent _ hs)) fun _ => ?_
  split
  · exact sound_set _ _ _ (sound_retireNow (sound_raiseEvent _ h))
  · exact sound_set _ _ _ (sound_raiseEntry hs)
  · exact sound_set _ _ _ (sound_retireNow (sound_raiseEvent _ h))

theorem sound_retireRequest (hs : StoresSound s) : StoresSound (retireRequest s) := by
  unfold retireRequest
  extract_lets _ t
  have h : StoresSound t := sound_retireValid hs
  exact sound_ite (fun _ => sound_ite (fun _ => sound_newFieldRecords h) fun _ => sound_fieldRecords h) fun _ =>
    sound_set _ _ _ (sound_raiseEvent _ hs)

theorem sound_onMap {g : State → State} (hg : ∀ {t}, StoresSound t → StoresSound (g t)) (hs : StoresSound s) :
    StoresSound (onMap g s) :=
  sound_ite (fun _ => sound_onRoster hg hs) fun _ => sound_settleEos (hg hs)

theorem sound_retireCmd (hs : StoresSound s) : StoresSound (retireCmd s) :=
  sound_ite (fun _ => hs) fun _ => sound_onMap (fun h => sound_finishTests (sound_retireRequest h)) hs

/-! ### MAP_SYNC (R795) -/

theorem sound_askSync (hs : StoresSound s) : StoresSound (askSync s) := by
  unfold askSync
  exact sound_clearFlashFault (sound_frame hs rfl)

theorem sound_syncCopies {flash : FlashProbe} (hs : StoresSound s) : StoresSound (syncCopies flash s) := by
  unfold syncCopies
  extract_lets
  split
  · exact hs
  · next s heq =>
      have h1 := sound_of_reconcile heq (sound_probeFlash (sound_stopFlash hs))
      exact sound_foldl (fun _ _ h2 => sound_retireNow h2) _ h1

theorem sound_mapSync {flash : FlashProbe} (hs : StoresSound s) : StoresSound (mapSync flash s) := by
  unfold mapSync
  extract_lets s1
  have h1 : StoresSound s1 := sound_askSync hs
  exact sound_ite (fun _ => sound_onRoster (fun h2 => sound_finishTests (sound_syncCopies (sound_frame h2 rfl))) h1) fun _ =>
    h1

/-! ### The record window and the flash -/

theorem outSound_execReadIndex {index : Word} (hs : StoresSound s) : OutSound (execReadIndex index s) :=
  outSound_ifStandby (fun h => sound_showRecord (sound_set _ _ _ h)) hs

theorem sound_sentPoll {readBack : Bool} (hs : StoresSound s) : StoresSound (sentPoll readBack s) := by
  unfold sentPoll
  exact sound_frame hs rfl

theorem outSound_execFlashBusyPoll {readBackOk late : Bool} (hs : StoresSound s) :
    OutSound (execFlashBusyPoll readBackOk s late) := by
  unfold execFlashBusyPoll
  refine outSound_ifStandby (fun h => ?_) hs
  split
  · exact h
  · exact sound_sentPoll (sound_flashDone h)
  · exact sound_sentPoll (sound_ite (fun _ => sound_flashDone h) fun _ => sound_flashFault h)

theorem outSound_execFlashOpTimeout {late : Bool} (hs : StoresSound s) : OutSound (execFlashOpTimeout s late) := by
  unfold execFlashOpTimeout
  refine outSound_ifStandby (fun h => ?_) hs
  split
  · exact sound_flashFault h
  · exact sound_flashFault h
  · exact h

/-! ## Crossings and slack water -/

theorem sound_setCseq {v : Nat} (hs : StoresSound s) : StoresSound (setCseq v s) := sound_set _ _ _ hs

/-! ### The commands of CSEQ_CMD (R307) and CUR_NO (R312) -/

theorem sound_startCrossing {step : Bool} (hs : StoresSound s) : StoresSound (startCrossing step s) := by
  unfold startCrossing
  extract_lets t
  have h : StoresSound t := sound_modX _ (sound_set _ _ _ hs)
  exact sound_ite (fun _ => sound_ite (fun _ => sound_set _ _ _ h) fun _ => h) fun _ => hs

theorem sound_stopCrossing (hs : StoresSound s) : StoresSound (stopCrossing s) :=
  sound_ite (fun _ => hs) fun _ => sound_set _ _ _ hs

theorem sound_latchCurNo (hs : StoresSound s) : StoresSound (latchCurNo s) := sound_modX _ hs

/-! ### Tiles and areas of a berth -/

theorem sound_refuseResume {b : Nat} (hs : StoresSound s) : StoresSound (refuseResume b s) :=
  sound_alertError _ _ (sound_modX _ hs)

theorem sound_resume {b : Nat} (hs : StoresSound s) : StoresSound (resume b s) :=
  sound_ite (fun _ => hs) fun _ => sound_modX _ hs

theorem sound_suspend {b : Nat} (hs : StoresSound s) : StoresSound (suspend b s) :=
  sound_ite (fun _ => hs) fun _ => sound_ite (fun _ => sound_suspendBerth hs) fun _ => sound_ite (fun _ => hs) fun _ =>
    sound_modX _ hs

/-! ### Snapshots (R336 to R338) -/

theorem sound_copyLine {from' src to' dst : Nat} (hs : StoresSound s) : StoresSound (copyLine from' src to' dst s).1 := by
  unfold copyLine
  extract_lets t
  have h : StoresSound t.1 := sound_readBytes (sound_grant hs)
  refine soundFst_ite (fun _ => hs) fun _ => ?_
  split
  · exact h
  · exact sound_writeBytes (sound_grant h)

theorem sound_copyLines {from' src to' dst n : Nat} (hs : StoresSound s) : StoresSound (copyLines from' src to' dst n s).1 := by
  induction n generalizing src dst s with
  | zero => exact hs
  | succ n ih => exact ih (sound_copyLine hs)

theorem sound_lineFailed {b : Nat} (hs : StoresSound s) : StoresSound (lineFailed b s) := sound_modBerths hs

theorem sound_restoreBerth {l : Latched} (hs : StoresSound s) : StoresSound (restoreBerth s l) := by
  unfold restoreBerth
  refine sound_foldl (fun _ _ h1 => ?_) _ hs
  split
  · extract_lets s2
    have h2 : StoresSound s2.1 := sound_copyLines h1
    exact sound_ite (fun _ => h2) fun _ => sound_lineFailed h2
  · exact sound_lineFailed h1

theorem sound_showSnap {k : Nat} (hs : StoresSound s) : StoresSound (showSnap k s) := sound_set _ _ _ hs

theorem sound_startCopies {l : Latched} (hs : StoresSound s) : StoresSound (startCopies s l) := by
  unfold startCopies
  refine sound_foldl (fun _ _ h => ?_) _ hs
  split
  · exact sound_showSnap (sound_modX _ h)
  · exact h

theorem sound_lineCopied {k : Nat} {failed : Bool} (hs : StoresSound s) : StoresSound (lineCopied k failed s) := by
  unfold lineCopied
  split
  · exact hs
  · extract_lets s1 s2
    have h1 : StoresSound s1.1 := soundFst_ite (fun _ => hs) fun _ => sound_copyLine hs
    have h2 : StoresSound s2 := by
      unfold s2
      refine sound_ite (fun _ => h1) fun _ => ?_
      split
      · exact sound_lineFailed h1
      · exact h1
    exact sound_ferryAfterLine (sound_showSnap (sound_modX _ h2))

/-! ### Posts at an opening (R332 to R335) -/

theorem sound_emptyHalf {k h : Nat} (hs : StoresSound s) : StoresSound (emptyHalf k h s) :=
  sound_ite (fun _ => hs) fun _ => sound_of_sublist hs (List.Sublist.refl _) (List.Sublist.refl _) List.filter_sublist
    (List.Sublist.refl _) fun _ h => h

theorem sound_showPosts {k h : Nat} (hs : StoresSound s) : StoresSound (showPosts k h s) := by
  unfold showPosts
  extract_lets _ _ _ _ _ _ _ _ s1
  have h1 : StoresSound s1 := sound_emptyHalf hs
  exact sound_set _ _ _ (sound_set _ _ _
    (sound_foldl (fun _ _ h2 => sound_writeBytes h2) _ (sound_ite (fun _ => h1) fun _ => sound_writeBytes h1)))

theorem sound_swapPosts {n : Nat} (hs : StoresSound s) : StoresSound (swapPosts n s) :=
  sound_modX _ (sound_foldl (fun _ _ h => sound_showPosts h) _ hs)

theorem sound_showDropped {l : Latched} (hs : StoresSound s) : StoresSound (showDropped s l) := sound_berthSet hs

/-! ### The opening of a tile (R313, R316, R326, R355, R507, R540, R541, R622, R723, R730, R731) -/

theorem sound_moveReefStats {k : Nat} (hs : StoresSound s) : StoresSound (moveReefStats k s) :=
  sound_foldl (fun _ _ h1 => sound_set _ _ _ h1) _ (sound_set _ _ _ (sound_foldl (fun _ _ h2 => sound_set _ _ _ h2) _ hs))

theorem sound_clearOpened {k : Nat} (hs : StoresSound s) : StoresSound (clearOpened k s) :=
  sound_set _ _ _ (sound_set _ _ _ (sound_foldl
    (fun _ _ h1 => sound_set _ _ _ h1) _ (sound_foldl (fun _ _ h2 => sound_setWord _ _ h2) _ (sound_clearGwState hs))))

theorem sound_openTile {no : Nat} {recross replay : Bool} {k : Nat} (hs : StoresSound s) :
    StoresSound (openTile no recross replay k s) := by
  unfold openTile
  extract_lets _ _ _ _ _ _ _ t
  have h : StoresSound t := sound_set _ _ _
    (sound_set _ _ _ (sound_set2 _ _ _ _
    (sound_setPriv (sound_set _ _ _ (sound_setRig _ _ (sound_clearOpened (sound_moveReefStats hs)))))))
  exact sound_modX _ (sound_setFerry (sound_ite (fun _ => h) fun _ => sound_set _ _ _ (sound_set _ _ _ h)))

theorem sound_openTiles {no : Nat} {recross : Bool} {l : List (Nat × Option Latched)} (hs : StoresSound s) :
    StoresSound (openTiles no recross l s) := by
  unfold openTiles
  refine sound_foldl (fun _ _ h => ?_) _ hs
  split <;> exact sound_openTile h

/-! ### The opening of a crossing (R307 to R313, R323, R341, R344) -/

theorem sound_resumeBerth {l : Latched} (hs : StoresSound s) : StoresSound (resumeBerth s l) :=
  sound_modX _ (sound_berthSet hs)

theorem sound_resumeAll {ls : List Latched} (hs : StoresSound s) : StoresSound (resumeAll ls s) :=
  sound_foldl (fun _ _ h1 => sound_refuseResume h1) _ (sound_foldl (fun _ _ h2 => sound_resumeBerth h2) _ hs)

theorem sound_settleHolders {ls : List Latched} (hs : StoresSound s) : StoresSound (settleHolders ls s) :=
  sound_modX _ (sound_foldl (fun _ _ h => sound_berthSet h) _ hs)

theorem sound_newEgress (hs : StoresSound s) : StoresSound (newEgress s) := sound_foldl (fun _ _ h => sound_modNetSt h) _ hs

theorem sound_latchCrossing {no : Nat} {ls : List Latched} (hs : StoresSound s) : StoresSound (latchCrossing no ls s) :=
  sound_newEgress (sound_setCseq (sound_set2 _ _ _ _ (sound_set2 _ _ _ _ (sound_modX _ hs))))

theorem sound_opening (hs : StoresSound s) : StoresSound (opening s) :=
  sound_ite (fun _ => hs) fun _ => sound_foldl (fun _ _ h1 => sound_startWaiting h1) _
    (sound_foldl (fun _ _ h2 => sound_startCopies h2) _
    (sound_openTiles (sound_foldl (fun _ _ h3 => sound_showDropped h3) _
    (sound_swapPosts (sound_foldl (fun _ _ h4 => sound_restoreBerth h4) _
    (sound_latchCrossing (sound_settleHolders (sound_resumeAll (sound_atTime _ hs)))))))))

theorem sound_ingressClose (hs : StoresSound s) : StoresSound (ingressClose s) :=
  sound_ite (fun _ => sound_setCseq (sound_atTime _ hs)) fun _ => hs

/-! ### The end of a tile's work (R314, R315, R321, R327) -/

theorem sound_cxdone {k : Nat} (hs : StoresSound s) : StoresSound (cxdone k s) := by
  unfold cxdone
  extract_lets
  split
  · exact hs
  · exact sound_ite (fun _ => sound_toDraining (sound_closeFerry (sound_setRig _ _ hs))) fun _ => hs

theorem sound_overrun {k : Nat} (hs : StoresSound s) : StoresSound (overrun k s) := by
  unfold overrun
  refine sound_ite (fun _ => ?_) fun _ => hs
  split
  · exact sound_toDraining (sound_stopBerth (sound_modBerths (sound_stopTile hs)))
  · exact hs

theorem sound_stopUnfinished (hs : StoresSound s) : StoresSound (stopUnfinished s) := by
  unfold stopUnfinished
  extract_lets _ s1
  have h1 : StoresSound s1 := by
    unfold s1
    refine sound_foldl (fun _ _ h2 => ?_) _ hs
    extract_lets s3
    have h3 : StoresSound s3 := sound_stopTile h2
    split
    · exact sound_modBerths h3
    · exact h3
  exact sound_modX _ h1

theorem sound_drainLimit (hs : StoresSound s) : StoresSound (drainLimit s) :=
  sound_ite (fun _ => sound_stopUnfinished (sound_atTime _ hs)) fun _ => hs

theorem sound_recrossLimit (hs : StoresSound s) : StoresSound (recrossLimit s) :=
  sound_ite (fun _ => sound_setCseq (sound_stopUnfinished (sound_atTime _ hs))) fun _ => hs

/-! ### The drain (R34, R317 to R320, R693) -/

theorem sound_egressRelease (hs : StoresSound s) : StoresSound (egressRelease s) := by
  unfold egressRelease
  extract_lets s1
  have h1 : StoresSound s1 := sound_toDraining hs
  exact sound_ite (fun _ => sound_foldl (fun _ _ h2 => sound_releaseEgress h2) _ (sound_modX _ h1)) fun _ => h1

/-! ### Endings (R329, R330, R334, R339, R341 to R344, R350) -/

theorem sound_showPeak {l : Latched} (hs : StoresSound s) : StoresSound (showPeak s l) := sound_berthSet (sound_berthSet hs)

theorem sound_showVerdict {v : Verdict} (hs : StoresSound s) : StoresSound (showVerdict s v) := by
  unfold showVerdict
  extract_lets
  split
  · exact hs
  · exact sound_berthSet (sound_berthSet (sound_berthSet hs))

theorem sound_removePosts {bad : List Latched} (hs : StoresSound s) : StoresSound (removePosts bad s) := sound_modX _ hs

theorem sound_suspendAll (hs : StoresSound s) : StoresSound (suspendAll s) :=
  sound_modX _ (sound_foldl (fun _ _ h => sound_suspendBerth h) _ hs)

theorem sound_endRun {clean : List Nat} (hs : StoresSound s) : StoresSound (endRun clean s) :=
  sound_modX _ (sound_suspendAll (sound_foldl
    (fun _ _ h1 => sound_suspendBerth h1) _ (sound_removePosts (sound_foldl (fun _ _ h2 => sound_showVerdict h2) _ hs))))

/-! ### Slack water (R35, R40, R320) -/

theorem sound_releaseStops (hs : StoresSound s) : StoresSound (releaseStops s) := by
  unfold releaseStops
  extract_lets _ s1
  have h1 : StoresSound s1 := sound_foldl (fun _ _ h2 => sound_releaseTile h2) _ hs
  exact sound_frame h1 rfl

theorem sound_stepOne (hs : StoresSound s) : StoresSound (stepOne s) :=
  sound_finishTests (sound_pendingRoutes (sound_foldl (fun _ _ h => sound_leaveField h) _ (sound_applyRetirements hs)))

theorem sound_showCounts (hs : StoresSound s) : StoresSound (showCounts s) :=
  sound_foldl (fun _ _ h => sound_set _ _ _ h) _ hs

theorem sound_finalSlack (hs : StoresSound s) : StoresSound (finalSlack s) := by
  unfold finalSlack
  extract_lets _ _ t
  have h : StoresSound t := sound_hoistAtSlack (sound_set _ _ _ (sound_set2 _ _ _ _ (sound_showCounts hs)))
  exact sound_ite (fun _ => sound_setCseq (sound_set _ _ _ h)) fun _ => sound_modX _ h

theorem sound_slackWater (hs : StoresSound s) : StoresSound (slackWater s) := by
  unfold slackWater
  extract_lets s1 _ s2
  have h1 : StoresSound s1 := sound_toDraining hs
  have h2 : StoresSound s2 := sound_releaseStops
    (sound_endRun (sound_stepOne (sound_foldl (fun _ _ h3 => sound_showPeak h3) _ h1)))
  exact sound_ite (fun _ => h1) fun _ => sound_ite (fun _ => sound_finalSlack h2) fun _ => sound_setCseq h2

/-! ### Restores and re-crossings (R330, R338, R342) -/

theorem sound_openRecross (hs : StoresSound s) : StoresSound (openRecross s) :=
  sound_newEgress (sound_setCseq (sound_openTiles (sound_modX _ (sound_modBerths (sound_atTime _ hs)))))

theorem sound_restoreEnd (hs : StoresSound s) : StoresSound (restoreEnd s) := by
  unfold restoreEnd
  extract_lets _ s1
  have h1 : StoresSound s1 := sound_foldl (fun _ _ h2 => sound_restoreBerth h2) _ hs
  exact sound_ite (fun _ => hs) fun _ => sound_ite (fun _ => sound_openRecross h1) fun _ =>
    sound_finalSlack (sound_suspendAll (sound_stepOne (sound_modX _ h1)))

/-! ## The field loop, the damage guard and the RTC -/

/-! ### The field loop (R114 to R124) -/

theorem outSound_atLoop {f : Nat} {g : State → State} (hg : ∀ {t}, StoresSound t → StoresSound (g t)) (hs : StoresSound s) :
    OutSound (atLoop f g s) :=
  outSound_ifAwake (fun h => sound_ite (fun _ => hg h) fun _ => h) hs

theorem sound_recompute {f margin : Nat} {watts : List Nat} (hs : StoresSound s) :
    StoresSound (recompute f margin watts s) :=
  sound_set _ _ _ (sound_set _ _ _ (sound_set _ _ _ hs))

theorem sound_droopTrip {f : Nat} (hs : StoresSound s) : StoresSound (droopTrip f s) := by
  unfold droopTrip
  exact sound_frame (sound_bumpSat _ _ _ (sound_set _ _ _ (sound_set _ _ _ hs))) rfl

theorem sound_droopEnd {f : Nat} (hs : StoresSound s) : StoresSound (droopEnd f s) := by
  unfold droopEnd
  exact sound_ite (fun _ => sound_frame (sound_set _ _ _ hs) rfl) fun _ => hs

theorem outSound_execVdemandRecompute {f : FieldId} {code : Nat} (hs : StoresSound s) :
    OutSound (execVdemandRecompute f code s) :=
  outSound_atLoop (sound_set _ _ _) hs

theorem outSound_execMastVisit {f : FieldId} {acked : Bool} (hs : StoresSound s) : OutSound (execMastVisit f acked s) :=
  outSound_atLoop (fun h => sound_ite (fun _ => h) fun _ => sound_ite (fun _ => sound_visit h) fun _ => sound_notAcked h) hs

/-! ### The damage guard (R125 to R128) -/

theorem sound_tripField {f sensor reading : Nat} {acked : Bool} (hs : StoresSound s) :
    StoresSound (tripField f sensor reading acked s) := by
  unfold tripField
  extract_lets _ s1 _ _ s2
  have h1 : StoresSound s1 := sound_modP hs
  have h2 : StoresSound s2 := sound_raiseEvent _
    (sound_setBit2 _ _ _ _ _ (sound_setFieldOn (sound_ite (fun _ => sound_removeField h1) fun _ => sound_removeField h1)))
  exact sound_ite (fun _ => sound_railKept h2) fun _ => sound_ite (fun _ => sound_fieldOff h2) fun _ => sound_notAcked h2

theorem sound_sampleField {unacked : List FieldId} {f : FieldId} {readings : List Nat} (hs : StoresSound s) :
    StoresSound (sampleField unacked f readings s) := by
  unfold sampleField
  extract_lets _ t
  have h : StoresSound t := sound_set _ _ _ hs
  refine sound_ite (fun _ => hs) fun _ => ?_
  split
  · exact sound_ite (fun _ => h) fun _ => sound_set _ _ _ (sound_tripField h)
  · exact h

theorem sound_sampleAll {readings : List (FieldId × List Nat)} {unacked : List FieldId} (hs : StoresSound s) :
    StoresSound (sampleAll readings unacked s) := by
  unfold sampleAll
  refine sound_foldl (fun _ _ h => ?_) _ hs
  split
  · exact sound_sampleField h
  · exact h

theorem outSound_execDamageGuardSample {readings : List (FieldId × List Nat)} {unacked : List FieldId} (hs : StoresSound s) :
    OutSound (execDamageGuardSample readings unacked s) :=
  outSound_ifStandby (fun h => sound_ite (fun _ => sound_onRoster sound_sampleAll h) fun _ => h) hs

/-! ### The RTC (R141) -/

theorem sound_secondTick (hs : StoresSound s) : StoresSound (secondTick s) := by
  unfold secondTick
  extract_lets t
  have h : StoresSound t := sound_modP hs
  exact sound_ite (fun _ => sound_set _ _ _ (sound_modP h)) fun _ => h

theorem sound_rtcLoad {hi : Word} (hs : StoresSound s) : StoresSound (rtcLoad hi s) := sound_modP hs

theorem sound_rtcLatch (hs : StoresSound s) : StoresSound (rtcLatch s) := sound_modP hs

/-! ### The built-in self-test (R149 to R154, R208 to R210) -/

theorem sound_countTest {f : Nat} {passed : Bool} (hs : StoresSound s) : StoresSound (countTest f passed s) :=
  sound_bump _ _ hs

theorem sound_failTile {f t : Nat} (hs : StoresSound s) : StoresSound (failTile f t s) :=
  sound_promoteRow (sound_countTest (sound_setTileState hs))

theorem sound_failBank {f t b : Nat} (hs : StoresSound s) : StoresSound (failBank f t s b) :=
  sound_setBit _ _ _ _ (sound_raiseEntry hs)

theorem sound_tileTestEnd {f t : Nat} {part : Option Nat} {banks : List Nat} (hs : StoresSound s) :
    StoresSound (tileTestEnd f t part banks s) := by
  unfold tileTestEnd
  extract_lets _ _ part s1 s2 s4
  have h1 : StoresSound s1 := by
    unfold s1
    clear_value part
    split
    · exact sound_raiseEntry hs
    · exact hs
  have h2 : StoresSound s2 := sound_foldl (fun _ _ h3 => sound_failBank h3) _ h1
  have h4 : StoresSound s4 := by
    unfold s4
    clear_value part
    split
    · exact sound_failTile h2
    · exact sound_countTest (sound_enterPassed h2)
  exact sound_finishBist h4

theorem outSound_execTileTestEnd {f : FieldId} {t : TileId} {part : Option Nat} {banks : List Nat} (hs : StoresSound s) :
    OutSound (execTileTestEnd f t part banks s) :=
  outSound_ifAwake (fun h1 => sound_ite (fun _ => sound_onRoster (fun h2 => sound_newFieldRecords (sound_tileTestEnd h2)) h1)
    fun _ => h1) hs

theorem sound_timeoutTile {f t : Nat} (hs : StoresSound s) : StoresSound (timeoutTile f s t) :=
  sound_ite (fun _ => sound_raiseEvent _ (sound_failTile hs)) fun _ => hs

theorem outSound_execBistTimeout {f : FieldId} (hs : StoresSound s) : OutSound (execBistTimeout f s) := by
  unfold execBistTimeout
  exact outSound_ifAwake (fun h1 => sound_ite (fun _ => h1) fun _ =>
    sound_onRoster (fun h2 => sound_finishBist (sound_foldl (fun _ _ h3 => sound_timeoutTile h3) _ h2)) (sound_frame h1 rfl))
    hs

/-! ### Landings and ports (R159, R160, R163) -/

theorem outSound_execLandingSelfTestEnd {k : LandingId} {passed : Bool} (hs : StoresSound s) :
    OutSound (execLandingSelfTestEnd k passed s) := by
  unfold execLandingSelfTestEnd
  refine outSound_ifAwake (fun h1 => ?_) hs
  refine sound_ite (fun _ => h1) fun _ => ?_
  refine sound_onRoster (fun h2 => ?_) h1
  extract_lets _ s3
  have h3 : StoresSound s3 := sound_frame h2 rfl
  exact sound_ite (fun _ => sound_startEnds (sound_setBit _ _ _ _ h3)) fun _ => sound_raiseEvent _ (sound_setBit _ _ _ _ h3)

theorem outSound_execPortWindowExpiry {k : LandingId} {p : Nat} (hs : StoresSound s) :
    OutSound (execPortWindowExpiry k p s) := by
  unfold execPortWindowExpiry
  exact outSound_ifAwake (fun h1 => sound_ite (fun _ => h1) fun _ => sound_onRoster (fun h2 => sound_frame h2 rfl) h1) hs

/-! ## The test access port -/

theorem sound_setTap {code : Nat} {extest refused : Bool} (hs : StoresSound s) :
    StoresSound (setTap code extest refused s) := by
  unfold setTap
  exact sound_set _ _ _ (sound_frame hs rfl)

theorem sound_afterExtest {was : Bool} {probe : ProbeAnswers} (hs : StoresSound s) : StoresSound (afterExtest was probe s) :=
  sound_ite (fun _ => sound_actHeld hs) fun _ => hs

theorem sound_loadTap {code : Nat} {probe : ProbeAnswers} (hs : StoresSound s) : StoresSound (loadTap code probe s) :=
  sound_ite (fun _ => sound_afterExtest (sound_setTap hs)) fun _ => hs

theorem sound_loadExtest {frame : Option Frame} (hs : StoresSound s) : StoresSound (loadExtest frame s) := by
  unfold loadExtest
  extract_lets t
  have h : StoresSound t := by
    unfold t
    split
    · exact sound_ite (fun _ => hs) fun _ => sound_rejectFrame hs
    · exact hs
  exact sound_ite (fun _ => hs) fun _ => sound_ite (fun _ => sound_setTap h) fun _ => sound_set _ _ _ (sound_setTap hs)

theorem sound_loadBypass {code : Nat} {probe : ProbeAnswers} (hs : StoresSound s) : StoresSound (loadBypass code probe s) :=
  sound_ite (fun _ => sound_loadTap hs) fun _ => hs

theorem sound_trstLevel {low : Bool} {probe : ProbeAnswers} (hs : StoresSound s) : StoresSound (trstLevel low probe s) := by
  unfold trstLevel
  extract_lets _ _ t
  have h : StoresSound t := sound_frame hs rfl
  exact sound_ite (fun _ => sound_afterExtest (sound_set _ _ _ (sound_frame h rfl))) fun _ => h

theorem sound_updateDr {value levels : BitVec 21} (hs : StoresSound s) : StoresSound (updateDr value levels s) := by
  unfold updateDr
  exact sound_ite (fun _ => hs) fun _ => sound_frame hs rfl

/-! ## Accesses to registers -/

/-! ### What a word reads (R11, R227) -/

theorem sound_readEffect {a : Nat} (hs : StoresSound s) : StoresSound (readEffect a s) := by
  unfold readEffect
  split
  · exact sound_ite (fun _ => sound_rtcLatch hs) fun _ => hs
  · exact sound_ite (fun _ => sound_popFifo hs) fun _ => hs
  · exact sound_ite (fun _ => sound_latchCurNo hs) fun _ => hs
  · exact sound_ite (fun _ => sound_popReport hs) fun _ => hs
  · exact hs

/-! ### What a write does to the fields of a word (R9, R10, R232 to R237, R244) -/

theorem sound_stageWord {a : Nat} {v : Word} (hs : StoresSound s) : StoresSound (stageWord a v s) :=
  sound_ite (fun _ => sound_setError _ _ hs) fun _ => sound_set _ _ _ (sound_setShadow _ _ hs)

theorem sound_haltOnlyWord {k : PageKind} {a : Nat} {v : Word} (hs : StoresSound s) : StoresSound (haltOnlyWord k a v s) :=
  sound_ite (fun _ => sound_setWord _ _ hs) fun _ => sound_setError _ _ hs

theorem sound_liveWord {k : PageKind} {a : Nat} {v : Word} (hs : StoresSound s) : StoresSound (liveWord k a v s) :=
  sound_afterError _ _ (sound_setWord _ _ hs)

theorem sound_writeFields {a : Nat} {v : Word} (hs : StoresSound s) : StoresSound (writeFields a v s) := by
  unfold writeFields
  extract_lets
  split
  · exact hs
  · extract_lets s1 s2
    have h1 : StoresSound s1 := sound_ite (fun _ => hs) fun _ => sound_liveWord hs
    have h2 : StoresSound s2 := sound_ite (fun _ => h1) fun _ => sound_haltOnlyWord h1
    exact sound_ite (fun _ => h2) fun _ => sound_stageWord h2

/-! ### Registers with a behaviour of their own -/

theorem sound_writeFieldOn {base : Nat} {v : Word} (hs : StoresSound s) : StoresSound (writeFieldOn base v s) :=
  sound_foldl (fun _ _ h => sound_ite (fun _ => sound_fieldOnSet h) fun _ => sound_fieldOnClear h) _ hs

theorem sound_writeLandingOn {v : Word} (hs : StoresSound s) : StoresSound (writeLandingOn v s) :=
  sound_foldl (fun _ _ h => sound_ite (fun _ => sound_landingOnSet h) fun _ => sound_landingOnClear h) _ hs

theorem sound_writeMpwr {a : Nat} {v : Word} (hs : StoresSound s) : StoresSound (writeMpwr a v s) := by
  unfold writeMpwr
  extract_lets t
  have h : StoresSound t := sound_writeFields hs
  split
  · exact sound_writeFieldOn hs
  · exact sound_writeFieldOn hs
  · exact sound_writeLandingOn hs
  · exact sound_modP hs
  · exact sound_rtcLoad hs
  · exact sound_ite (fun _ => sound_onRoster sound_writeFields hs) fun _ => sound_writeFields hs
  · exact sound_ite (fun _ => sound_askProbe h) fun _ => h
  · exact sound_ite (fun _ => sound_requestMoor hs) fun _ => hs
  · exact sound_writeFields hs

theorem sound_writeMast {a : Nat} {v : Word} (hs : StoresSound s) : StoresSound (writeMast a v s) := by
  unfold writeMast
  split
  · exact sound_ite (fun _ => sound_clearCounters hs) fun _ => hs
  · exact sound_clearCause hs
  · exact sound_writeFields hs

theorem sound_writeDmap {a : Nat} {v : Word} (hs : StoresSound s) : StoresSound (writeDmap a v s) := by
  unfold writeDmap
  extract_lets t
  have h : StoresSound t := sound_writeFields hs
  split
  · exact sound_settleEos (sound_writeFields hs)
  · exact sound_ite (fun _ => sound_askSync h) fun _ => h
  · exact sound_ite (fun _ => sound_retireCmd hs) fun _ => hs
  · exact sound_showRecord (sound_writeFields hs)
  · exact sound_writeFields hs

theorem sound_writeLogb {a : Nat} {v : Word} (hs : StoresSound s) : StoresSound (writeLogb a v s) := by
  unfold writeLogb
  split
  · exact sound_ackSeq hs
  · exact sound_readSeq hs
  · exact sound_serviceMark hs
  · exact sound_serviceReason hs
  · exact sound_writeFields hs

theorem sound_writeHoist {a : Nat} {v : Word} (hs : StoresSound s) : StoresSound (writeHoist a v s) := by
  unfold writeHoist
  refine sound_ite (fun _ => ?_) fun _ => sound_writeFields hs
  split
  · exact sound_startCheck hs
  · exact sound_startCheck hs
  · exact sound_disarm hs
  · exact sound_abort hs
  · exact hs

theorem sound_writeCseq {a : Nat} {v : Word} (hs : StoresSound s) : StoresSound (writeCseq a v s) := by
  unfold writeCseq
  refine sound_ite (fun _ => ?_) fun _ => sound_writeFields hs
  split
  · exact sound_startCrossing hs
  · exact sound_stopCrossing hs
  · exact sound_startCrossing hs
  · exact hs

theorem sound_writeBerth {a : Nat} {v : Word} (hs : StoresSound s) : StoresSound (writeBerth a v s) := by
  unfold writeBerth
  extract_lets _ _ t
  have h : StoresSound t := sound_ite (fun _ => sound_onRoster sound_resume hs) fun _ => hs
  exact sound_ite (fun _ => sound_ite (fun _ => sound_onRoster sound_suspend h) fun _ => h) fun _ => sound_writeFields hs

theorem sound_writeEcc {k a : Nat} {v : Word} (hs : StoresSound s) : StoresSound (writeEcc k a v s) := by
  unfold writeEcc
  extract_lets t
  have h : StoresSound t := sound_writeFields hs
  exact sound_ite (fun _ => sound_injectErr h) fun _ => sound_ite (fun _ => sound_injectErr h) fun _ => h

theorem sound_writeEvents {k a : Nat} {v : Word} (hs : StoresSound s) : StoresSound (writeEvents k a v s) := by
  unfold writeEvents
  extract_lets s1 s2
  have h1 : StoresSound s1 := sound_writeFields hs
  have h2 : StoresSound s2 := sound_ite (fun _ => sound_modRig _ _ h1) fun _ => h1
  exact sound_ite (fun _ => sound_set _ _ _ h2) fun _ => h2

theorem sound_writeTile0 {a : Nat} {v : Word} (hs : StoresSound s) : StoresSound (writeTile0 a v s) := by
  unfold writeTile0
  extract_lets
  split
  · exact sound_ite (fun _ => sound_ifsGo hs) fun _ => hs
  · exact sound_ite (fun _ => sound_iflGo hs) fun _ => hs
  · exact sound_writeEcc hs
  · exact sound_pmodeWrite hs
  · exact sound_writeEvents hs
  · exact sound_writeFields hs

theorem sound_writeHeader {a : Nat} {v : Word} (hs : StoresSound s) : StoresSound (writeHeader a v s) := by
  unfold writeHeader
  extract_lets t
  have h : StoresSound t := sound_writeFields hs
  split
  · exact sound_haltReq h
  · exact sound_ite (fun _ => sound_discard h) fun _ => h
  · exact h

theorem sound_writeFctl {a : Nat} {v : Word} (hs : StoresSound s) : StoresSound (writeFctl a v s) :=
  sound_ite (fun _ => sound_ite (fun _ => sound_escRelease hs) fun _ => hs) fun _ => sound_writeFields hs

theorem sound_writeHaws {a : Nat} {v : Word} (hs : StoresSound s) : StoresSound (writeHaws a v s) :=
  sound_ite (fun _ => sound_ite (fun _ => sound_breakEnd hs) fun _ => hs) fun _ => sound_writeFields hs

theorem sound_writeStrlX {a : Nat} {v : Word} (hs : StoresSound s) : StoresSound (writeStrlX a v s) :=
  sound_ite (fun _ => sound_xctlWrite hs) fun _ => sound_writeFields hs

theorem sound_regWrite {a : Nat} {v : Word} (hs : StoresSound s) : StoresSound (regWrite a v s) := by
  unfold regWrite
  split
  · exact hs
  · refine sound_ite (fun _ => hs) fun _ => ?_
    refine sound_ite (fun _ => sound_writeHeader hs) fun _ => ?_
    split
    · exact sound_writeMast hs
    · exact sound_writeMpwr hs
    · exact sound_writeDmap hs
    · exact sound_writeLogb hs
    · exact sound_writeHoist hs
    · exact sound_writeCseq hs
    · exact sound_writeBerth hs
    · exact sound_writeStrlX hs
    · exact sound_writeFctl hs
    · exact sound_writeTile0 hs
    · exact sound_writeHaws hs
    · exact sound_writeFields hs
    · exact sound_writeFields hs
    · exact sound_writeFields hs
    · exact sound_writeFields hs
    · exact sound_writeFields hs
    · exact sound_writeFields hs
    · exact sound_writeFields hs
    · exact sound_writeFields hs
    · exact sound_writeFields hs
    · exact sound_writeFields hs
    · exact sound_writeFields hs
    · exact sound_writeFields hs

theorem sound_rigWrite {k a : Nat} {berth : Bool} {v : Word} (hs : StoresSound s) : StoresSound (rigWrite k a berth v s) :=
  sound_regWrite hs

/-! ### Broadcast writes (R223, R239 to R241, R789) -/

theorem sound_broadcastAt {v : Word} {r : State × Nat} {a : Nat} (hr : StoresSound r.1) :
    StoresSound (broadcastAt v r a).1 :=
  soundFst_ite (fun _ => hr) fun _ => soundFst_mk (sound_stageWord hr)

theorem sound_broadcast {a : Nat} {v : Word} (hs : StoresSound s) : StoresSound (broadcast a v s) :=
  sound_set _ _ _ (soundFst_foldl (fun _ _ h => sound_broadcastAt h) _ hs)

/-! ### READ and WRITE frames (R280 to R286) -/

theorem sound_readFrame {tag : Byte} {a : Nat} (hs : StoresSound s) : StoresSound (readFrame tag a s) := sound_takeCommand hs

theorem sound_writeFrame {tag : Byte} {a : Nat} {v : Word} (hs : StoresSound s) : StoresSound (writeFrame tag a v s) :=
  sound_takeCommand hs

theorem sound_completeCommand (hs : StoresSound s) : StoresSound (completeCommand s) := by
  unfold completeCommand
  split
  · exact hs
  · exact sound_answerCommand hs
  · exact sound_ite (fun _ => sound_answerCommand (sound_readEffect hs)) fun _ => sound_answerCommand hs
  · exact sound_ite (fun _ => sound_answerCommand (sound_regWrite hs)) fun _ => sound_answerCommand hs
  · exact sound_answerCommand (sound_ite (fun _ => sound_broadcast hs) fun _ => hs)

theorem sound_takenFrame {f : Frame} {probe : ProbeAnswers} (hs : StoresSound s) : StoresSound (takenFrame f probe s) := by
  unfold takenFrame
  extract_lets
  split
  · exact sound_statusFrame hs
  · exact sound_readFrame hs
  · exact sound_writeFrame hs
  · exact sound_moorFrame hs
  · exact sound_wakeFrame hs

theorem outSound_execRejectedFrame {frame : Frame} {probe : ProbeAnswers} (hs : StoresSound s) :
    OutSound (execRejectedFrame frame s probe) := by
  unfold execRejectedFrame
  refine sound_ite (fun _ => ?_) fun _ => hs
  split
  · exact hs
  · exact sound_rejectFrame hs
  · exact sound_takenFrame hs

theorem sound_registerWrite {w : Writer} {a : Nat} {v : Word} (hs : StoresSound s) :
    StoresSound (registerWrite w a v s) := by
  unfold registerWrite
  extract_lets
  refine sound_ite (fun _ => hs) fun _ => ?_
  split
  · exact sound_regWrite hs
  · exact sound_ite (fun _ => sound_rigWrite hs) fun _ => hs

/-! ### The IOU (R436 to R438) -/

theorem sound_iouDone {k : Nat} {v : Option Word} (hs : StoresSound s) : StoresSound (iouDone k v s) := sound_modRig _ _ hs

theorem sound_keepOld {k : Nat} {q : IouAcc} (hs : StoresSound s) : StoresSound (keepOld k q s) :=
  sound_ite (fun _ => sound_modRig _ _ hs) fun _ => hs

theorem sound_iouStep {k : Nat} (hs : StoresSound s) : StoresSound (iouStep k s) := by
  unfold iouStep
  extract_lets t
  have h : StoresSound t := sound_grant hs
  split
  · exact hs
  · exact sound_ite (fun _ => hs) fun _ => sound_ite (fun _ => sound_raiseBus (sound_iouDone hs)) fun _ =>
      sound_ite (fun _ => sound_iouDone (sound_rigWrite (sound_keepOld h))) fun _ => sound_iouDone h

/-! ## Packets -/

/-! ### Requests at M3 -/

theorem sound_serve {kind i : Nat} {act : Nat → Pkt → State → Served}
    (hact : ∀ {k p t}, StoresSound t → StoresSound (act k p t).state) (hs : StoresSound s) : StoresSound (serve kind i act s) := by
  unfold serve
  split
  · exact hs
  · refine sound_ite (fun _ => hs) fun _ => sound_ite (fun _ => sound_lose (sound_consume hs)) fun _ =>
      sound_ite (fun _ => hs) fun _ => ?_
    exact sound_answer (sound_drainIf (hact (sound_consume hs)))

/-- An access of M3 that T11 answers at once touches registers alone; any other acts after its grants. -/
theorem sound_atM3 {k a n : Nat} {grants : State → State} {act : State → Served}
    (hg : ∀ {t}, StoresSound t → StoresSound (grants t))
    (hact : ∀ {t}, StoresSound t → StoresSound (act t).state) (hs : StoresSound s) :
    StoresSound (atM3 k a n grants act s).state := by
  unfold atM3
  split
  · exact sound_toT11 hs
  · exact hact (hg hs)

theorem sound_serveRead {k : Nat} {p : Pkt} (hs : StoresSound s) : StoresSound (serveRead k p s).state := by
  refine sound_atM3 sound_grant (fun h => ?_) hs
  dsimp only
  split <;> exact sound_dmemAccess h

theorem sound_serveWrite {k : Nat} {p : Pkt} (hs : StoresSound s) : StoresSound (serveWrite k p s).state := by
  refine sound_atM3 sound_grant (fun h => ?_) hs
  dsimp only
  split <;> exact sound_dmemAccess h

theorem sound_serveAtomic {k : Nat} {p : Pkt} (hs : StoresSound s) : StoresSound (serveAtomic k p s).state := by
  refine sound_atM3 sound_grant (fun h => ?_) hs
  dsimp only
  split <;> exact sound_dmemAccess h

theorem sound_serveBlockWrite {k : Nat} {p : Pkt} (hs : StoresSound s) : StoresSound (serveBlockWrite k p s).state := by
  refine sound_atM3 sound_grantBursts (fun h => ?_) hs
  dsimp only
  split <;> exact sound_writeAs h

theorem sound_serveBlockRead {k : Nat} {p : Pkt} (hs : StoresSound s) : StoresSound (serveBlockRead k p s).state := by
  refine sound_atM3 sound_grantBursts (fun h => ?_) hs
  dsimp only
  split <;> exact sound_readAs h

theorem sound_serveImem {k : Nat} {p : Pkt} (hs : StoresSound s) : StoresSound (serveImem k p s).state :=
  sound_putBundles (sound_grant hs)

theorem sound_servePost {k : Nat} {p : Pkt} (hs : StoresSound s) : StoresSound (servePost k p s).state := by
  unfold servePost
  dsimp only
  split
  · split
    · exact sound_modX _ hs
    · exact sound_atM3 sound_grantBursts (sound_modX _) hs
  · exact sound_modX _ hs

/-! ### Responses -/

theorem sound_respond {kind i : Nat} {act : Nat → Pkt → State → State}
    (hg : ∀ {x0 x1 t}, StoresSound t → StoresSound (act x0 x1 t)) (hs : StoresSound s) :
    StoresSound (respond kind i act s) := by
  unfold respond
  split
  · exact hs
  · exact hg (sound_consume hs)

theorem outSound_execReadResp {i : Nat} (hs : StoresSound s) : OutSound (execReadResp i s) := by
  unfold execReadResp
  refine sound_respond (fun h => ?_) hs
  split
  · exact sound_lsuResponse h
  · exact h

theorem outSound_execAck {i : Nat} (hs : StoresSound s) : OutSound (execAck i s) := by
  unfold execAck
  refine sound_respond (fun h => ?_) hs
  split
  · exact sound_lsuResponse h
  · exact sound_ferryAck h
  · exact sound_xferAnswer h
  · exact h

theorem outSound_execBlockResp {i : Nat} (hs : StoresSound s) : OutSound (execBlockResp i s) := by
  unfold execBlockResp
  refine sound_respond (fun h => ?_) hs
  split
  · exact sound_foldResponse h
  · exact sound_ferryData h
  · exact sound_xferAnswer h
  · exact h

theorem outSound_execError {i : Nat} (hs : StoresSound s) : OutSound (execError i s) := by
  unfold execError
  refine sound_respond (fun h => ?_) hs
  split
  · exact sound_lsuResponse h
  · exact sound_foldResponse h
  · exact sound_ferryError h
  · exact sound_bayLost h
  · exact sound_xferAnswer h

/-! ## Every command and every step -/

/-- Every command keeps the stores sound. -/
theorem outSound_exec (c : Instr) (hs : StoresSound s) : OutSound (exec c s) := by
  cases c with
  | status => exact sound_ite (fun _ => sound_statusFrame hs) fun _ => hs
  | read => exact outSound_ifFree sound_readFrame hs
  | write => exact outSound_ifFree sound_writeFrame hs
  | moor => exact outSound_ifFree sound_moorFrame hs
  | wake => exact outSound_ifFree sound_wakeFrame hs
  | rejectedFrame => exact outSound_execRejectedFrame hs
  | commandComplete => exact outSound_ifStandby sound_completeCommand hs
  | registerWrite => exact sound_registerWrite hs
  | vstbyApplied => exact outSound_execVstbyApplied hs
  | resetN => exact outSound_execResetN hs
  | wakeN => exact outSound_execWakeN hs
  | rtcAlarm => exact outSound_execRtcAlarm hs
  | rtcSecondsWrite => exact outSound_ifStandby sound_rtcLoad hs
  | rtcSecondsLoRead => exact outSound_ifStandby sound_rtcLatch hs
  | pmbusRetry => exact outSound_execPmbusRetry hs
  | sdaLowIdle => exact outSound_execSdaLowIdle hs
  | sclLowTimeout => exact outSound_execSclLowTimeout hs
  | sidebandRetry => exact outSound_execSidebandRetry hs
  | pmbAlertService => exact outSound_execPmbAlertService hs
  | railStatusPoll => exact outSound_execRailStatusPoll hs
  | powerGoodTimeout => exact outSound_execPowerGoodTimeout hs
  | pllLocked => exact outSound_execPllLocked hs
  | pllNoLock => exact outSound_execPllNoLock hs
  | reconciled => exact outSound_execReconciled hs
  | fieldOnSet => exact outSound_ifStandby sound_fieldOnSet hs
  | fieldOnClear => exact outSound_ifStandby sound_fieldOnClear hs
  | landingOnSet => exact outSound_ifStandby sound_landingOnSet hs
  | landingOnClear => exact outSound_ifStandby sound_landingOnClear hs
  | moorReq => exact outSound_ifStandby sound_requestMoor hs
  | allowanceRecompute => exact outSound_atLoop sound_recompute hs
  | droopTrip => exact outSound_atLoop sound_droopTrip hs
  | droopHoldEnd => exact outSound_atLoop sound_droopEnd hs
  | vdemandRecompute => exact outSound_execVdemandRecompute hs
  | mastVisit => exact outSound_execMastVisit hs
  | damageGuardSample => exact outSound_execDamageGuardSample hs
  | tileTestEnd => exact outSound_execTileTestEnd hs
  | bistTimeout => exact outSound_execBistTimeout hs
  | landingSelfTestEnd => exact outSound_execLandingSelfTestEnd hs
  | portWindowExpiry => exact outSound_execPortWindowExpiry hs
  | escalationReachesRoster => exact outSound_ifAwake sound_reachRoster hs
  | retireCmd => exact outSound_ifStandby sound_retireCmd hs
  | mapSync => exact outSound_ifStandby sound_mapSync hs
  | readIndex => exact outSound_execReadIndex hs
  | flashBusyPoll => exact outSound_execFlashBusyPoll hs
  | flashOpTimeout => exact outSound_execFlashOpTimeout hs
  | check | arm => exact outSound_ifAwake sound_startCheck hs
  | disarm => exact outSound_ifAwake sound_disarm hs
  | abort => exact outSound_ifAwake sound_abort hs
  | checkEnd => exact outSound_ifAwake sound_checkEnd hs
  | fifoHiRead => exact outSound_ifAwake sound_popFifo hs
  | hoistInstant => exact outSound_ifAwake (sound_onRoster sound_hoistInstant) hs
  | discard => exact outSound_execDiscard hs
  | haltReq => exact outSound_ifReach sound_haltReq hs
  | haltPointReached => exact outSound_ifReach sound_haltPoint hs
  | cntClear => exact outSound_ifStandby sound_clearCounters hs
  | alertHeldLow => exact outSound_execAlertHeldLow hs
  | extest => exact sound_loadExtest hs
  | samplePreload | idcode => exact sound_loadTap hs
  | bypass => exact sound_loadBypass hs
  | trstN => exact sound_trstLevel hs
  | start | step => exact outSound_ifAwake sound_startCrossing hs
  | stop => exact outSound_ifAwake sound_stopCrossing hs
  | curNoLoRead => exact outSound_ifAwake sound_latchCurNo hs
  | opening => exact outSound_ifAwake (sound_onRoster sound_opening) hs
  | ingressClose => exact outSound_ifAwake sound_ingressClose hs
  | cxdone => exact outSound_ifAwake sound_cxdone hs
  | overrun => exact outSound_ifAwake sound_overrun hs
  | drainLimit => exact outSound_ifAwake sound_drainLimit hs
  | recrossStage1Limit => exact outSound_ifAwake sound_recrossLimit hs
  | egressRelease => exact outSound_ifAwake sound_egressRelease hs
  | slackWater => exact outSound_ifAwake (sound_onRoster sound_slackWater) hs
  | restoreEnd => exact outSound_ifAwake (sound_onRoster sound_restoreEnd) hs
  | snapshotLineCopied => exact outSound_ifAwake sound_lineCopied hs
  | resume => exact outSound_ifAwake sound_resume hs
  | suspend => exact outSound_ifAwake sound_suspend hs
  | move | shl | shr | sar | rol | ror | ext | exts | ins | bswap | hswap | clz | ctz | c32cB | c32cW | c32B | c32W | c16B |
    c16W | cpB | cpW | fin32 | fin16 | finp | parW | parB | revW | revB | pop | fold32c | fold32 | fold16 | foldp | fclr |
    mul | mulu | mulv | mulvu | div | divu | divq | divqu | init | seth | rnd | swp | ldadd | cas | sync | ior | iow | jmp |
    call | ret | dbnz | rpt | rpti | trap | gwcall | gwret | slip | eret | compare | kick =>
    exact outSound_unitRow hs
  | add | addc | addv | sub | subb | subv | and | or | xor | andn | slt | sltu | min | minu | max | maxu | abs | pass =>
    exact outSound_aluRow hs
  | foldBeatRead => exact sound_foldStep hs
  | unitResult => exact sound_unitResult hs
  | ldb | ldbs | ldh | ldhs | ldw | stb | sth | stw => exact outSound_accessRow hs
  | lsuAccessComplete => exact sound_lsuStep hs
  | iouAccessComplete => exact outSound_ifAwake sound_iouStep hs
  | gateCall | gateReturn => exact sound_gateRow hs
  | handlerEntry => exact sound_handlerEntry hs
  | timerEvent => exact outSound_ifTile sound_timerEvent hs
  | raise => exact outSound_execRaise hs
  | pmodeWrite => exact outSound_ifTile sound_pmodeWrite hs
  | escRelease => exact outSound_execEscRelease hs
  | escHead2Read => exact outSound_ifReach sound_popReport hs
  | ifs => exact outSound_ifTile sound_ifsGo hs
  | ifl => exact outSound_ifTile sound_iflGo hs
  | injCe | injUe => exact outSound_ifTile sound_injectErr hs
  | patrolScrub => exact outSound_execPatrolScrub hs
  | creditWindow => exact outSound_execCreditWindow hs
  | routeComputeEnd => exact outSound_execRouteComputeEnd hs
  | lookupIn => exact outSound_execLookupIn hs
  | farRead => exact sound_serve sound_serveRead hs
  | farWrite => exact sound_serve sound_serveWrite hs
  | farAtomic => exact sound_serve sound_serveAtomic hs
  | blockWrite => exact sound_serve sound_serveBlockWrite hs
  | imemWrite => exact sound_serve sound_serveImem hs
  | post => exact sound_serve sound_servePost hs
  | egress => exact sound_egressArrives hs
  | blockRead => exact sound_serve sound_serveBlockRead hs
  | readResp => exact outSound_execReadResp hs
  | ack => exact outSound_execAck hs
  | blockResp => exact outSound_execBlockResp hs
  | error => exact outSound_execError hs
  | descriptorStart => exact sound_startDescriptor hs
  | descriptorComplete => exact sound_completeDescriptor hs
  | dataPacket => exact outSound_execDataPacket hs
  | hawserAck => exact outSound_execHawserAck hs
  | nak => exact outSound_execNak hs
  | lane => exact outSound_execLane hs
  | flow => exact outSound_execFlow hs
  | trainMask => exact outSound_execTrainMask hs
  | trainReady => exact outSound_execTrainReady hs
  | laneParityError => exact outSound_execLaneParityError hs
  | ackTimerExpiry => exact outSound_execAckTimerExpiry hs
  | ackDue => exact outSound_execAckDue hs
  | flowRefresh => exact outSound_execFlowRefresh hs
  | creditTimeout => exact outSound_execCreditTimeout hs
  | probeWindowEnd => exact outSound_execProbeWindowEnd hs
  | trainingAttemptTimeout => exact outSound_execTrainingAttemptTimeout hs
  | upWaitReadyInterval => exact outSound_execUpWaitReadyInterval hs
  | quietEnd => exact outSound_execQuietEnd hs
  | linkBreak => exact outSound_atEndNow sound_breakEnd hs
  | netPortUp => exact outSound_ifLanding sound_netPortUp hs
  | netPortDown => exact outSound_ifLanding sound_netPortDown hs
  | netFrameRx => exact outSound_ifLanding sound_netFrameRx hs
  | pauseFrame => exact outSound_execPauseFrame hs
  | pauseQuantaExpiry => exact outSound_execPauseQuantaExpiry hs
  | bayRelease => exact outSound_ifLanding sound_bayRelease hs
  | egressTimeout => exact outSound_ifLanding sound_egressTimeout hs
  | xctlGo => exact outSound_ifReach sound_xctlWrite hs
  | nvmeCompletion => exact outSound_ifLanding sound_nvmeDone hs
  | storeTransferComplete => exact outSound_ifLanding sound_xferComplete hs
  | xferTimeout => exact outSound_ifLanding sound_xferTimeout hs
  | pePerstNRelease => exact outSound_ifLanding sound_releasePerst hs
  | storeLinkUp => exact outSound_ifStorePort sound_storeLinkUp hs
  | storePortUp => exact outSound_ifStorePort sound_storePortUp hs
  | deviceReadyTimeout => exact outSound_ifStorePort sound_deviceLate hs
  | storeLinkDown => exact outSound_execStoreLinkDown hs
  | inboundRequest => exact outSound_execInboundRequest hs
  | intDrop | aerError => exact outSound_ifStorePort sound_countStore hs
  | logbookWrite => exact outSound_ifStandby sound_logbookWrite hs
  | readSeq => exact outSound_ifStandby sound_readSeq hs
  | ackSeq => exact outSound_ifStandby sound_ackSeq hs
  | serviceMark => exact outSound_ifStandby sound_serviceMark hs
  | serviceReason => exact outSound_ifStandby sound_serviceReason hs
  | vstbyRemoved => exact outSound_execVstbyRemoved hs
  | resetNRise => exact outSound_execResetNRise hs
  | rtcSecondTick => exact outSound_ifStandby sound_secondTick hs
  | updateDr => exact sound_updateDr hs
  | laneJudgedGood => exact outSound_execLaneJudgedGood hs
  | unknownItemType => exact outSound_execUnknownItemType hs
  | noOperation => exact sound_issueRow hs

theorem outSound_step (hs : StoresSound s) : OutSound (step s) := by
  unfold step
  split
  · exact sound_tick hs
  · exact outSound_exec _ hs

/-- Settles O4: the command at the front of the queue keeps the stores sound, and a WCLK cycle does not touch them. -/
theorem stepKeepsStoresSound : Obligations.StepKeepsStoresSound := by
  intro s s' hs h
  have ho := outSound_step hs
  rw [h] at ho
  exact ho

/-! ## The RTC and the supply of the standby domain -/

/-- The keys that `keep` keeps read as before. -/
theorem lookup_keep_of_kept {α : Type} {p : Nat → Bool} (d : α) (m : List (Nat × α)) {a : Nat} (ha : p a = true) :
    lookup d (keep p m) a = lookup d m a := by
  induction m with
  | nil => rfl
  | cons e r ih =>
    obtain ⟨k, v⟩ := e
    simp only [keep] at ih
    by_cases hp : p k = true
    · simp [keep, hp, lookup, ih]
    · have hk : k ≠ a := fun h => hp (h ▸ ha)
      simp [keep, hp, lookup, hk, ih]

/-- The keys that `keep` takes out read their default. -/
theorem lookup_keep_of_not_kept {α : Type} {p : Nat → Bool} (d : α) (m : List (Nat × α)) {a : Nat} (ha : p a = false) :
    lookup d (keep p m) a = d := by
  induction m with
  | nil => rfl
  | cons e r ih =>
    obtain ⟨k, v⟩ := e
    by_cases hp : p k = true
    · have hk : k ≠ a := fun h => by simp [← h, hp] at ha
      simpa [keep, hp, lookup, hk] using ih
    · simpa [keep, hp] using ih

theorem get_lt (s : State) (p : Nat) (F : Fld) : s.get p F < 2 ^ F.width := Nat.mod_lt _ (Nat.two_pow_pos _)

/-! ### A second tick -/

/-- The condition under which a second tick fires the alarm. -/
abbrev alarmFires (s : State) : Prop :=
  s.on pgMpwr MPWR.RTC_ALARM_HI_ALARM_EN = true ∧
    s.get2 pgMpwr MPWR.RTC_ALARM_LO_ALARM MPWR.RTC_ALARM_HI_ALARM ≤ (s.power.rtc + 1).toNat

theorem secondTick_of_fires (h : alarmFires s) : secondTick s =
    (s.modP fun p => { p with rtc := p.rtc + 1, alarmDue := true }).set pgMpwr MPWR.RTC_ALARM_HI_ALARM_EN 0 :=
  if_pos (Bool.and_eq_true_iff.2 (h.imp_right decide_eq_true))

theorem secondTick_of_not_fires (h : ¬alarmFires s) : secondTick s = s.modP fun p => { p with rtc := p.rtc + 1 } :=
  if_neg fun hc => h ((Bool.and_eq_true_iff.1 hc).imp_right of_decide_eq_true)

theorem on_set_zero (s : State) (p : Nat) (F : Fld) (h : F.lo + F.width ≤ 32) : (s.set p F 0).on p F = false := by
  simp [State.on, get_set_same s p F 0 h]

/-! ### A write of the RTC -/

theorem modP_live (g : PowerSt → PowerSt) (s : State) : (s.modP g).live = s.live := rfl

theorem rtc_modP (v : PowerSt → BitVec 48) (s : State) : (s.modP fun p => { p with rtc := v p }).power.rtc = v s.power := rfl

theorem rtc_rtcLoad (hi : Word) (s : State) : (rtcLoad hi s).power.rtc =
    BitVec.ofNat 48 (hi.toNat % 2 ^ 16 * 2 ^ 32 + s.power.rtcLoWritten.toNat) :=
  rtc_modP (fun p => BitVec.ofNat 48 (hi.toNat % 2 ^ 16 * 2 ^ 32 + p.rtcLoWritten.toNat)) s

/-! ### VSTBY removed -/

theorem cutWrite_frame (n : Nat) (s : State) : (cutWrite n s).live = s.live ∧ (cutWrite n s).map = s.map := by
  unfold cutWrite
  split <;> exact ⟨rfl, rfl⟩

theorem cutWrite_of_empty (n : Nat) (h : s.log.queue = []) : cutWrite n s = s := by
  simp [cutWrite, h]

theorem mapA_addSlotB (y : MapSlot) (s : State) : mapA (addSlotB y s) = mapA s := by
  unfold addSlotB
  split <;> rfl

theorem addSlotB_frame (y : MapSlot) (s : State) : (addSlotB y s).live = s.live ∧ (addSlotB y s).log = s.log := by
  unfold addSlotB
  split <;> exact ⟨rfl, rfl⟩

theorem mapA_stopFlash (s : State) : mapA (stopFlash s) = mapA s := by
  unfold stopFlash
  split
  · exact mapA_addSlotB .torn s
  · rfl

theorem stopFlash_frame (s : State) : (stopFlash s).live = s.live ∧ (stopFlash s).log = s.log := by
  unfold stopFlash
  split
  · exact addSlotB_frame .torn s
  · exact ⟨rfl, rfl⟩

/-- The state that the loss of VSTBY leaves, but for MAP_LOST, which is not among the words it keeps. -/
def withoutVstby (written : Nat) (s : State) : State :=
  let t := stopFlash (cutWrite written s)
  { t with
    live := keep keptWord t.live, shadow := [], power := { PowerSt.reset with standby := false }, port := .reset
    tap := .reset, log := { t.log with queue := [], newest := none, newestSeq := 0 }
    map := { t.map with flashStopped := false }, m := MainSt.reset }

theorem execVstbyRemoved_on (n : Nat) (h : s.power.standby = true) : execVstbyRemoved n s =
    .next ((withoutVstby n s).set pgDmap DMAP.MAP_STATUS_MAP_LOST (s.get pgDmap DMAP.MAP_STATUS_MAP_LOST)) :=
  ifStandby_on h

theorem withoutVstby_live (n : Nat) (s : State) : (withoutVstby n s).live = keep keptWord s.live :=
  congrArg (keep keptWord) ((stopFlash_frame _).1.trans (cutWrite_frame n s).1)

theorem word_withoutVstby_of_kept (n : Nat) {a : Nat} (ha : keptWord a = true) : (withoutVstby n s).word a = s.word a := by
  simp only [State.word, withoutVstby_live]
  exact lookup_keep_of_kept _ _ ha

theorem word_withoutVstby_of_not_kept (n : Nat) {a : Nat} (ha : keptWord a = false) :
    (withoutVstby n s).word a = resetWord a := by
  simp only [State.word, withoutVstby_live]
  exact lookup_keep_of_not_kept _ _ ha

theorem mapA_withoutVstby (n : Nat) (s : State) : mapA (withoutVstby n s) = mapA s := by
  have hcut : mapA (cutWrite n s) = mapA s := by simp only [mapA, (cutWrite_frame n s).2]
  exact (mapA_stopFlash _).trans hcut

theorem logSlot_withoutVstby (n : Nat) (h : s.log.queue = []) (q : Nat) : logSlot (withoutVstby n s) q = logSlot s q := by
  have hlog : (stopFlash (cutWrite n s)).log = s.log := by rw [(stopFlash_frame _).2, cutWrite_of_empty n h]
  simp only [logSlot, withoutVstby, hlog]

theorem keptWord_mapStatus : keptWord (pgDmap + DMAP.MAP_STATUS_MAP_LOST.off) = false := by decide

/-! ### VSTBY applied -/

theorem pwrState_set_dmap (s : State) (F : Fld) (v : Nat) : pwrState (s.set pgDmap F v) = pwrState s :=
  get_set_other s v (by simp [pgDmap, pgMpwr, pageAddr, MPWR.PWR_STATE_STATE]; omega)

theorem pwrState_mapRegs (s : State) : pwrState (mapRegs s) = pwrState s := by
  simp only [mapRegs, showRecord, pwrState_set_dmap]

/-- GRADE shows the grade of copy A where it has one. -/
def showGrade (s : State) : State :=
  match mapA s with
  | some a => s.set pgDmap DMAP.GRADE_GRADE a.grade.toNat
  | none => s

theorem showGrade_frame (s : State) : (showGrade s).power = s.power ∧ (showGrade s).map = s.map := by
  unfold showGrade
  split <;> exact ⟨rfl, rfl⟩

theorem pwrState_showGrade (s : State) : pwrState (showGrade s) = pwrState s := by
  unfold showGrade
  split
  · exact pwrState_set_dmap s _ _
  · rfl

/-- The state that VSTBY finds when it is applied. -/
def withVstby (s : State) : State :=
  let t := showGrade (mapRegs { s with power := PowerSt.reset })
  (t.set pgDmap DMAP.MAP_COUNT_TORN (min (((mapA t).map MapArea.torn).getD 0) 65535)).set pgDmap DMAP.MAP_STATUS_B_BEHIND 0

theorem execVstbyApplied_off (h : s.power.standby = false) : execVstbyApplied s = .next (withVstby s) :=
  congrArg Host.Outcome.next (if_neg (by simp [h]))

theorem withVstby_power (s : State) : (withVstby s).power = PowerSt.reset := (showGrade_frame _).1

theorem mapA_withVstby (s : State) : mapA (withVstby s) = mapA s := by
  have hmap : (withVstby s).map = s.map := (showGrade_frame _).2
  simp only [mapA, hmap]

theorem pwrState_withVstby (s : State) : pwrState (withVstby s) = pwrState s := by
  unfold withVstby
  rw [pwrState_set_dmap, pwrState_set_dmap, pwrState_showGrade, pwrState_mapRegs]
  rfl

theorem moored_withVstby (h : pwrState s = 0) : moored (withVstby s) = true := by
  simp [moored, withVstby_power, pwrState_withVstby, h, PowerSt.reset]

/-! ### The clauses of O49 -/

theorem secondTick_counts_and_fires (s : State) : (secondTick s).power.rtc = s.power.rtc + 1 ∧
    if alarmFires s
    then (secondTick s).power.alarmDue = true ∧ (secondTick s).on pgMpwr MPWR.RTC_ALARM_HI_ALARM_EN = false ∧
      ∀ a, a ≠ pgMpwr + MPWR.RTC_ALARM_HI_ALARM_EN.off → (secondTick s).word a = s.word a
    else (secondTick s).power.alarmDue = s.power.alarmDue ∧ (secondTick s).live = s.live := by
  split
  · next h =>
    rw [secondTick_of_fires h]
    exact ⟨rfl, rfl, on_set_zero _ _ _ (by decide), fun a ha => word_set_other _ _ ha⟩
  · next h =>
    rw [secondTick_of_not_fires h]
    exact ⟨rfl, rfl, rfl⟩

theorem vstbyRemoved_keeps (n : Nat) (h : s.power.standby = true) : ∃ s', exec (.vstbyRemoved n) s = .next s' ∧
    s'.power.standby = false ∧ s'.m = MainSt.reset ∧
    s'.get pgDmap DMAP.MAP_STATUS_MAP_LOST = s.get pgDmap DMAP.MAP_STATUS_MAP_LOST ∧ mapA s' = mapA s ∧
    (s.log.queue = [] → ∀ q, logSlot s' q = logSlot s q) ∧
    (∀ a, keptWord a = true → s'.word a = s.word a) ∧
    (∀ a, keptWord a = false → a ≠ pgDmap + DMAP.MAP_STATUS_MAP_LOST.off → s'.word a = resetWord a) := by
  refine ⟨_, execVstbyRemoved_on n h, rfl, rfl, ?_, mapA_withoutVstby n s, logSlot_withoutVstby n, fun a ha => ?_,
    fun a ha hne => ?_⟩
  · rw [get_set_same _ _ _ _ (by decide)]
    exact Nat.mod_eq_of_lt (get_lt s _ _)
  · have hne : a ≠ pgDmap + DMAP.MAP_STATUS_MAP_LOST.off := by
      rintro rfl
      simp [keptWord_mapStatus] at ha
    exact (word_set_other _ _ hne).trans (word_withoutVstby_of_kept n ha)
  · exact (word_set_other _ _ hne).trans (word_withoutVstby_of_not_kept n ha)

theorem vstbyApplied_moors (h : s.power.standby = false) : ∃ s', exec .vstbyApplied s = .next s' ∧
    s'.power = PowerSt.reset ∧ s'.power.standby = true ∧ (pwrState s = 0 → moored s' = true) ∧ mapA s' = mapA s :=
  ⟨_, execVstbyApplied_off h, withVstby_power s, congrArg PowerSt.standby (withVstby_power s), moored_withVstby,
    mapA_withVstby s⟩

theorem exec_rtcSecondTick (h : s.power.standby = true) : exec .rtcSecondTick s = .next (secondTick s) := ifStandby_on h

theorem exec_rtcSecondsWrite (hi : Word) (h : s.power.standby = true) :
    exec (.rtcSecondsWrite hi) s = .next (rtcLoad hi s) := ifStandby_on h

theorem exec_rtcSecondsLoRead (h : s.power.standby = true) : exec .rtcSecondsLoRead s = .next (rtcLatch s) := ifStandby_on h

/-- Settles O49: the RTC's commands by their equations, VSTBY's two by what they keep. -/
theorem standbyDomainClockAndSupply : Obligations.StandbyDomainClockAndSupply := by
  intro s
  refine ⟨fun h => ⟨?_, fun hi => ?_, ?_, fun n => vstbyRemoved_keeps n h⟩, vstbyApplied_moors⟩
  · exact ⟨secondTick s, exec_rtcSecondTick h, secondTick_counts_and_fires s⟩
  · exact ⟨rtcLoad hi s, exec_rtcSecondsWrite hi h, rtc_rtcLoad hi s, modP_live _ s⟩
  · exact ⟨rtcLatch s, exec_rtcSecondsLoRead h, rfl, rfl, rfl⟩

end Sys2Proof.Machine
end

section
namespace Sys2Proof.Machine
open Sys2Proof

/-! PROOFS. The boundary (O54): a slack water releases the tiles in escalated stop after it has written the endings, and a rig listed
under a key of no tile takes the release to a BERTH page. -/

/-! ## A release beyond the roster -/

/-- The key of no tile: its field part is so large that the roster page of that field would be the page of berths 0 to 47, and the
entry of its tile part the low digit of berth 3's OUTCOME_NO. -/
def strayKey : Nat := tileKey (2 ^ 24 - 56) 72

theorem strayKey_entry_is_outcomeNo :
    pgRostf (strayKey / 512) + (ROSTF.TILE_STATE.at (strayKey % 512 / 8)).off = pgBerth 3 + (BERTH.OUTCOME_NO_NO.at 3).off := by
  decide

/-- Berth 3 in the crossing, with no tile, and so with no work left. -/
def emptyBerth : BerthRun :=
  { slot := { berth := 3, base := 0, count := 0, replay := false, capture := false, budget := 0, holder := 0, snapBase := 0
              snapPages := 0, holdBase := 0, replayNo := 0, sink := 0 }
    runs := true, damaged := false, faulted := false, overrun := false, stalled := false, tileLost := false, holderLost := false
    suspendAsked := false, endSuspended := false, recrossings := 0 }

/-- An awake wafer that drains crossing 8, its egress released, with berth 3 alone and a stray rig in escalated stop. -/
def strayDrain : State :=
  let s := State.reset.set pgMpwr MPWR.PWR_STATE_STATE 2
  let s := (s.set pgCseq CSEQ.CSEQ_STATUS_STATE 2).set pgCseq CSEQ.CUR_NO_LO_NO 8
  (s.setRig strayKey { Rig.reset with run := .escalated }).modX fun x => { x with berths := [emptyBerth], released := true }

/-- OUTCOME_NO of berth 3 in the state that a command answers. -/
def outcomeNo : Out → Nat
  | .next s => berthGet s 3 BERTH.OUTCOME_NO_NO
  | .fault _ | .refused _ => 0

/-- The hypotheses that O54 puts on a slack water hold. -/
theorem strayDrain_awake : awake strayDrain = true := by decide +kernel

theorem strayDrain_slackTest : slackTest strayDrain = true := by decide +kernel

theorem strayDrain_fields (f : FieldId) : strayDrain.on (pgFtopo f.val) FTOPO.ROUTE_STATUS_PENDING = false ∧
    (fieldState strayDrain f.val = 2 → underTest strayDrain f.val = true) := by
  revert f
  decide +kernel

theorem strayDrain_emptyBerth : suspendDue strayDrain emptyBerth = false ∧ berthClean strayDrain emptyBerth = true := by
  decide +kernel

theorem curNo_strayDrain : curNo strayDrain = 8 := by decide +kernel

/-- The slack water writes 8 to OUTCOME_NO, and the release of the stray rig then takes the 8 for a STOPPED tile's entry and
makes it READY_DEGRADED, 3. -/
theorem outcomeNo_slackWater_strayDrain : outcomeNo (exec .slackWater strayDrain) = 3 := by decide +kernel

/-- Refutes O54: in `strayDrain` berth 3 is clean, and its OUTCOME_NO reads 3 after the slack water, not the crossing's 8. The
statement bounds no key under which a state lists its rigs, and `releaseStops` releases every rig that is listed. -/
theorem not_boundaryCommands : ¬ Obligations.BoundaryCommands := by
  intro h
  obtain ⟨-, -, hslack, -⟩ := h strayDrain strayDrain_awake
  obtain ⟨-, hberth⟩ := hslack strayDrain_slackTest rfl rfl strayDrain_fields rfl rfl rfl
  obtain ⟨hdue, hclean⟩ := strayDrain_emptyBerth
  obtain ⟨s', hexec, hcompleted, -⟩ := hberth emptyBerth rfl rfl (by decide) hdue
  have hno : berthGet s' 3 BERTH.OUTCOME_NO_NO = curNo strayDrain % 2 ^ 32 := (hcompleted hclean).2
  have hout : outcomeNo (exec .slackWater strayDrain) = berthGet s' 3 BERTH.OUTCOME_NO_NO := by rw [hexec]; rfl
  rw [outcomeNo_slackWater_strayDrain, hno, curNo_strayDrain] at hout
  exact absurd hout (by decide)

end Sys2Proof.Machine
end

section
namespace Sys2Proof.Machine
open Sys2Proof

/-! PROOFS. Tests and escalations at the roster (O50). First the digits of a number and the places of the register pages; then, one
lemma for each function, which words it leaves (`leaves_f`), and what of the channel entries it keeps (`fencing_f`); then the defect
map; then the clauses. -/

/-! ## Digits of a number -/

/-- The number with its n bits from bit `lo` up replaced by those of `v`. -/
def putBits (w lo n v : Nat) : Nat := w - bits w lo n * 2 ^ lo + v * 2 ^ lo

theorem bitAt_eq_testBit (n i : Nat) : bitAt n i = n.testBit i := by
  rw [bitAt, Nat.testBit_eq_decide_div_mod_eq]
  rfl

theorem testBit_bits (n lo w i : Nat) : (bits n lo w).testBit i = (decide (i < w) && n.testBit (lo + i)) := by
  rw [bits, Nat.testBit_mod_two_pow, Nat.testBit_div_two_pow, Nat.add_comm]

theorem putBits_eq (w lo n v : Nat) : putBits w lo n v = 2 ^ lo * (2 ^ n * (w / 2 ^ lo / 2 ^ n) + v) + w % 2 ^ lo := by
  have hw := Nat.div_add_mod w (2 ^ lo)
  have hd := Nat.div_add_mod (w / 2 ^ lo) (2 ^ n)
  simp only [putBits, bits]
  generalize w / 2 ^ lo / 2 ^ n = q at *
  generalize w / 2 ^ lo % 2 ^ n = d at *
  generalize w % 2 ^ lo = r at *
  have : w = 2 ^ lo * (2 ^ n * q) + d * 2 ^ lo + r := by rw [← hw, ← hd, Nat.mul_add, Nat.mul_comm d]
  rw [Nat.mul_add, this, Nat.mul_comm v]
  omega

/-- The bits of a number after some of them have been replaced. -/
theorem testBit_putBits {w lo n v : Nat} (hv : v < 2 ^ n) (i : Nat) :
    (putBits w lo n v).testBit i = if lo ≤ i ∧ i < lo + n then v.testBit (i - lo) else w.testBit i := by
  rw [putBits_eq, Nat.testBit_two_pow_mul_add _ (Nat.mod_lt _ (Nat.two_pow_pos _)), Nat.testBit_two_pow_mul_add _ hv,
    Nat.testBit_mod_two_pow, Nat.testBit_div_two_pow, Nat.testBit_div_two_pow]
  by_cases h1 : i < lo
  · simp [h1, show ¬lo ≤ i by omega]
  · by_cases h2 : i - lo < n
    · simp [h1, h2, show lo ≤ i ∧ i < lo + n by omega]
    · simp [h1, h2, show ¬(lo ≤ i ∧ i < lo + n) by omega, show i - lo - n + n + lo = i by omega]

theorem bits_putBits_same {w lo n v : Nat} (hv : v < 2 ^ n) : bits (putBits w lo n v) lo n = v := by
  apply Nat.eq_of_testBit_eq
  intro i
  rw [testBit_bits, testBit_putBits hv]
  by_cases h : i < n
  · simp [h]
  · simp [h, Nat.testBit_lt_two_pow (lt_of_lt_of_le hv (Nat.pow_le_pow_right (by omega) (Nat.not_lt.1 h)))]

theorem bits_putBits_other {w lo n v lo' n' : Nat} (hv : v < 2 ^ n) (h : lo' + n' ≤ lo ∨ lo + n ≤ lo') :
    bits (putBits w lo n v) lo' n' = bits w lo' n' := by
  apply Nat.eq_of_testBit_eq
  intro i
  rw [testBit_bits, testBit_bits, testBit_putBits hv]
  by_cases hi : i < n'
  · simp [hi, show ¬(lo ≤ lo' + i ∧ lo' + i < lo + n) by omega]
  · simp [hi]

/-- A number cut to a register keeps the bits within it. -/
theorem bits_mod_two_pow {x lo n w : Nat} (h : lo + n ≤ w) : bits (x % 2 ^ w) lo n = bits x lo n := by
  apply Nat.eq_of_testBit_eq
  intro i
  rw [testBit_bits, testBit_bits, Nat.testBit_mod_two_pow]
  by_cases hi : i < n
  · simp [hi, show lo + i < w by omega]
  · simp [hi]

theorem bitAt_mod_two_pow {x i w : Nat} (h : i < w) : bitAt (x % 2 ^ w) i = bitAt x i := by
  simp [bitAt_eq_testBit, Nat.testBit_mod_two_pow, h]

theorem putBit_eq_putBits (n i : Nat) (b : Bool) : putBit n i b = putBits n i 1 (bit b) := rfl

theorem bit_lt_two (b : Bool) : bit b < 2 ^ 1 := by cases b <;> decide

theorem bitAt_putBit_same (n i : Nat) (b : Bool) : bitAt (putBit n i b) i = b := by
  rw [bitAt_eq_testBit, putBit_eq_putBits, testBit_putBits (bit_lt_two b)]
  cases b <;> simp [bit]

theorem bitAt_putBit_other (n : Nat) {i j : Nat} (b : Bool) (h : j ≠ i) : bitAt (putBit n i b) j = bitAt n j := by
  rw [bitAt_eq_testBit, putBit_eq_putBits, testBit_putBits (bit_lt_two b), bitAt_eq_testBit,
    if_neg (by omega)]

/-- A bit that is set stays set when a bit is set. -/
theorem bitAt_putBit_true {n j : Nat} (i : Nat) (h : bitAt n j = true) : bitAt (putBit n i true) j = true := by
  by_cases hj : j = i
  · rw [hj, bitAt_putBit_same]
  · rw [bitAt_putBit_other n true hj, h]

/-! ### Bits of a register -/

theorem bitAt_get_setBit_same (s : State) (p i : Nat) (F : Fld) (b : Bool) (hF : F.lo + F.width ≤ 32) (hi : i < F.width) :
    bitAt ((s.setBit p F i b).get p F) i = b := by
  rw [State.setBit, get_set_same _ _ _ _ hF, bitAt_mod_two_pow hi, bitAt_putBit_same]

/-- Setting a bit of a field keeps the bits that it has. -/
theorem bitAt_get_setBit_true {s : State} {p j : Nat} {F : Fld} (i : Nat) (hF : F.lo + F.width ≤ 32) (hj : j < F.width)
    (h : bitAt (s.get p F) j = true) : bitAt ((s.setBit p F i true).get p F) j = true := by
  rw [State.setBit, get_set_same _ _ _ _ hF, bitAt_mod_two_pow hj]
  exact bitAt_putBit_true i h

/-! ### Tile entries of the roster -/

/-- The address of the word that holds a tile's entry. -/
abbrev tileWord (f t : Nat) : Nat := pgRostf f + (ROSTF.TILE_STATE.at (t / 8)).off

theorem setTileState_eq (f t v : Nat) (s : State) : setTileState f t v s = s.set (pgRostf f) (ROSTF.TILE_STATE.at (t / 8))
    (putBits (s.get (pgRostf f) (ROSTF.TILE_STATE.at (t / 8))) (4 * (t % 8)) 4 v) := rfl

theorem tileWord_eq (f t : Nat) : tileWord f t = (64 + f) * 4096 + 256 + 4 * (t / 8) := by
  simp [tileWord, pgRostf, pageAddr, Fld.at, ROSTF.TILE_STATE]
  omega

theorem tileState_setTileState_same (s : State) (f t : Nat) {v : Nat} (hv : v < 16) :
    tileState (setTileState f t v s) f t = v := by
  rw [tileState, setTileState_eq, get_set_same _ _ _ _ le_rfl]
  exact (bits_mod_two_pow (w := 32) (by omega)).trans (bits_putBits_same hv)

theorem tileState_setTileState_other (s : State) {f t f' t' v : Nat} (hv : v < 16) (ht : t < 468) (ht' : t' < 468)
    (h : f' ≠ f ∨ t' ≠ t) : tileState (setTileState f t v s) f' t' = tileState s f' t' := by
  rw [tileState, tileState, setTileState_eq]
  by_cases hw : tileWord f' t' = tileWord f t
  · have hft := hw
    rw [tileWord_eq, tileWord_eq] at hft
    obtain ⟨rfl, h8⟩ : f' = f ∧ t' / 8 = t / 8 := by omega
    rw [h8, get_set_same _ _ _ _ le_rfl]
    exact (bits_mod_two_pow (w := 32) (by omega)).trans (bits_putBits_other hv (by omega))
  · rw [get_set_other _ _ hw]

end Sys2Proof.Machine
end

section
namespace Sys2Proof.Machine
open Sys2Proof

/-! ## What a function leaves -/

/-- The words at some addresses stay, and of the main domain what only rows of their own change. -/
structure Leaves (B : Nat → Prop) (s t : State) : Prop where
  word : ∀ a, B a → t.word a = s.word a
  wtime : t.m.wtime = s.m.wtime
  tested : t.m.landingTested = s.m.landingTested
  retire : ∀ r ∈ s.m.retire, r ∈ t.m.retire

/-! Addresses outside the pages that some functions write. -/

/-- No page of the standby domain. -/
def MainPlace (a : Nat) : Prop := 0x10000 ≤ a
/-- No page of a field or of a channel end. -/
def NoEndPlace (a : Nat) : Prop := a < 0x4000000000 ∨ 0x5000000000 ≤ a ∧ a < 0xE000000000
/-- No page of a tile. -/
def NoTilePlace (a : Nat) : Prop := a < 0x8000000000
/-- The roster's pages, CSEQ and HOIST. -/
def LowPlace (a : Nat) : Prop := 0x10000 ≤ a ∧ a < 0x1000008000
/-- No channel entry of the roster. -/
def NoChanPlace (a : Nat) : Prop := a < 0x10000 ∨ a % 4096 < 0x50 ∨ 0x60 < a % 4096

theorem lowPlace_le_mainPlace : LowPlace ≤ MainPlace := fun _ h => h.1

theorem lowPlace_le_noTilePlace : LowPlace ≤ NoTilePlace := fun _ h => by
  unfold LowPlace NoTilePlace at *
  omega

theorem lowPlace_le_noEndPlace : LowPlace ≤ NoEndPlace := fun _ h => by
  unfold LowPlace NoEndPlace at *
  omega

variable {B : Nat → Prop} {s0 s t : State}

theorem Leaves.refl (s : State) : Leaves B s s := ⟨fun _ _ => rfl, rfl, rfl, fun _ h => h⟩

theorem Leaves.trans {u : State} (h : Leaves B s t) (g : Leaves B t u) : Leaves B s u :=
  ⟨fun a ha => (g.word a ha).trans (h.word a ha), g.wtime.trans h.wtime, g.tested.trans h.tested,
    fun r hr => g.retire r (h.retire r hr)⟩

theorem Leaves.get (h : Leaves B s t) (p : Nat) (F : Fld) (hp : B (p + F.off)) : t.get p F = s.get p F := by
  rw [State.get, State.get, h.word _ hp]

/-- A step that touches neither the register words nor those parts of the main domain. -/
theorem leaves_frame (h : Leaves B s0 s) (hl : t.live = s.live)
    (hm : (t.m.wtime, t.m.landingTested, t.m.retire) = (s.m.wtime, s.m.landingTested, s.m.retire)) : Leaves B s0 t := by
  simp only [Prod.mk.injEq] at hm
  obtain ⟨hw, ht, hr⟩ := hm
  exact h.trans ⟨fun a _ => by simp only [State.word, hl], hw, ht, fun r hr' => hr ▸ hr'⟩

theorem leaves_log (l : LogSt) (h : Leaves B s0 s) : Leaves B s0 { s with log := l } := leaves_frame h rfl rfl

theorem leaves_setWord {a : Nat} (v : Word) (hB : ∀ b, B b → b ≠ a) (h : Leaves B s0 s) : Leaves B s0 (s.setWord a v) :=
  h.trans ⟨fun b hb => word_setWord_other s v (hB b hb), rfl, rfl, fun _ hr => hr⟩

theorem leaves_set {p : Nat} {F : Fld} (v : Nat) (hB : ∀ a, B a → a ≠ p + F.off) (h : Leaves B s0 s) :
    Leaves B s0 (s.set p F v) := leaves_setWord _ hB h

theorem leaves_ite {c : Prop} [Decidable c] {u : State} (ht : c → Leaves B s t) (hu : ¬c → Leaves B s u) :
    Leaves B s (if c then t else u) := by
  split
  · next h => exact ht h
  · next h => exact hu h

theorem leaves_foldl {α : Type} {g : State → α → State} {l : List α}
    (hg : ∀ t, ∀ b ∈ l, Leaves B s0 t → Leaves B s0 (g t b)) (h : Leaves B s0 s) : Leaves B s0 (l.foldl g s) := by
  induction l generalizing s with
  | nil => exact h
  | cons b l ih =>
    exact ih (fun t c hc => hg t c (List.mem_cons_of_mem _ hc)) (hg s b List.mem_cons_self h)

/-! ### The standby domain: alerts, events and the defect map -/

section Standby
variable (hB : B ≤ MainPlace)
include hB

theorem ne_of_mainPlace {b : Nat} (hb : b < 0x10000) (a : Nat) (ha : B a) : a ≠ b := by
  rintro rfl
  exact absurd (hB _ ha) (Nat.not_le.2 hb)

theorem leaves_set_standby {p : Nat} {F : Fld} (v : Nat) (hp : p + F.off < 0x10000) (h : Leaves B s0 s) :
    Leaves B s0 (s.set p F v) := leaves_set _ (ne_of_mainPlace hB hp) h

theorem leaves_alert (c : Nat) (h : Leaves B s0 s) : Leaves B s0 (alert c s) := leaves_set_standby hB _ (by decide) h

theorem leaves_pageAlert (p : Nat) (h : Leaves B s0 s) : Leaves B s0 (pageAlert p s) :=
  leaves_alert hB _ (leaves_ite (fun _ => h) fun _ => leaves_set_standby hB _ (by decide)
    (leaves_set_standby hB _ (by decide) (leaves_set_standby hB _ (by decide) h)))

theorem leaves_pageEvent (p : Nat) (h : Leaves B s0 s) : Leaves B s0 (pageEvent p s) :=
  leaves_ite (fun _ => leaves_pageAlert hB p h) fun _ => h

theorem leaves_logAlert (n : Nat) (h : Leaves B s0 s) : Leaves B s0 (logAlert n s) := by
  have hset : ∀ v, Leaves B s0 ((alert acLogbook s).setWord (pgLogb + 0x00C) v) := fun v =>
    leaves_setWord v (ne_of_mainPlace hB (by decide)) (leaves_alert hB _ h)
  exact leaves_ite (fun _ => leaves_pageEvent hB _ (hset _)) fun _ => hset _

theorem leaves_levelAlert (h : Leaves B s0 s) : Leaves B s0 (if unsaved s = alertLevel s then logAlert 16 s else s) :=
  leaves_ite (fun _ => leaves_logAlert hB _ h) fun _ => h

theorem leaves_numberEvent (e : Event) (h : Leaves B s0 s) : Leaves B s0 (numberEvent e s) := by
  have h1 := leaves_levelAlert hB
    (leaves_set_standby (p := pgLogb) (F := LOGB.NEXT_SEQ_SEQ) hB (s.get pgLogb LOGB.NEXT_SEQ_SEQ + 1) (by decide) h)
  exact leaves_ite (fun _ => leaves_log _ h1) fun _ => leaves_ite (fun _ => leaves_set_standby hB _ (by decide) h1)
    fun _ => leaves_logAlert hB _ (leaves_set_standby hB _ (by decide) h1)

theorem leaves_flushRepeat (h : Leaves B s0 s) : Leaves B s0 (flushRepeat s) :=
  leaves_ite (fun _ => h) fun _ => leaves_numberEvent hB _ (leaves_set_standby hB _ (by decide) h)

theorem leaves_raiseEvent (e : Event) (h : Leaves B s0 s) : Leaves B s0 (raiseEvent e s) := by
  unfold raiseEvent
  extract_lets s1
  have h1 : Leaves B s0 s1 := by
    unfold s1
    split
    · exact leaves_alert hB _ h
    · exact h
  exact leaves_ite (fun _ => leaves_set_standby hB _ (by decide) h1) fun _ =>
    leaves_numberEvent hB _ (leaves_flushRepeat hB h1)

theorem leaves_mapRegs (h : Leaves B s0 s) : Leaves B s0 (mapRegs s) := by
  unfold mapRegs showRecord
  iterate 7 refine leaves_set_standby hB _ (by decide) ?_
  exact h

end Standby

/-- A step on copy B of the defect map alone. -/
structure FlashStep (s t : State) : Prop where
  live : t.live = s.live
  main : t.m = s.m
  areas : (t.map.a0, t.map.a1, t.map.waferId) = (s.map.a0, s.map.a1, s.map.waferId)

/-- A step on copy B that begins with a change of copy B. -/
theorem FlashStep.after {u : State} (g : FlashStep t u) (hl : t.live = s.live) (hm : t.m = s.m)
    (ha : (t.map.a0, t.map.a1, t.map.waferId) = (s.map.a0, s.map.a1, s.map.waferId)) : FlashStep s u :=
  ⟨g.live.trans hl, g.main.trans hm, g.areas.trans ha⟩

theorem flashStep_setB (i : Nat) (x : MapArea) (s : State) : FlashStep s (setB i x s) := by
  unfold setB
  split <;> exact ⟨rfl, rfl, rfl⟩

theorem flashStep_startWhole (w : WholeCopy) (s : State) : FlashStep s (startWhole w s) := by
  obtain ⟨hl, hm, ha⟩ := flashStep_setB w.area .erased s
  exact ⟨hl, hm, ha⟩

theorem flashStep_pumpFlash (s : State) : FlashStep s (pumpFlash s) := by
  unfold pumpFlash
  split
  · exact ⟨rfl, rfl, rfl⟩
  · split
    · exact (flashStep_startWhole _ _).after rfl rfl rfl
    · dsimp only
      split
      · exact ⟨rfl, rfl, rfl⟩
      · split
        · exact flashStep_startWhole _ _
        · exact ⟨rfl, rfl, rfl⟩
    · exact ⟨rfl, rfl, rfl⟩

/-- Copy B follows an entry of copy A where a wake has reconciled the copies. -/
def followA (r : MapRec) (s : State) : State :=
  if s.map.following then pumpFlash { s with map := { s.map with bQueue := s.map.bQueue ++ [r] } } else s

theorem flashStep_followA (r : MapRec) (s : State) : FlashStep s (followA r s) := by
  unfold followA
  split
  · exact (flashStep_pumpFlash _).after rfl rfl rfl
  · exact ⟨rfl, rfl, rfl⟩

/-- A record behind the others of the current area of copy A. -/
def slotA (r : MapRec) (s : State) : State :=
  match ixA s with
  | some 0 => { s with map := { s.map with a0 := { s.map.a0 with slots := s.map.a0.slots ++ [recSlot r] } } }
  | some _ => { s with map := { s.map with a1 := { s.map.a1 with slots := s.map.a1.slots ++ [recSlot r] } } }
  | none => s

theorem appendA_eq (r : MapRec) (s : State) : appendA r s = mapRegs (followA r (slotA r s)) := rfl

theorem slotA_frame (r : MapRec) (s : State) : (slotA r s).live = s.live ∧ (slotA r s).m = s.m := by
  unfold slotA
  split <;> exact ⟨rfl, rfl⟩

theorem writeA_frame (g : Nat) (w : Word) (rs : List MapRec) (s : State) :
    (writeA g w rs s).live = s.live ∧ (writeA g w rs s).m = s.m := by
  unfold writeA
  dsimp only
  split <;> exact ⟨rfl, rfl⟩

theorem leaves_of_frame (h : Leaves B s0 s) (ht : t.live = s.live ∧ t.m = s.m) : Leaves B s0 t :=
  leaves_frame h ht.1 (by rw [ht.2])

section Standby
variable (hB : B ≤ MainPlace)
include hB

theorem leaves_appendA (r : MapRec) (h : Leaves B s0 s) : Leaves B s0 (appendA r s) := by
  have hf := flashStep_followA r (slotA r s)
  exact leaves_mapRegs hB (leaves_of_frame (leaves_of_frame h (slotA_frame r s)) ⟨hf.live, hf.main⟩)

omit hB in
theorem leaves_holdUnrecorded (r : MapRec) (h : Leaves B s0 s) : Leaves B s0 (holdUnrecorded r s) :=
  leaves_ite (fun _ => h) fun _ => leaves_frame h rfl rfl

theorem leaves_commitRec (e : MapEntry) (n : Nat) (h : Leaves B s0 s) : Leaves B s0 (commitRec e n s).1 := by
  unfold commitRec
  split
  · exact h
  · extract_lets s1
    have h1 : Leaves B s0 s1 := leaves_ite (fun _ => h) fun _ => leaves_of_frame h (writeA_frame _ _ _ s)
    split
    · exact h1
    · dsimp only
      split
      · exact leaves_appendA hB _ h1
      · exact leaves_holdUnrecorded _ (leaves_raiseEvent hB _ (leaves_set_standby hB _ (by decide) h1))

theorem leaves_raiseAll (es : List Event) (h : Leaves B s0 s) : Leaves B s0 (raiseAll es s) :=
  leaves_foldl (fun _ _ _ ht => leaves_raiseEvent hB _ ht) h

theorem leaves_addEntry (e : MapEntry) (n : Nat) (h : Leaves B s0 s) : Leaves B s0 (addEntry e n s).1 := by
  unfold addEntry
  split
  · exact h
  · exact leaves_commitRec hB e n h

theorem leaves_raiseEntry (ev : Event) (e : MapEntry) (h : Leaves B s0 s) : Leaves B s0 (raiseEntry ev e s).1 := by
  have ha := leaves_addEntry hB e (seqFor s ev) h
  unfold raiseEntry
  dsimp only
  split
  · exact leaves_raiseAll hB _ ha
  · exact leaves_raiseEvent hB _ ha
  · exact leaves_raiseEvent hB _ ha

theorem leaves_fieldRecord (f : Nat) (h : Leaves B s0 s) : Leaves B s0 (fieldRecord s f) := by
  unfold fieldRecord
  refine leaves_ite (fun _ => h) fun _ => ?_
  split
  · exact leaves_commitRec hB _ _ h
  · exact h

theorem leaves_fieldRecords (h : Leaves B s0 s) : Leaves B s0 (fieldRecords s) :=
  leaves_foldl (fun _ f _ ht => leaves_fieldRecord hB f ht) h

theorem leaves_settleEos (h : Leaves B s0 s) : Leaves B s0 (settleEos s) := by
  have h1 : ∀ v, Leaves B s0 (s.set pgDmap DMAP.SERVICE_EOS_NOW v) := fun v => leaves_set_standby hB v (by decide) h
  exact leaves_ite (fun _ => leaves_raiseEvent hB _ (leaves_set_standby hB _ (by decide) (h1 _))) fun _ => h1 _

end Standby

end Sys2Proof.Machine
end

section
namespace Sys2Proof.Machine
open Sys2Proof

variable {B : Nat → Prop} {s0 s t : State}

/-! ### Packets, berths and channel ends -/

theorem leaves_modX (g : XingSt → XingSt) (h : Leaves B s0 s) : Leaves B s0 (s.modX g) := leaves_frame h rfl rfl

theorem leaves_modNet (g : List Pkt → List Pkt) (h : Leaves B s0 s) : Leaves B s0 (s.modNet g) := leaves_frame h rfl rfl

theorem leaves_modBerths (p : BerthRun → Bool) (g : BerthRun → BerthRun) (h : Leaves B s0 s) :
    Leaves B s0 (modBerths p g s) := leaves_modX _ h

theorem leaves_markParty (l : Nat) (h : Leaves B s0 s) : Leaves B s0 (markParty l s) := by
  unfold markParty
  split
  · exact leaves_modBerths _ _ h
  · split
    · exact leaves_modX _ h
    · exact h

theorem leaves_markParties (ps : List Nat) (h : Leaves B s0 s) : Leaves B s0 (ps.foldl (fun s l => markParty l s) s) :=
  leaves_foldl (fun _ l _ ht => leaves_markParty l ht) h

theorem leaves_lose (p : Pkt) (h : Leaves B s0 s) : Leaves B s0 (lose p s) :=
  leaves_ite (fun _ => h) fun _ => leaves_ite (fun _ => leaves_frame h rfl rfl) fun _ => h

theorem leaves_failRequests (f t : Nat) (h : Leaves B s0 s) : Leaves B s0 (failRequests f t s) :=
  leaves_foldl (fun _ p _ ht => leaves_lose p ht) (leaves_frame h rfl rfl)

theorem leaves_setRig (k : Nat) (r : Rig) (h : Leaves B s0 s) : Leaves B s0 (s.setRig k r) := leaves_frame h rfl rfl

theorem leaves_setTile (hB : B ≤ NoTilePlace) (k n : Nat) (F : Fld) (v : Nat) (h : Leaves B s0 s) :
    Leaves B s0 (s.set (pgTk k n) F v) := by
  refine leaves_set v (fun a ha => ?_) h
  have hlow := hB a ha
  unfold NoTilePlace at hlow
  simp only [pgTk, pgTile, pageAddr]
  omega

theorem leaves_setFerry (hB : B ≤ NoTilePlace) (k : Nat) (x : Ferry) (h : Leaves B s0 s) : Leaves B s0 (s.setFerry k x) := by
  have h1 : Leaves B s0 { s with m := { s.m with fry := put Ferry.reset s.m.fry k x } } := leaves_frame h rfl rfl
  exact leaves_setTile hB k 2 _ _ (leaves_setTile hB k 2 _ _ h1)

theorem leaves_deadRig (hB : B ≤ NoTilePlace) (k : Nat) (h : Leaves B s0 s) : Leaves B s0 (deadRig k s) := by
  unfold deadRig
  exact leaves_modX _ (leaves_setFerry hB k _ (leaves_setRig k _ h))

theorem leaves_dropPackets (f : Nat) (mark : Bool) (h : Leaves B s0 s) : Leaves B s0 (dropPackets f mark s) :=
  leaves_foldl (fun _ p _ ht => leaves_lose p (leaves_ite (fun _ => leaves_markParties _ ht) fun _ => ht))
    (leaves_frame h rfl rfl)

section Low
variable (hB : B ≤ LowPlace)
include hB

theorem leaves_berthSet (b : Nat) (F : Fld) (v : Nat) (h : Leaves B s0 s) : Leaves B s0 (berthSet b F v s) := by
  refine leaves_set _ (fun a ha => ?_) h
  have hlow := (hB a ha).2
  simp only [pgBerth, pageAddr]
  omega

theorem leaves_suspendBerth (b : Nat) (h : Leaves B s0 s) : Leaves B s0 (suspendBerth b s) :=
  leaves_ite (fun _ => h) fun _ => leaves_raiseEvent (hB.trans lowPlace_le_mainPlace) _
    (leaves_modBerths _ _ (leaves_modX _ (leaves_berthSet hB _ _ _ h)))

theorem leaves_loseHolder (l : Nat) (h : Leaves B s0 s) : Leaves B s0 (loseHolder l s) :=
  leaves_modBerths _ _ (leaves_modX _ (leaves_foldl (fun _ b _ ht => leaves_berthSet hB b _ _ ht) h))

theorem leaves_suspendGone (l : Nat) (h : Leaves B s0 s) : Leaves B s0 (suspendGone l s) :=
  leaves_ite (fun _ => leaves_foldl (fun _ b _ ht => leaves_suspendBerth hB b ht) h) fun _ => leaves_modX _ h

theorem leaves_markLost (l : Nat) (h : Leaves B s0 s) : Leaves B s0 (markLost l s) :=
  leaves_suspendGone hB l (leaves_loseHolder hB l (leaves_modBerths _ _ (leaves_markParty l h)))

theorem leaves_loseUse (l : Nat) (h : Leaves B s0 s) : Leaves B s0 (loseUse l s) :=
  leaves_suspendGone hB l (leaves_loseHolder hB l (leaves_modBerths _ _ h))

end Low

section Ends
variable (hB : B ≤ NoEndPlace)
include hB

theorem ne_pgEnd {h e off a : Nat} (he : e < 96) (hoff : off < 4096) (ha : B a) : a ≠ pgEnd h e + off := by
  have hend := hB a ha
  unfold NoEndPlace at hend
  simp only [pgEnd, pgHaws, pageAddr]
  split <;> omega

theorem leaves_setEnd {h e : Nat} {F : Fld} (v : Nat) (he : e < 96) (hF : F.off < 4096) (hs : Leaves B s0 s) :
    Leaves B s0 (s.set (pgEnd h e) F v) := leaves_set v (fun _ ha => ne_pgEnd hB he hF ha) hs

theorem leaves_startRoutes (h : Leaves B s0 s) : Leaves B s0 (startRoutes s) := by
  refine leaves_foldl (fun t f hf ht => leaves_ite (fun _ => leaves_set _ (fun a ha => ?_) ht) fun _ => ht) h
  have hend := hB a ha
  have hf := List.mem_range.1 hf
  unfold NoEndPlace at hend
  simp only [pgFtopo, pageAddr, FTOPO.ROUTE_STATUS_COMPUTING]
  omega

theorem leaves_enterProbe {e : Nat} (h : Nat) (he : e < 96) (hs : Leaves B s0 s) : Leaves B s0 (enterProbe h e s) :=
  leaves_setEnd hB _ he (by decide) (leaves_frame hs rfl rfl)

theorem leaves_startEnds (h : Nat) (hs : Leaves B s0 s) : Leaves B s0 (startEnds h s) :=
  leaves_foldl (fun _ _ he ht => leaves_ite (fun _ => leaves_enterProbe hB h (List.mem_range.1 he) ht) fun _ => ht) hs

/-- What an end loses as it returns to DOWN, before its channel is fenced. -/
def downEnd (h e : Nat) (s : State) : State :=
  let x := s.haw h e
  let lost := x.v0.held.map Prod.snd ++ x.v1.held.map Prod.snd ++ x.v0.wait ++ x.v1.wait
  let s := setLink h e 1 (s.setHaw h e { HawEnd.reset with gone := x.gone })
  lost.foldl (fun s p => lose p ((p.parties s).foldl (fun s l => markParty l s) s)) (showHeld h e s)

omit hB in
theorem dropEnd_eq (h e : Nat) (s : State) : dropEnd h e s = if linkState s h e ≤ 1 then s
    else if h < 56 ∧ e < 92 ∧ chanReady (downEnd h e s) h e then setChan h e false true (downEnd h e s)
      else downEnd h e s := rfl

theorem leaves_downEnd {e : Nat} (h : Nat) (he : e < 96) (hs : Leaves B s0 s) : Leaves B s0 (downEnd h e s) :=
  leaves_foldl (fun _ p _ ht => leaves_lose p (leaves_markParties _ ht))
    (leaves_setEnd hB _ he (by decide) (leaves_setEnd hB _ he (by decide)
      (leaves_setEnd hB _ he (by decide) (leaves_frame hs rfl rfl))))

end Ends

/-! ### The roster -/

theorem pgRostf_eq (f : Nat) : pgRostf f = (64 + f) * 4096 := by
  simp only [pgRostf, pageAddr]
  omega

/-- The offset of a word of a field's roster page. -/
theorem pgRostf_add_mod (f : Nat) {off : Nat} (h : off < 4096) : (pgRostf f + off) % 4096 = off := by
  rw [pgRostf_eq]
  omega

theorem ne_pgRostf {a off : Nat} (f : Nat) (hoff : off < 4096) (h : a < 0x10000 ∨ a % 4096 ≠ off) : a ≠ pgRostf f + off := by
  rintro rfl
  rw [pgRostf_add_mod f hoff, pgRostf_eq] at h
  omega

theorem chanFields_off (e : Nat) : ((chanFields e).1.off = 0x50 ∨ (chanFields e).1.off = 0x58 ∨ (chanFields e).1.off = 0x60) ∧
    ((chanFields e).2.1.off = 0x54 ∨ (chanFields e).2.1.off = 0x5C ∨ (chanFields e).2.1.off = 0x60) := by
  unfold chanFields
  split
  · exact ⟨.inl rfl, .inl rfl⟩
  · split
    · exact ⟨.inr (.inl rfl), .inr (.inl rfl)⟩
    · exact ⟨.inr (.inr rfl), .inr (.inr rfl)⟩

theorem leaves_setChan1 (hB : B ≤ NoChanPlace) (p : Nat × Nat) (r f : Bool) (h : Leaves B s0 s) :
    Leaves B s0 (setChan1 p r f s) := by
  obtain ⟨hr, hf⟩ := chanFields_off p.2
  refine leaves_set _ (fun a ha => ne_pgRostf _ (by omega) ?_) (leaves_set _ (fun a ha => ne_pgRostf _ (by omega) ?_) h) <;>
    · have hc := hB a ha
      unfold NoChanPlace at hc
      omega

theorem leaves_setChan (hB : B ≤ NoChanPlace) (h e : Nat) (r f : Bool) (hs : Leaves B s0 s) : Leaves B s0 (setChan h e r f s) :=
  leaves_ite (fun _ => hs) fun _ => leaves_ite (fun _ => leaves_setChan1 hB _ _ _ (leaves_setChan1 hB _ _ _ hs)) fun _ =>
    leaves_setChan1 hB _ _ _ hs

/-- Words that the roster's summaries leave: the counts, BRINGUP and ROSTER_GEN are not among them. -/
def NoSummaryPlace (a : Nat) : Prop := a = 0x10054 ∨ a % 4096 ≠ 0x4C ∧ (a < 0x10000 ∨ 0x11000 ≤ a)

theorem leaves_set_roster (hB : B ≤ NoSummaryPlace) {F : Fld} (v : Nat) (hF : F.off < 4096) (hne : F.off ≠ 0x54)
    (h : Leaves B s0 s) : Leaves B s0 (s.set pgRoster F v) := by
  refine leaves_set v (fun a ha => ?_) h
  have hs := hB a ha
  unfold NoSummaryPlace at hs
  simp only [pgRoster, pageAddr]
  omega

theorem leaves_counts (hB : B ≤ NoSummaryPlace) (h : Leaves B s0 s) : Leaves B s0 (counts s) := by
  have hset : ∀ {u : State} {F : Fld} (v : Nat), F.off < 4096 → F.off ≠ 0x54 → Leaves B s0 u → Leaves B s0 (u.set pgRoster F v) :=
    fun v => leaves_set_roster hB v
  refine hset _ (by decide) (by decide) (hset _ (by decide) (by decide) (hset _ (by decide) (by decide)
    (hset _ (by decide) (by decide) (leaves_foldl (fun u f _ hu => leaves_set _ (fun a ha => ?_) hu)
      (hset _ (by decide) (by decide) (hset _ (by decide) (by decide) h))))))
  have hs := hB a ha
  unfold NoSummaryPlace at hs
  have hmod : a = pgRostf f + 0x4C → a % 4096 = 0x4C := fun h => h ▸ pgRostf_add_mod f (by decide)
  have h54 : (0x10054 : Nat) % 4096 = 0x54 := by decide
  simp only [ROSTF.LOGICAL_COUNT]
  intro heq
  have := hmod heq
  omega

theorem leaves_bringup (hB : B ≤ NoSummaryPlace) (h : Leaves B s0 s) : Leaves B s0 (bringup s) := by
  unfold bringup
  iterate 4 refine leaves_set_roster hB _ (by decide) (by decide) ?_
  exact h

/-- The summaries of the roster on an edge, with the alert of ALL_DONE. -/
def summaries (s0 s : State) : State :=
  let s := bringup (counts s)
  s.set pgRoster ROSTER.ROSTER_GEN_GEN (s0.get pgRoster ROSTER.ROSTER_GEN_GEN + bit (rosterWords s != rosterWords s0))

/-- The alert of ALL_DONE's rise. -/
def doneAlert (s0 s : State) : State :=
  if s.on pgRoster ROSTER.BRINGUP_ALL_DONE && !s0.on pgRoster ROSTER.BRINGUP_ALL_DONE then pageEvent pgRoster s else s

/-- FIELDS_DONE has been seen. -/
def doneSeen (s : State) : State :=
  if s.on pgRoster ROSTER.BRINGUP_FIELDS_DONE then { s with m := { s.m with fieldsDoneSeen := true } } else s

theorem settle_eq (s0 s : State) : settle s0 s = orderEdge s0 (settleEos (doneSeen (doneAlert s0 (summaries s0 s)))) := rfl

theorem leaves_summaries {r : State} (hB : B ≤ NoSummaryPlace) (h : Leaves B s0 s) : Leaves B s0 (summaries r s) :=
  leaves_set_roster hB _ (by decide) (by decide) (leaves_bringup hB (leaves_counts hB h))

theorem leaves_doneSeen (h : Leaves B s0 s) : Leaves B s0 (doneSeen s) := leaves_ite (fun _ => leaves_frame h rfl rfl) fun _ => h

theorem leaves_orderEdge (r : State) (h : Leaves B s0 s) : Leaves B s0 (orderEdge r s) := by
  obtain ⟨hl, -, hm, -⟩ := orderEdge_frame r s
  exact leaves_of_frame h ⟨hl, hm⟩

/-- What follows from a change of the roster leaves the entries. -/
theorem leaves_settle (r : State) (hB : B ≤ MainPlace) (hB' : B ≤ NoSummaryPlace) (h : Leaves B s0 s) :
    Leaves B s0 (settle r s) :=
  leaves_orderEdge r (leaves_settleEos hB (leaves_doneSeen
    (leaves_ite (fun _ => leaves_pageEvent hB _ (leaves_summaries hB' h)) fun _ => leaves_summaries hB' h)))

end Sys2Proof.Machine
end

section
namespace Sys2Proof.Machine
open Sys2Proof

variable {B : Nat → Prop} {P : State → Prop} {s0 s t : State}

/-! ## What the fall of channel ends and the end of a field keep -/

/-- A property that what leaves the words at some addresses keeps, and that a channel reported fenced keeps. -/
structure Fencing (B : Nat → Prop) (P : State → Prop) : Prop where
  leaves : ∀ s t, Leaves B s t → P s → P t
  fence : ∀ h e s, P s → P (setChan h e false true s)

/-- A property of the words at some addresses that the retirement of a field keeps. -/
structure Lasting (B : Nat → Prop) (P : State → Prop) : Prop where
  words : ∀ s t : State, (∀ a, B a → t.word a = s.word a) → P s → P t
  fence : ∀ h e s, P s → P (setChan h e false true s)
  retire : ∀ g s, P s → P (setAllTiles g 6 s)

theorem Lasting.fencing (hP : Lasting B P) : Fencing B P := ⟨fun _ _ h => hP.words _ _ h.word, hP.fence⟩

theorem keeps_foldl {α : Type} {g : State → α → State} {l : List α} (hg : ∀ t, ∀ b ∈ l, P t → P (g t b)) (h : P s) :
    P (l.foldl g s) := by
  induction l generalizing s with
  | nil => exact h
  | cons b l ih => exact ih (fun t c hc => hg t c (List.mem_cons_of_mem _ hc)) (hg s b List.mem_cons_self h)

/-- One step of a fold establishes a property that all its steps keep, from another that they keep. -/
theorem foldl_establishes {α : Type} {Q : State → Prop} {g : State → α → State} {l : List α} {b : α} (hb : b ∈ l)
    (h : ∀ t, Q t → P (g t b)) (hQ : ∀ t, ∀ c ∈ l, Q t → Q (g t c)) (hP : ∀ t, ∀ c ∈ l, P t → P (g t c)) (hs : Q s) :
    P (l.foldl g s) := by
  induction l generalizing s with
  | nil => cases hb
  | cons c l ih =>
    have hkeep : ∀ t, ∀ d ∈ l, P t → P (g t d) := fun t d hd => hP t d (List.mem_cons_of_mem _ hd)
    obtain heq | hb := List.mem_cons.1 hb
    · exact keeps_foldl (s := g s c) (l := l) hkeep (heq ▸ h s hs)
    · exact ih hb (fun t d hd => hQ t d (List.mem_cons_of_mem _ hd)) hkeep (hQ s c List.mem_cons_self hs)

section
variable (hP : Fencing B P)
include hP

theorem fencing_fenceEnd (h e : Nat) (hs : P s) : P (fenceEnd h e s) := by
  unfold fenceEnd
  split
  · exact hP.fence h e s hs
  · exact hs

variable (hB : B ≤ NoEndPlace)
include hB

theorem fencing_dropEnd (h : Nat) {e : Nat} (he : e < 96) (hs : P s) : P (dropEnd h e s) := by
  have hd : P (downEnd h e s) := hP.leaves _ _ (leaves_downEnd hB h he (.refl s)) hs
  rw [dropEnd_eq]
  split
  · exact hs
  · split
    · exact hP.fence h e _ hd
    · exact hd

theorem fencing_dropDead (f : Nat) (hs : P s) : P (dropDead f s) := by
  refine keeps_foldl (fun t e he ht => ?_) hs
  split
  · exact fencing_fenceEnd hP f e (fencing_dropEnd hP hB f (List.mem_range.1 he) ht)
  · exact ht

theorem fencing_startRoutes (hs : P s) : P (startRoutes s) := hP.leaves _ _ (leaves_startRoutes hB (.refl s)) hs

/-- A retirement asked for while CSEQ runs waits for the next slack water. -/
theorem fencing_requestRetire_field (g : Nat) (hrun : cseqStopped s = false) (hs : P s) : P (requestRetire (.field g) s) := by
  simp only [requestRetire, hrun, Bool.false_eq_true, if_false]
  refine fencing_startRoutes hP hB (fencing_dropDead hP hB g ?_)
  split
  · exact hs
  · exact hP.leaves s _ ⟨fun _ _ => rfl, rfl, rfl, fun r hr => List.mem_append_left _ hr⟩ hs

/-- The FIELD records of an edge while CSEQ runs. -/
theorem fencing_newFieldRecords (hM : B ≤ MainPlace) (r : State) (hrun : ∀ u, P u → cseqStopped u = false) (hs : P s) :
    P (newFieldRecords r s) :=
  keeps_foldl (fun u g _ hu => fencing_requestRetire_field hP hB g (hrun u hu) hu)
    (hP.leaves _ _ (leaves_fieldRecords hM (.refl s)) hs)

end

/-- A word below the pages of fields and tiles is not cleared with a field. -/
theorem word_clearField (f : Nat) (s : State) {a : Nat} (ha : a < 0x4000000000) : (clearField f s).word a = s.word a := by
  have hcls : clsOf a < 4 := by
    simp only [clsOf, bits]
    omega
  have hpage : (!((clsOf a == 4 || clsOf a == 8) && fieldOf a == f)) = true := by
    simp [show clsOf a ≠ 4 by omega, show clsOf a ≠ 8 by omega]
  exact lookup_keep_of_kept (p := fun a => !((clsOf a == 4 || clsOf a == 8) && fieldOf a == f)) (resetWord a) s.live hpage

theorem Lasting.of_leaves (hP : Lasting B P) (h : Leaves B s s → Leaves B s t) (hs : P s) : P t :=
  hP.words s t (h (.refl s)).word hs

section
variable (hP : Lasting B P) (hB : B ≤ LowPlace) (hS : ∀ a, B a → a % 4096 ≠ 0x40)
include hP hB

theorem lasting_clearField (g : Nat) (hs : P s) : P (clearField g s) :=
  hP.words s _ (fun a ha => word_clearField g s (by have := (hB a ha).2; omega)) hs

include hS

theorem lasting_removeField (g : Nat) (hs : P s) : P (removeField g 7 6 false s) := by
  have hE := hB.trans lowPlace_le_noEndPlace
  unfold removeField
  extract_lets was s0 lids s1 s2 s3 s4
  have h0 : P s0 := by
    unfold s0
    rw [if_neg (by simp)]
    exact hs
  have h1 : P s1 := keeps_foldl (fun u l _ hu => hP.of_leaves (leaves_loseUse hB l) hu) h0
  have h2 : P s2 := hP.retire g _ (hP.of_leaves
    (leaves_set _ fun a ha => ne_pgRostf g (by decide) (.inr (hS a ha))) h1)
  have h3 : P s3 := by
    unfold s3
    split
    · exact fencing_dropDead hP.fencing hE g h2
    · exact h2
  have h4 : P s4 := lasting_clearField hP hB g (hP.of_leaves (leaves_dropPackets g false) h3)
  split
  · exact fencing_startRoutes hP.fencing hE h4
  · exact h4

theorem lasting_requestRetire_field (g : Nat) (hs : P s) : P (requestRetire (.field g) s) := by
  have hE := hB.trans lowPlace_le_noEndPlace
  by_cases hrun : cseqStopped s
  · simp only [requestRetire, hrun, if_true, applyRetire]
    refine fencing_startRoutes hP.fencing hE (fencing_dropDead hP.fencing hE g ?_)
    split
    · exact hs
    · exact lasting_removeField hP hB hS g hs
  · exact fencing_requestRetire_field hP.fencing hE g (by simpa using hrun) hs

theorem lasting_newFieldRecords (r : State) (hs : P s) : P (newFieldRecords r s) :=
  keeps_foldl (fun _ g _ hu => lasting_requestRetire_field hP hB hS g hu)
    (hP.of_leaves (leaves_fieldRecords (hB.trans lowPlace_le_mainPlace)) hs)

end

/-! ### A retired tile -/

theorem ne_tileWord {a f t : Nat} (ht : t < 468) (h : a % 4096 < 0x100) : a ≠ tileWord f t := by
  rintro rfl
  rw [tileWord_eq] at h
  omega

theorem tileState_congr {f t : Nat} {u : State} (h : u.word (tileWord f t) = s.word (tileWord f t)) :
    tileState u f t = tileState s f t := by
  simp only [tileState, State.get, tileWord] at h ⊢
  rw [h]

/-- A word of TILE_STATE after every entry of its field has become one. -/
theorem get_setAllTiles {f w v : Nat} (hw : w < 59) (s : State) : (setAllTiles f v s).get (pgRostf f) (ROSTF.TILE_STATE.at w) =
    (if w = 58 then v * 0x1111 else v * 0x11111111) % 2 ^ 32 := by
  refine foldl_establishes (P := fun u => u.get (pgRostf f) (ROSTF.TILE_STATE.at w) = _) (Q := fun _ => True) (List.mem_range.2 hw)
    (fun u _ => get_set_same _ _ _ _ le_rfl) (fun _ _ _ h => h) (fun u i _ hu => ?_) trivial
  by_cases hi : i = w
  · rw [hi]
    exact get_set_same _ _ _ _ le_rfl
  · rw [get_set_other _ _ (by simp only [Fld.at, ROSTF.TILE_STATE]; omega), hu]

theorem tileState_setAllTiles_same {f t : Nat} (ht : t < 468) (s : State) : tileState (setAllTiles f 6 s) f t = 6 := by
  rw [tileState, get_setAllTiles (by omega)]
  have h8 := Nat.mod_lt t (show 0 < 8 by decide)
  split
  · next h =>
    have h4 : t % 8 < 4 := by omega
    generalize t % 8 = i at *
    interval_cases i <;> rfl
  · generalize t % 8 = i at *
    interval_cases i <;> rfl

/-- The entries of one field do not stand in the page of another. -/
theorem word_setAllTiles_other {g v a : Nat} (h : a / 4096 ≠ 64 + g ∨ a % 4096 < 0x100) (s : State) :
    (setAllTiles g v s).word a = s.word a := by
  refine keeps_foldl (P := fun u => u.word a = s.word a) (fun u w hw hu => ?_) rfl
  have hw := List.mem_range.1 hw
  rw [word_set_other _ _ ?_, hu]
  simp only [pgRostf_eq, Fld.at, ROSTF.TILE_STATE]
  omega

/-- A retired tile stays so. -/
theorem lasting_retired {f t : Nat} (ht : t < 468) : Lasting (· = tileWord f t) fun u => tileState u f t = 6 where
  words _ _ h hs := (tileState_congr (h _ rfl)).trans hs
  fence h e u hu := by
    refine (tileState_congr ((leaves_setChan (B := (· = tileWord f t)) ?_ h e false true (.refl u)).word _ rfl)).trans hu
    rintro _ rfl
    exact .inr (.inr (by rw [tileWord_eq]; omega))
  retire g u hu := by
    by_cases hg : g = f
    · rw [hg, tileState_setAllTiles_same ht]
    · exact (tileState_congr (word_setAllTiles_other (.inl (by rw [tileWord_eq]; omega)) u)).trans hu

/-! ### A fenced channel -/

/-- The three kinds of a channel entry. -/
theorem chanFields_kind (e : Nat) : (e < 36 ∧ chanFields e = (ROSTF.SEAM_E_READY_READY, ROSTF.SEAM_E_FENCED_FENCED, e)) ∨
    (36 ≤ e ∧ e < 88 ∧ chanFields e = (ROSTF.SEAM_S_READY_READY, ROSTF.SEAM_S_FENCED_FENCED, e - 36)) ∨
    (88 ≤ e ∧ chanFields e = (ROSTF.STAY_READY, ROSTF.STAY_FENCED, e - 88)) := by
  unfold chanFields
  split
  · exact .inl ⟨‹_›, rfl⟩
  · split
    · exact .inr (.inl ⟨by omega, ‹_›, rfl⟩)
    · exact .inr (.inr ⟨by omega, rfl⟩)

/-- An entry of a field's page is reported fenced. -/
def fencedAt (s : State) (p : Nat × Nat) : Bool := bitAt (s.get (pgRostf p.1) (chanFields p.2).2.1) (chanFields p.2).2.2

/-- An end whose number has an entry of its own in the page of its field. -/
def hasEntry (e : Nat) : Prop := e < 18 ∨ 36 ≤ e ∧ e < 62 ∨ 88 ≤ e ∧ e < 92

theorem hasEntry_index {e : Nat} (he : hasEntry e) : (chanFields e).2.2 < (chanFields e).2.1.width := by
  unfold hasEntry at he
  obtain ⟨h, hc⟩ | ⟨h, h', hc⟩ | ⟨h, hc⟩ := chanFields_kind e <;> rw [hc]
  · exact show e < 18 by omega
  · exact show e - 36 < 26 by omega
  · exact show e - 88 < 4 by omega

theorem fencedField_fits (e : Nat) : (chanFields e).2.1.lo + (chanFields e).2.1.width ≤ 32 := by
  obtain ⟨-, hc⟩ | ⟨-, -, hc⟩ | ⟨-, hc⟩ := chanFields_kind e <;> simp only [hc] <;> decide

/-- READY and FENCED bits stand apart. -/
theorem ready_fenced_apart (e e' : Nat) : (chanFields e).2.1.off ≠ (chanFields e').1.off ∨
    (chanFields e').1.lo + (chanFields e').1.width ≤ (chanFields e).2.1.lo := by
  obtain ⟨-, hc⟩ | ⟨-, -, hc⟩ | ⟨-, hc⟩ := chanFields_kind e <;>
    obtain ⟨-, hc'⟩ | ⟨-, -, hc'⟩ | ⟨-, hc'⟩ := chanFields_kind e' <;> simp only [hc, hc'] <;> decide

theorem fencedField_of_off {e e' : Nat} (h : (chanFields e).2.1.off = (chanFields e').2.1.off) :
    (chanFields e).2.1 = (chanFields e').2.1 := by
  revert h
  obtain ⟨-, hc⟩ | ⟨-, -, hc⟩ | ⟨-, hc⟩ := chanFields_kind e <;>
    obtain ⟨-, hc'⟩ | ⟨-, -, hc'⟩ | ⟨-, hc'⟩ := chanFields_kind e' <;> simp only [hc, hc'] <;> decide

/-- A READY bit written leaves the FENCED bits. -/
theorem fencedAt_setReady (s : State) (p q : Nat × Nat) (b : Bool) :
    fencedAt (s.setBit (pgRostf p.1) (chanFields p.2).1 (chanFields p.2).2.2 b) q = fencedAt s q := by
  unfold fencedAt State.setBit
  by_cases ha : pgRostf q.1 + (chanFields q.2).2.1.off = pgRostf p.1 + (chanFields p.2).1.off
  · have hoff : (chanFields q.2).2.1.off = (chanFields p.2).1.off := by
      obtain ⟨hr, -⟩ := chanFields_off p.2
      obtain ⟨-, hf⟩ := chanFields_off q.2
      rw [← pgRostf_add_mod q.1 (off := (chanFields q.2).2.1.off) (by omega), ha, pgRostf_add_mod p.1 (by omega)]
    rw [get_set_disjoint _ _ ha (fencedField_fits q.2) (.inl ((ready_fenced_apart q.2 p.2).resolve_left (not_not.2 hoff)))]
  · rw [get_set_other _ _ ha]

theorem fencedAt_setFenced_same (s : State) {p : Nat × Nat} (hp : hasEntry p.2) :
    fencedAt (s.setBit (pgRostf p.1) (chanFields p.2).2.1 (chanFields p.2).2.2 true) p = true :=
  bitAt_get_setBit_same _ _ _ _ _ (fencedField_fits p.2) (hasEntry_index hp)

theorem fencedAt_setFenced_keep {p q : Nat × Nat} (hq : hasEntry q.2) (h : fencedAt s q = true) :
    fencedAt (s.setBit (pgRostf p.1) (chanFields p.2).2.1 (chanFields p.2).2.2 true) q = true := by
  by_cases ha : pgRostf q.1 + (chanFields q.2).2.1.off = pgRostf p.1 + (chanFields p.2).2.1.off
  · obtain ⟨-, hfp⟩ := chanFields_off p.2
    obtain ⟨-, hfq⟩ := chanFields_off q.2
    have hoff : (chanFields q.2).2.1.off = (chanFields p.2).2.1.off := by
      rw [← pgRostf_add_mod q.1 (off := (chanFields q.2).2.1.off) (by omega), ha, pgRostf_add_mod p.1 (by omega)]
    have hpage : pgRostf q.1 = pgRostf p.1 := by omega
    unfold fencedAt at h ⊢
    rw [hpage, fencedField_of_off hoff] at h ⊢
    exact bitAt_get_setBit_true _ (fencedField_fits p.2) (by rw [← fencedField_of_off hoff]; exact hasEntry_index hq) h
  · unfold fencedAt State.setBit at *
    rw [get_set_other _ _ ha, h]

theorem fencedAt_setChan1_same (s : State) {p : Nat × Nat} (hp : hasEntry p.2) : fencedAt (setChan1 p false true s) p = true :=
  fencedAt_setFenced_same _ hp

theorem fencedAt_setChan1_keep {q : Nat × Nat} (p : Nat × Nat) (hq : hasEntry q.2) (h : fencedAt s q = true) :
    fencedAt (setChan1 p false true s) q = true :=
  fencedAt_setFenced_keep hq (by rw [fencedAt_setReady, h])

theorem fencedAt_setChan_keep {q : Nat × Nat} (h e : Nat) (hq : hasEntry q.2) (hs : fencedAt s q = true) :
    fencedAt (setChan h e false true s) q = true := by
  unfold setChan
  split
  · exact hs
  · split
    · exact fencedAt_setChan1_keep _ hq (fencedAt_setChan1_keep _ hq hs)
    · exact fencedAt_setChan1_keep _ hq hs

theorem chanFenced_eq (s : State) (h e : Nat) : chanFenced s h e = fencedAt s (recordEnd h e) := rfl

theorem hasEntry_recordEnd {h e : Nat} (hh : h < 56) (he : e < 92) : hasEntry (recordEnd h e).2 := by
  unfold hasEntry recordEnd partnerEnd
  grind

/-- A channel set fenced is fenced. -/
theorem chanFenced_setChan_same (s : State) {h e : Nat} (hh : h < 56) (he : e < 92) :
    chanFenced (setChan h e false true s) h e = true := by
  have hent := hasEntry_recordEnd hh he
  rw [chanFenced_eq, setChan, if_neg (by omega)]
  split
  · next hstay =>
    have hrec : recordEnd h e = partnerEnd h e ∨ recordEnd h e = (h, e) := by
      unfold recordEnd
      grind
    obtain hr | hr := hrec <;> rw [hr] at hent ⊢
    · exact fencedAt_setChan1_same _ hent
    · exact fencedAt_setChan1_keep _ hent (fencedAt_setChan1_same _ hent)
  · exact fencedAt_setChan1_same _ hent

theorem chanFenced_fenceEnd_same (s : State) {h e : Nat} (hh : h < 56) (he : e < 92) : chanFenced (fenceEnd h e s) h e = true := by
  unfold fenceEnd
  split
  · exact chanFenced_setChan_same s hh he
  · next hno => simpa [hh, he] using hno

/-- A fenced channel stays fenced as other channels fall and fields retire. -/
theorem lasting_fencedAt {q : Nat × Nat} (hq : hasEntry q.2) :
    Lasting (· = pgRostf q.1 + (chanFields q.2).2.1.off) fun u => fencedAt u q = true where
  words s t h hs := by
    have hw := h _ rfl
    unfold fencedAt at hs ⊢
    rw [← hs]
    simp only [State.get]
    rw [hw]
  fence h e _ hs := fencedAt_setChan_keep h e hq hs
  retire g u hu := by
    obtain ⟨-, hf⟩ := chanFields_off q.2
    have hw := word_setAllTiles_other (g := g) (v := 6) (a := pgRostf q.1 + (chanFields q.2).2.1.off)
      (.inr (by rw [pgRostf_add_mod q.1 (by omega)]; omega)) u
    unfold fencedAt at hu ⊢
    rw [← hu]
    simp only [State.get]
    rw [hw]

end Sys2Proof.Machine
end

section
namespace Sys2Proof.Machine
open Sys2Proof

variable {B : Nat → Prop} {P : State → Prop} {s0 s t : State}

/-! ## The clauses on escalations -/

/-- A raised escalation taken from those that wait. -/
def takeEsc (e : Escalation) (s : State) : State := s.modX fun x => { x with escs := x.escs.erase e }

theorem leaves_takeEsc (e : Escalation) (h : Leaves B s0 s) : Leaves B s0 (takeEsc e s) := leaves_modX _ h

theorem exec_escalation {e : Escalation} (ha : awake s = true) (he : e ∈ s.m.x.escs ∨ ∃ f t r, e = .tileLost f t r) :
    exec (.escalationReachesRoster e) s = .next (settle s (newFieldRecords s (escalation e (takeEsc e s)))) := by
  have hx : exec (.escalationReachesRoster e) s = execEscalationReachesRoster e s := rfl
  rw [hx, execEscalationReachesRoster, ifAwake_on ha]
  unfold reachRoster
  obtain he | ⟨f, t, r, rfl⟩ := he
  · rw [if_neg]
    · rfl
    · split <;> simp [he]
  · rfl

/-- What follows from a change of the roster keeps what is lasting. -/
theorem lasting_settle (hP : Lasting B P) (hM : B ≤ MainPlace) (hS : B ≤ NoSummaryPlace) (r : State) (hs : P s) :
    P (settle r s) := hP.of_leaves (leaves_settle r hM hS) hs

/-! ### A broken link -/

theorem stayPartner_lt : ∀ f < 56, ∀ i < 4, stayPartner f i < 64 := by decide

theorem recordEnd_field_lt {h e : Nat} (hh : h < 56) (he : e < 92) : (recordEnd h e).1 < 64 := by
  have hstay := stayPartner_lt h hh (e - 88)
  unfold recordEnd partnerEnd
  grind

/-- The word of a channel entry stands on a roster page, apart from the field's state and count. -/
theorem chanWord_place {f off : Nat} (hf : f < 64) (h : off = 0x54 ∨ off = 0x5C ∨ off = 0x60) :
    (· = pgRostf f + off) ≤ LowPlace ∧ (· = pgRostf f + off) ≤ NoSummaryPlace ∧ (pgRostf f + off) % 4096 ≠ 0x40 := by
  refine ⟨?_, ?_, by rw [pgRostf_add_mod f (by omega)]; omega⟩
  · rintro _ rfl
    unfold LowPlace
    rw [pgRostf_eq]
    omega
  · rintro _ rfl
    refine .inr ⟨by rw [pgRostf_add_mod f (by omega)]; omega, ?_⟩
    rw [pgRostf_eq]
    omega

theorem linkBroken_fences {f : FieldId} {e : Fin 96} {r n : Nat} {ps : List Nat} (ha : awake s = true) (he : e.val < 92)
    (hm : .linkBroken f e r n ps ∈ s.m.x.escs) :
    ∃ s', exec (.escalationReachesRoster (.linkBroken f e r n ps)) s = .next s' ∧ chanFenced s' f.val e.val = true := by
  refine ⟨_, exec_escalation ha (.inl hm), ?_⟩
  have hP := lasting_fencedAt (hasEntry_recordEnd f.isLt he)
  obtain ⟨hL, hS, h40⟩ := chanWord_place (recordEnd_field_lt f.isLt he) (chanFields_off (recordEnd f e).2).2
  have h1 : fencedAt (escalation (.linkBroken f e r n ps) (takeEsc (.linkBroken f e r n ps) s)) (recordEnd f e) = true :=
    fencing_startRoutes hP.fencing (hL.trans lowPlace_le_noEndPlace) (chanFenced_fenceEnd_same _ f.isLt he)
  exact lasting_settle hP (hL.trans lowPlace_le_mainPlace) hS _
    (lasting_newFieldRecords hP hL (fun _ ha => ha ▸ h40) _ h1)

/-! ### The loss of a tile -/

theorem tileWord_place {f t : Nat} (hf : f < 64) (ht : t < 468) : (· = tileWord f t) ≤ LowPlace ∧
    (· = tileWord f t) ≤ NoSummaryPlace ∧ (· = tileWord f t) ≤ NoChanPlace ∧ tileWord f t % 4096 ≠ 0x40 := by
  rw [show (tileWord f t) = (64 + f) * 4096 + 256 + 4 * (t / 8) from tileWord_eq f t]
  refine ⟨?_, ?_, ?_, by omega⟩ <;>
    · rintro _ rfl
      simp only [LowPlace, NoSummaryPlace, NoChanPlace]
      omega

/-- Every way to the spare columns of a row stays among the tiles. -/
theorem tileAt_spare_lt {t c : Nat} (ht : t < 468) (hc : c < 26) : tileAt (tileRow t) c < 468 := by
  simp only [tileAt, tileRow]
  omega

theorem passedState_lt (s : State) (f t : Nat) : passedState s f t < 16 := by
  unfold passedState usedState
  split
  · split <;> decide
  · decide

theorem leaves_releaseMatrix (hB : B ≤ NoTilePlace) (f t : Nat) (h : Leaves B s0 s) : Leaves B s0 (releaseMatrix f t s) := by
  refine leaves_ite (fun _ => h) fun _ => leaves_set _ (fun a ha => ?_) h
  have hlow := hB a ha
  unfold NoTilePlace at hlow
  simp only [pgTile, pageAddr]
  omega

theorem leaves_enterPassed (hB : B ≤ NoTilePlace) {f t : Nat} (hw : ∀ a, B a → a ≠ tileWord f t) (h : Leaves B s0 s) :
    Leaves B s0 (enterPassed f t s) := by
  have h1 : ∀ v, Leaves B s0 (setTileState f t v s) := fun v => leaves_set _ hw h
  exact leaves_ite (fun _ => h1 _) fun _ => leaves_releaseMatrix hB f t (h1 _)

/-- A tile that has passed has its entry. -/
theorem tileState_enterPassed_same (s : State) {f t : Nat} (hf : f < 64) (ht : t < 468) :
    tileState (enterPassed f t s) f t = passedState s f t := by
  have h1 := tileState_setTileState_same s f t (passedState_lt s f t)
  unfold enterPassed
  dsimp only
  split
  · exact h1
  · obtain ⟨hL, -⟩ := tileWord_place hf ht
    rw [tileState_congr ((leaves_releaseMatrix (hL.trans lowPlace_le_noTilePlace) f t (.refl _)).word _ rfl), h1]

theorem tileState_enterPassed_other (s : State) {f t t' : Nat} (hf : f < 64) (ht : t < 468) (ht' : t' < 468) (h : t' ≠ t) :
    tileState (enterPassed f t s) f t' = tileState s f t' := by
  have h1 := tileState_setTileState_other s (f := f) (f' := f) (passedState_lt s f t) ht ht' (.inr h)
  unfold enterPassed
  dsimp only
  split
  · exact h1
  · obtain ⟨hL, -⟩ := tileWord_place hf ht'
    rw [tileState_congr ((leaves_releaseMatrix (hL.trans lowPlace_le_noTilePlace) f t (.refl _)).word _ rfl), h1]

/-- The promotion of a spare changes the entry of a spare alone. -/
theorem tileState_promote1 (s : State) {f t t' : Nat} (hf : f < 64) (ht : t < 468) (ht' : t' < 468) (h : tileState s f t' ≠ 4) :
    tileState (promote1 f t s) f t' = tileState s f t' := by
  unfold promote1
  split
  · next h4 => exact tileState_enterPassed_other s hf ht ht' fun heq => h (heq ▸ h4)
  · rfl

theorem tileState_promoteRow (s : State) {f t t' : Nat} (hf : f < 64) (ht : t < 468) (ht' : t' < 468) (h : tileState s f t' ≠ 4) :
    tileState (promoteRow f (tileRow t) s) f t' = tileState s f t' := by
  have h24 := tileState_promote1 s hf (tileAt_spare_lt ht (c := 24) (by decide)) ht' h
  rw [promoteRow, tileState_promote1 _ hf (tileAt_spare_lt ht (by decide)) ht' (by rw [h24]; exact h), h24]

/-! ### The loss of a tile: the entry and CSEQ's state -/

/-- The word of a tile's entry and the word of CSEQ's state. -/
def EntryPlace (f t a : Nat) : Prop := a = tileWord f t ∨ a = pgCseq + CSEQ.CSEQ_STATUS_STATE.off

/-- A tile has an entry, and CSEQ is stopped or runs. -/
def EntryIs (f t v : Nat) (stopped : Bool) (s : State) : Prop := tileState s f t = v ∧ cseqStopped s = stopped

variable {f t v : Nat} {b : Bool}

theorem entryPlace_places (hf : f < 64) (ht : t < 468) : EntryPlace f t ≤ LowPlace ∧ EntryPlace f t ≤ NoSummaryPlace ∧
    EntryPlace f t ≤ NoChanPlace := by
  have hc : pgCseq + CSEQ.CSEQ_STATUS_STATE.off = 0x1000000044 := rfl
  obtain ⟨h1, h2, h3, -⟩ := tileWord_place hf ht
  unfold EntryPlace
  rw [hc]
  refine ⟨?_, ?_, ?_⟩ <;> rintro a (rfl | rfl)
  · exact h1 _ rfl
  · simp [LowPlace]
  · exact h2 _ rfl
  · simp [NoSummaryPlace]
  · exact h3 _ rfl
  · simp [NoChanPlace]

theorem entryIs_congr {u : State} (h : ∀ a, EntryPlace f t a → u.word a = s.word a) (hs : EntryIs f t v b s) :
    EntryIs f t v b u := by
  obtain ⟨h1, h2⟩ := hs
  refine ⟨(tileState_congr (h _ (.inl rfl))).trans h1, ?_⟩
  rw [← h2]
  simp only [cseqStopped, cseqState, State.get]
  rw [h _ (.inr rfl)]

theorem entryIs_leaves {u : State} (h : Leaves (EntryPlace f t) s s → Leaves (EntryPlace f t) s u) (hs : EntryIs f t v b s) :
    EntryIs f t v b u := entryIs_congr (h (.refl s)).word hs

theorem fencing_entryIs (hf : f < 64) (ht : t < 468) : Fencing (EntryPlace f t) (EntryIs f t v b) where
  leaves _ _ h hs := entryIs_congr h.word hs
  fence h e _ hs := entryIs_leaves (leaves_setChan (entryPlace_places hf ht).2.2 h e false true) hs

theorem entryIs_setTileState {v' : Nat} (ht : t < 468) (hv : v' < 16) (hs : EntryIs f t v b s) :
    EntryIs f t v' b (setTileState f t v' s) := by
  obtain ⟨-, h2⟩ := hs
  refine ⟨tileState_setTileState_same s f t hv, ?_⟩
  rw [← h2]
  simp only [cseqStopped, cseqState, setTileState_eq]
  rw [get_set_other _ _ ?_]
  have h1 := tileWord_eq f t
  simp only [tileWord] at h1
  rw [h1, show pgCseq + CSEQ.CSEQ_STATUS_STATE.off = 0x1000000044 from rfl]
  omega

/-- A lost tile is RETIRED where CSEQ was stopped, and LOST where it runs. -/
def LeftUse (f t : Nat) (stopped : Bool) (s : State) : Prop :=
  tileState s f t = (if stopped then 6 else 7) ∧ (stopped = false → cseqStopped s = false)

theorem entryIs_deadRig (hf : f < 64) (ht : t < 468) (k : Nat) (hs : EntryIs f t v b s) : EntryIs f t v b (deadRig k s) :=
  entryIs_leaves (leaves_deadRig ((entryPlace_places hf ht).1.trans lowPlace_le_noTilePlace) k) hs

/-- A lost tile that is retired at once, or waits for slack water. -/
theorem leftUse_requestRetire (hf : f < 64) (ht : t < 468) (hs : EntryIs f t 7 b s) :
    LeftUse f t b (requestRetire (.tile f t) s) := by
  obtain ⟨hL, -⟩ := entryPlace_places hf ht
  have hE := hL.trans lowPlace_le_noEndPlace
  obtain ⟨h7, hb⟩ := hs
  cases b with
  | true =>
    have hnot : tileReady s f t = false := by simp [tileReady, h7]
    obtain ⟨hLw, -⟩ := tileWord_place hf ht
    have hP := (lasting_retired (f := f) ht).fencing
    have hEw := hLw.trans lowPlace_le_noEndPlace
    have hret : tileState (retireTile f t s) f t = 6 := by
      unfold retireTile
      rw [if_neg (by omega), hnot]
      simp only [Bool.false_eq_true, if_false]
      have h6 : ∀ u, tileState (promoteRow f (tileRow t) (setTileState f t 6 u)) f t = 6 := fun u => by
        have h := tileState_setTileState_same u f t (v := 6) (by decide)
        rw [tileState_promoteRow _ hf ht ht (by rw [h]; decide), h]
      split <;> exact fencing_dropDead hP hEw f (h6 _)
    refine ⟨?_, nofun⟩
    simp only [requestRetire, hb, if_true, applyRetire]
    exact fencing_startRoutes hP hEw (fencing_dropDead hP hEw f hret)
  | false =>
    have hP := fencing_entryIs (v := 7) (b := false) hf ht
    have hq : EntryIs f t 7 false (requestRetire (.tile f t) s) := by
      simp only [requestRetire, hb, Bool.false_eq_true, if_false]
      refine fencing_startRoutes hP hE (fencing_dropDead hP hE f ?_)
      split <;> exact ⟨h7, hb⟩
    exact ⟨hq.1, fun _ => hq.2⟩

theorem leftUse_toDraining (ht : t < 468) (hs : LeftUse f t b s) : LeftUse f t b (toDraining s) := by
  unfold toDraining
  split
  · refine ⟨(tileState_congr (word_set_other _ _ ?_)).trans hs.1, fun _ => ?_⟩
    · rw [tileWord_eq, show pgCseq + CSEQ.CSEQ_STATUS_STATE.off = 0x1000000044 from rfl]
      omega
    · simp only [cseqStopped, cseqState]
      rw [get_set_same _ _ _ _ (by decide)]
      rfl
  · exact hs

theorem leftUse_loseTile (hf : f < 64) (ht : t < 468) (r : List Nat) (hs : EntryIs f t 2 b s) :
    LeftUse f t b (loseTile f t r s) := by
  obtain ⟨hL, -⟩ := entryPlace_places hf ht
  have hE := hL.trans lowPlace_le_noEndPlace
  have h2 : tileState s f t = 2 := hs.1
  unfold loseTile
  extract_lets v here s1 s2 s3 s4
  rw [if_neg (by simp [v, h2])]
  have h1 : EntryIs f t 2 b s1 := entryIs_leaves
    (leaves_foldl fun u e _ hu => leaves_markParties _ hu) hs
  have h12 : EntryIs f t 2 b s2 := by
    unfold s2
    split
    · exact entryIs_leaves (leaves_markLost hL _) h1
    · exact h1
  have h3 : EntryIs f t 7 b s3 := entryIs_setTileState ht (by decide) (entryIs_deadRig hf ht _ h12)
  have h4 : EntryIs f t 7 b s4 := entryIs_leaves
    (fun h => leaves_foldl (fun u e _ hu => leaves_lose _ hu) (leaves_modNet _ h)) h3
  have h5 : EntryIs f t 7 b (dropDead f (failRequests f t s4)) :=
    fencing_dropDead (fencing_entryIs hf ht) hE f (entryIs_leaves (leaves_failRequests f t) h4)
  exact leftUse_toDraining ht (leftUse_requestRetire hf ht h5)

theorem tileLost_leaves_use {f : FieldId} {t : TileId} {r : List Nat} (ha : awake s = true) (h2 : tileState s f.val t.val = 2) :
    ∃ s', exec (.escalationReachesRoster (.tileLost f t r)) s = .next s' ∧
      tileState s' f.val t.val = (if cseqStopped s then 6 else 7) := by
  refine ⟨_, exec_escalation ha (.inr ⟨f, t, r, rfl⟩), ?_⟩
  have hf : f.val < 64 := by omega
  obtain ⟨hL, hS, hC⟩ := entryPlace_places hf t.isLt
  have hs : EntryIs f.val t.val 2 (cseqStopped s) s := ⟨h2, rfl⟩
  have h2' : EntryIs f.val t.val 2 (cseqStopped s) (raiseEntry { code := 0x4002, field := f.val, tile := t.val }
      { kind := 1, source := 2, field := f.val, locator := tileLoc t.val } (takeEsc (.tileLost f t r) s)).1 :=
    entryIs_leaves (fun h => leaves_raiseEntry (hL.trans lowPlace_le_mainPlace) _ _ (leaves_takeEsc _ h)) hs
  obtain ⟨h67, hrun⟩ := leftUse_loseTile hf t.isLt r h2'
  cases hst : cseqStopped s with
  | true =>
    rw [hst] at h67
    obtain ⟨hLw, hSw, -, h40⟩ := tileWord_place hf t.isLt
    have hP := lasting_retired (f := f.val) t.isLt
    exact lasting_settle hP (hLw.trans lowPlace_le_mainPlace) hSw _
      (lasting_newFieldRecords hP hLw (fun _ ha => ha ▸ h40) _ h67)
  | false =>
    rw [hst] at h67 hrun
    have hP := fencing_entryIs (v := 7) (b := false) hf t.isLt
    exact (entryIs_leaves (leaves_settle s (hL.trans lowPlace_le_mainPlace) hS) (fencing_newFieldRecords hP
      (hL.trans lowPlace_le_noEndPlace) (hL.trans lowPlace_le_mainPlace) s (fun _ h => h.2) ⟨h67, hrun rfl⟩)).1

/-! ### An uncorrectable bank -/

/-- The words of CSEQ's state and of a tile's banks. -/
def BankPlace (k a : Nat) : Prop := a = pgCseq + CSEQ.CSEQ_STATUS_STATE.off ∨ a = p0 k + TP0.BANK_STATUS_RETIRE_PENDING.off

theorem bankPlace_places {f : FieldId} {t : TileId} : BankPlace (keyOf f t) ≤ MainPlace ∧ BankPlace (keyOf f t) ≤ NoEndPlace ∧
    BankPlace (keyOf f t) ≤ NoChanPlace ∧ BankPlace (keyOf f t) ≤ NoSummaryPlace := by
  have hb : p0 (keyOf f t) + TP0.BANK_STATUS_RETIRE_PENDING.off = 0x8000000088 + f.val * 2 ^ 30 + t.val * 2 ^ 21 := by
    simp only [p0, pgTk, pgTile, pageAddr, keyOf, tileKey, TP0.BANK_STATUS_RETIRE_PENDING]
    omega
  unfold BankPlace
  rw [hb, show pgCseq + CSEQ.CSEQ_STATUS_STATE.off = 0x1000000044 from rfl]
  refine ⟨?_, ?_, ?_, ?_⟩ <;>
    · rintro a (rfl | rfl) <;> simp only [MainPlace, NoEndPlace, NoChanPlace, NoSummaryPlace] <;> omega

/-- CSEQ runs and a bank awaits its retirement. -/
def BankPending (f : FieldId) (t : TileId) (b : Fin 8) (s : State) : Prop :=
  cseqStopped s = false ∧ Retire.bank f.val t.val b.val ∈ s.m.retire ∧
    bitAt (s.get (p0 (keyOf f t)) TP0.BANK_STATUS_RETIRE_PENDING) b.val = true

theorem cseqStopped_leaves {u : State} (hB : B (pgCseq + CSEQ.CSEQ_STATUS_STATE.off)) (h : Leaves B s u) :
    cseqStopped u = cseqStopped s := by
  simp only [cseqStopped, cseqState]
  rw [h.get _ _ hB]

theorem bankPending_leaves {f : FieldId} {t : TileId} {b : Fin 8} {u : State} (h : Leaves (BankPlace (keyOf f t)) s u)
    (hs : BankPending f t b s) : BankPending f t b u := by
  obtain ⟨hc, hm, hb⟩ := hs
  exact ⟨(cseqStopped_leaves (.inl rfl) h).trans hc, h.retire _ hm, by rw [h.get _ _ (.inr rfl), hb]⟩

theorem fencing_bankPending (f : FieldId) (t : TileId) (b : Fin 8) : Fencing (BankPlace (keyOf f t)) (BankPending f t b) where
  leaves _ _ := bankPending_leaves
  fence h e s := bankPending_leaves (leaves_setChan bankPlace_places.2.2.1 h e false true (.refl s))

theorem p0_keyOf (f : FieldId) (t : TileId) : pgTile f.val t.val 0 = p0 (keyOf f t) := by
  rw [p0, pgTk, keyOf, tileKey, show (f.val * 512 + t.val) / 512 = f.val by omega,
    show (f.val * 512 + t.val) % 512 = t.val by omega]

/-- A retirement is put among those that wait for slack water. -/
theorem leaves_appendRetire (r : Retire) (h : Leaves B s0 s) :
    Leaves B s0 { s with m := { s.m with retire := s.m.retire ++ [r] } } :=
  h.trans ⟨fun _ _ => rfl, rfl, rfl, fun _ hr => List.mem_append_left _ hr⟩

theorem cseqStopped_setPending (k b : Nat) (s : State) :
    cseqStopped (s.setBit (p0 k) TP0.BANK_STATUS_RETIRE_PENDING b true) = cseqStopped s := by
  have hne : pgCseq + CSEQ.CSEQ_STATUS_STATE.off ≠ p0 k + TP0.BANK_STATUS_RETIRE_PENDING.off := by
    simp only [p0, pgTk, pgTile, pageAddr, pgCseq, CSEQ.CSEQ_STATUS_STATE, TP0.BANK_STATUS_RETIRE_PENDING]
    omega
  rw [cseqStopped, cseqStopped, cseqState, cseqState, State.setBit, get_set_other _ _ hne]

/-- A bank's retirement asked for while CSEQ runs waits, and its bit shows it. -/
theorem bankPending_requestRetire {f : FieldId} {t : TileId} (b : Fin 8) (hc : cseqStopped s = false) :
    BankPending f t b (requestRetire (.bank f.val t.val b.val) s) := by
  have hbit : bitAt ((s.setBit (p0 (keyOf f t)) TP0.BANK_STATUS_RETIRE_PENDING b true).get (p0 (keyOf f t))
      TP0.BANK_STATUS_RETIRE_PENDING) b.val = true :=
    bitAt_get_setBit_same _ _ _ _ _ (by decide) b.isLt
  have hc' := (cseqStopped_setPending (keyOf f t) b s).trans hc
  simp only [requestRetire, hc, Bool.false_eq_true, if_false, p0_keyOf]
  split
  · next hin => exact ⟨hc', List.contains_iff_mem.1 hin, hbit⟩
  · have hl := leaves_appendRetire (B := BankPlace (keyOf f t)) (.bank f.val t.val b.val)
      (.refl (s.setBit (p0 (keyOf f t)) TP0.BANK_STATUS_RETIRE_PENDING b true))
    exact ⟨(cseqStopped_leaves (.inl rfl) hl).trans hc', List.mem_append_right _ List.mem_cons_self,
      (congrArg (bitAt · b.val) (hl.get _ _ (.inr rfl))).trans hbit⟩

theorem bankUe_awaits_retirement {f : FieldId} {t : TileId} {b : Fin 8} {a : Nat} (ha : awake s = true)
    (hm : .bankUe f t b a ∈ s.m.x.escs) (hc : cseqStopped s = false) :
    ∃ s', exec (.escalationReachesRoster (.bankUe f t b a)) s = .next s' ∧ Retire.bank f.val t.val b.val ∈ s'.m.retire ∧
      bitAt (s'.get (p0 (keyOf f t)) TP0.BANK_STATUS_RETIRE_PENDING) b.val = true := by
  refine ⟨_, exec_escalation ha (.inl hm), ?_⟩
  obtain ⟨hM, hE, -, hS⟩ := bankPlace_places (f := f) (t := t)
  have h1 := leaves_raiseEntry hM { code := 0x4003, field := f.val, tile := t.val, arg0 := b.val, arg1 := a }
    { kind := 2, source := 2, field := f.val, locator := bankLoc t.val b.val }
    (leaves_takeEsc (.bankUe f t b a) (.refl s))
  have h2 : BankPending f t b (escalation (.bankUe f t b a) (takeEsc (.bankUe f t b a) s)) :=
    bankPending_requestRetire b ((cseqStopped_leaves (.inl rfl) h1).trans hc)
  have h3 := fencing_newFieldRecords (fencing_bankPending f t b) hE hM s (fun _ h => h.1) h2
  exact (bankPending_leaves (leaves_settle s hM hS (.refl _)) h3).2

end Sys2Proof.Machine
end

section
namespace Sys2Proof.Machine
open Sys2Proof

variable {B : Nat → Prop} {s0 s t : State} {c : Nat}

/-! ## What every event keeps -/

/-- A property that a cause of ALERT_N set, a write of another word of the standby domain and a change of the logbook keep. -/
structure Lingers (P : State → Prop) : Prop where
  alert : ∀ c s, P s → P (alert c s)
  write : ∀ a v s, a < 0x10000 → a ≠ pgMast + MAST.ALERT_CAUSE.off → P s → P (s.setWord a v)
  log : ∀ (l : LogSt) s, P s → P { s with log := l }

theorem keeps_ite {P : State → Prop} {c : Prop} [Decidable c] {u : State} (ht : c → P t) (hu : ¬c → P u) :
    P (if c then t else u) := by
  split
  · next h => exact ht h
  · next h => exact hu h

section
variable {P : State → Prop} (hP : Lingers P)
include hP

theorem lingers_set {p : Nat} {F : Fld} (v : Nat) (ha : p + F.off < 0x10000 ∧ p + F.off ≠ pgMast + MAST.ALERT_CAUSE.off)
    (hs : P s) : P (s.set p F v) := hP.write _ _ _ ha.1 ha.2 hs

theorem lingers_pageEvent (p : Nat) (hs : P s) : P (pageEvent p s) :=
  keeps_ite (fun _ => hP.alert _ _ (keeps_ite (fun _ => hs) fun _ => lingers_set hP _ (by decide)
    (lingers_set hP _ (by decide) (lingers_set hP _ (by decide) hs)))) fun _ => hs

theorem lingers_logAlert (n : Nat) (hs : P s) : P (logAlert n s) := by
  have h1 : ∀ v, P ((alert acLogbook s).setWord (pgLogb + 0x00C) v) := fun v =>
    hP.write _ v _ (by decide) (by decide) (hP.alert _ _ hs)
  exact keeps_ite (fun _ => lingers_pageEvent hP _ (h1 _)) fun _ => h1 _

theorem lingers_levelAlert (hs : P s) : P (if unsaved s = alertLevel s then logAlert 16 s else s) :=
  keeps_ite (fun _ => lingers_logAlert hP _ hs) fun _ => hs

theorem lingers_numberEvent (e : Event) (hs : P s) : P (numberEvent e s) := by
  have h1 := lingers_levelAlert hP (lingers_set hP (p := pgLogb) (F := LOGB.NEXT_SEQ_SEQ)
    (s.get pgLogb LOGB.NEXT_SEQ_SEQ + 1) (by decide) hs)
  exact keeps_ite (fun _ => hP.log _ _ h1) fun _ => keeps_ite (fun _ => lingers_set hP _ (by decide) h1)
    fun _ => lingers_logAlert hP _ (lingers_set hP _ (by decide) h1)

theorem lingers_flushRepeat (hs : P s) : P (flushRepeat s) :=
  keeps_ite (fun _ => hs) fun _ => lingers_numberEvent hP _ (lingers_set hP _ (by decide) hs)

/-- An event keeps what lingers, and what its own cause establishes. -/
theorem lingers_raiseEvent (e : Event) (hs : P s ∨ ∃ c, e.alert = some c ∧ P (alert c s)) : P (raiseEvent e s) := by
  unfold raiseEvent
  extract_lets s1
  have h1 : P s1 := by
    unfold s1
    obtain hs | ⟨c, he, hs⟩ := hs
    · split
      · exact hP.alert _ _ hs
      · exact hs
    · rw [he]
      exact hs
  exact keeps_ite (fun _ => lingers_set hP _ (by decide) h1) fun _ => lingers_numberEvent hP _ (lingers_flushRepeat hP h1)

theorem lingers_settleEos (hs : P s) : P (settleEos s) := by
  have h1 : ∀ v, P (s.set pgDmap DMAP.SERVICE_EOS_NOW v) := fun v => lingers_set hP v (by decide) hs
  exact keeps_ite (fun _ => lingers_raiseEvent hP _ (.inl (lingers_set hP _ (by decide) (h1 _)))) fun _ => h1 _

end

theorem lingers_m (m : MainSt) : Lingers fun s => s.m = m := ⟨fun _ _ h => h, fun _ _ _ _ _ h => h, fun _ _ h => h⟩

@[simp] theorem raiseEvent_m (e : Event) (s : State) : (raiseEvent e s).m = s.m := lingers_raiseEvent (lingers_m s.m) e (.inl rfl)

/-- A cause of ALERT_N is set. -/
def AlertSet (c : Nat) (s : State) : Prop := bitAt (s.get pgMast MAST.ALERT_CAUSE) c = true

theorem alertSet_congr (h : t.word 0x60 = s.word 0x60) (hs : AlertSet c s) : AlertSet c t := by
  unfold AlertSet at *
  rw [← hs]
  simp only [State.get, show pgMast + MAST.ALERT_CAUSE.off = 0x60 from rfl]
  rw [h]

theorem alertSet_leaves (hB : B 0x60) (h : Leaves B s t) (hs : AlertSet c s) : AlertSet c t := alertSet_congr (h.word _ hB) hs

theorem alertSet_alert_same (hc : c < 7) (s : State) : AlertSet c (alert c s) := bitAt_get_setBit_same _ _ _ _ _ (by decide) hc

/-- A cause of ALERT_N that is set stays set. -/
theorem lingers_alertSet (hc : c < 7) : Lingers (AlertSet c) where
  alert c' _ hs := bitAt_get_setBit_true c' (by decide) hc hs
  write _ v _ _ ha hs := alertSet_congr (word_setWord_other _ v (Ne.symm ha)) hs
  log _ _ hs := alertSet_congr rfl hs

theorem alertSet_raiseEvent (hc : c < 7) {e : Event} (he : e.alert = some c) (s : State) : AlertSet c (raiseEvent e s) :=
  lingers_raiseEvent (lingers_alertSet hc) e (.inr ⟨c, he, alertSet_alert_same hc s⟩)

theorem alertSet_settle (hc : c < 7) (r : State) (hs : AlertSet c s) : AlertSet c (settle r s) := by
  have hP := lingers_alertSet hc
  have h1 : AlertSet c (summaries r s) :=
    alertSet_leaves (B := (· = 0x60)) rfl (leaves_summaries (by rintro _ rfl; simp [NoSummaryPlace]) (.refl s)) hs
  have h2 : AlertSet c (doneAlert r (summaries r s)) := keeps_ite (fun _ => lingers_pageEvent hP _ h1) fun _ => h1
  have h3 : AlertSet c (doneSeen (doneAlert r (summaries r s))) :=
    alertSet_leaves (B := (· = 0x60)) rfl (leaves_doneSeen (.refl _)) h2
  rw [settle_eq]
  exact alertSet_leaves (B := (· = 0x60)) rfl (leaves_orderEdge r (.refl _)) (lingers_settleEos hP h3)

/-! ### The main domain at the end of an edge -/

theorem counts_m (s : State) : (counts s).m = s.m := by
  unfold counts
  simp only [set_m]
  exact keeps_foldl (P := fun u => u.m = s.m) (fun _ _ _ hu => hu) rfl

theorem summaries_m (r s : State) : (summaries r s).m = s.m := by
  unfold summaries bringup
  simp only [set_m, counts_m]

theorem settleEos_m (s : State) : (settleEos s).m = s.m := lingers_settleEos (lingers_m s.m) rfl

theorem portWindow_settle (r s : State) : (settle r s).m.portWindow = s.m.portWindow := by
  have h1 : (doneAlert r (summaries r s)).m = s.m := by
    unfold doneAlert
    split <;> simp only [pageEvent_m, summaries_m]
  obtain ⟨-, -, hm, -⟩ := orderEdge_frame r (settleEos (doneSeen (doneAlert r (summaries r s))))
  rw [settle_eq, hm, settleEos_m, ← h1]
  unfold doneSeen
  split <;> rfl

/-! ## The clauses on landings and ports -/

/-- The self-test of a landing has ended in this wake. -/
def markTested (k : Nat) (s : State) : State := { s with m := { s.m with landingTested := k :: s.m.landingTested } }

/-- A landing's READY or FAILED bit set as its self-test ends. -/
def landingEntry (k : Nat) (F : Fld) (s : State) : State := (markTested k s).setBit pgRoster F k true

/-- FAILED stands apart from READY. -/
theorem landingReady_failed (k : Nat) (s : State) :
    landingReady (landingEntry k ROSTER.LANDING_READY_FAILED s) k = landingReady s k := by
  unfold landingReady landingEntry State.setBit
  rw [get_set_disjoint (markTested k s) (p := pgRoster) (q := pgRoster) (F := ROSTER.LANDING_READY_FAILED)
    (G := ROSTER.LANDING_READY_READY) _ rfl (by decide) (by decide)]
  rfl

theorem exec_landingSelfTestEnd {k : LandingId} {passed : Bool} (ha : awake s = true) (hr : landingRail s k.val = true)
    (ht : k.val ∉ s.m.landingTested) : exec (.landingSelfTestEnd k passed) s = .next (settle s
      (if passed then startEnds (56 + k.val) (landingEntry k.val ROSTER.LANDING_READY_READY s)
        else raiseEvent { code := 0x2005, arg0 := k.val, alert := some acTest }
          (landingEntry k.val ROSTER.LANDING_READY_FAILED s))) := by
  have hx : exec (.landingSelfTestEnd k passed) s = execLandingSelfTestEnd k passed s := rfl
  rw [hx, execLandingSelfTestEnd, ifAwake_on ha, if_neg (by simp [hr, ht])]
  rfl

theorem landingWord_places : (· = 0x10054) ≤ MainPlace ∧ (· = 0x10054) ≤ NoEndPlace ∧ (· = 0x10054) ≤ NoSummaryPlace := by
  refine ⟨?_, ?_, ?_⟩ <;>
    · rintro _ rfl
      simp [MainPlace, NoEndPlace, NoSummaryPlace]

/-- A landing whose self-test ends well is ready. -/
theorem landing_passes {k : LandingId} (ha : awake s = true) (hr : landingRail s k.val = true) (ht : k.val ∉ s.m.landingTested) :
    ∃ s', exec (.landingSelfTestEnd k true) s = .next s' ∧ landingReady s' k.val = true ∧ k.val ∈ s'.m.landingTested := by
  refine ⟨_, exec_landingSelfTestEnd ha hr ht, ?_⟩
  obtain ⟨hM, hE, hS⟩ := landingWord_places
  rw [if_pos rfl]
  have hl := leaves_settle s hM hS (leaves_startEnds hE (56 + k.val) 
    (.refl (landingEntry k.val ROSTER.LANDING_READY_READY s)))
  refine ⟨?_, ?_⟩
  · rw [landingReady, hl.get _ _ rfl]
    exact bitAt_get_setBit_same _ _ _ _ _ (by decide) k.isLt
  · rw [hl.tested]
    exact List.mem_cons_self

/-- A landing whose self-test ends badly is FAILED, and ALERT_N is asserted. -/
theorem landing_fails {k : LandingId} (ha : awake s = true) (hr : landingRail s k.val = true) (ht : k.val ∉ s.m.landingTested)
    (hn : landingReady s k.val = false) :
    ∃ s', exec (.landingSelfTestEnd k false) s = .next s' ∧ bitAt (s'.get pgRoster ROSTER.LANDING_READY_FAILED) k.val = true ∧
      landingReady s' k.val = false ∧ bitAt (s'.get pgMast MAST.ALERT_CAUSE) acTest = true := by
  refine ⟨_, exec_landingSelfTestEnd ha hr ht, ?_⟩
  obtain ⟨hM, hE, hS⟩ := landingWord_places
  rw [if_neg (by decide)]
  have hl := leaves_settle s hM hS (leaves_raiseEvent hM { code := 0x2005, arg0 := k.val, alert := some acTest } 
    (.refl (landingEntry k.val ROSTER.LANDING_READY_FAILED s)))
  refine ⟨?_, ?_, alertSet_settle (by decide) s (alertSet_raiseEvent (by decide) rfl _)⟩
  · rw [hl.get _ _ rfl]
    exact bitAt_get_setBit_same _ _ _ _ _ (by decide) k.isLt
  · rw [landingReady, hl.get _ _ rfl]
    exact (landingReady_failed k.val s).trans hn

/-- A window that has passed is counted so. -/
theorem portWindow_passes {k : LandingId} {p : Nat} (ha : awake s = true) (hr : landingReady s k.val = true)
    (hu : portUp s k.val p = false) (hp : p < landingPorts s k.val) :
    ∃ s', exec (.portWindowExpiry k p) s = .next s' ∧ 4 * k.val + p ∈ s'.m.portWindow := by
  have hx : exec (.portWindowExpiry k p) s = execPortWindowExpiry k p s := rfl
  rw [hx, execPortWindowExpiry, ifAwake_on ha]
  by_cases hc : 4 * k.val + p ∈ s.m.portWindow
  · exact ⟨s, by simp [hc], hc⟩
  · rw [if_neg (by simp [hr, hu, hp, hc])]
    refine ⟨_, rfl, ?_⟩
    rw [onRoster, portWindow_settle]
    simp

end Sys2Proof.Machine
end

section
namespace Sys2Proof.Machine
open Sys2Proof

variable {s t : State} {x : MapArea} {r : MapRec} {g : Nat} {nums : List (Nat × Nat)}

/-! ## The defect map: records in slots -/

theorem recHigh_lt (h : r.ok = true) : recHigh r < 2 ^ 96 := by
  simp only [MapRec.ok, Bool.and_eq_true, decide_eq_true_eq] at h
  have := r.gen.isLt
  unfold recHigh
  omega

/-- A record read from the slot that holds it. -/
theorem slotRec_recBits (h : r.ok = true) : slotRec (BitVec.ofNat 128 (recBits r)) = some r := by
  have hhigh := recHigh_lt h
  have hcrc := (crc32c (bytesOf (recHigh r) 12)).isLt
  have hn : (BitVec.ofNat 128 (recBits r)).toNat = recBits r := by
    rw [BitVec.toNat_ofNat, Nat.mod_eq_of_lt]
    unfold recBits
    omega
  have hdiv : recBits r / 2 ^ 32 = recHigh r := by
    unfold recBits
    omega
  have hlow : BitVec.ofNat 32 (recBits r) = crc32c (bytesOf (recHigh r) 12) := by
    apply BitVec.eq_of_toNat_eq
    rw [BitVec.toNat_ofNat]
    unfold recBits
    omega
  have hbits : ∀ lo n, bits (recBits r) (32 + lo) n = bits (recHigh r) lo n := fun lo n => by
    rw [bits, bits, Nat.pow_add, ← Nat.div_div_eq_div_mul, hdiv]
  have hgen := r.gen.isLt
  have hok := h
  simp only [MapRec.ok, Bool.and_eq_true, decide_eq_true_eq] at h
  obtain ⟨⟨⟨⟨⟨⟨-, hk⟩, hs⟩, hf⟩, hl⟩, hr⟩, hq⟩ := h
  have hrec : (⟨BitVec.ofNat 32 (bits (recBits r) 96 32), bits (recBits r) 92 4, bits (recBits r) 88 4, bits (recBits r) 82 6,
      bits (recBits r) 64 18, bits (recBits r) 56 8, bits (recBits r) 32 24⟩ : MapRec) = r := by
    rw [hbits 64, hbits 60, hbits 56, hbits 50, hbits 32, hbits 24, hbits 0]
    obtain ⟨gen, kind, source, field, locator, remark, logseq⟩ := r
    simp only [recHigh, bits] at *
    simp only [MapRec.mk.injEq]
    refine ⟨?_, ?_, ?_, ?_, ?_, ?_, ?_⟩
    · apply BitVec.eq_of_toNat_eq
      rw [BitVec.toNat_ofNat]
      omega
    all_goals omega
  unfold slotRec
  simp only [hn, hdiv, hlow, hrec, hok]
  simp

theorem record_recSlot (h : r.ok = true) : (recSlot r).record = some r := slotRec_recBits h

/-- A record that a slot holds has fields that fit. -/
theorem ok_of_record {y : MapSlot} (h : y.record = some r) : r.ok = true := by
  cases y with
  | torn => cases h
  | word w =>
    simp only [MapSlot.record, slotRec] at h
    split at h
    · next hok =>
      cases h
      exact hok.2
    · cases h

/-- An erased slot holds no record: its KIND is reserved. -/
theorem isErased_of_record {y : MapSlot} (h : y.record = some r) : y.isErased = false := by
  cases y with
  | torn => rfl
  | word w =>
    by_contra he
    have hw : w = BitVec.allOnes 128 := by simpa [MapSlot.isErased] using he
    subst hw
    simp only [MapSlot.record, slotRec] at h
    split at h
    · next hok => exact absurd hok.2 (by decide)
    · cases h

theorem ok_relinkRec (h : r.ok = true) : (relinkRec g nums r).ok = true := by
  unfold relinkRec
  split
  · split
    · simp only [MapRec.ok, Bool.and_eq_true, decide_eq_true_eq] at h ⊢
      exact ⟨h.1, Nat.mod_lt _ (by decide)⟩
    · exact h
  · exact h

/-- A new number changes no record's item. -/
theorem relinkRec_item (r : MapRec) : (relinkRec g nums r).kind = r.kind ∧ (relinkRec g nums r).field = r.field ∧
    (relinkRec g nums r).locator = r.locator := by
  unfold relinkRec
  split
  · split <;> exact ⟨rfl, rfl, rfl⟩
  · exact ⟨rfl, rfl, rfl⟩

theorem relinkRec_of_le (h : r.gen.toNat ≤ g) : relinkRec g nums r = r := if_neg (Nat.not_lt.2 h)

theorem relinkRec_nil (r : MapRec) : relinkRec g [] r = r := by
  unfold relinkRec
  split <;> rfl

theorem record_relinkSlot (y : MapSlot) : (relinkSlot g nums y).record = y.record.map (relinkRec g nums) := by
  unfold relinkSlot
  split
  · next r hr =>
    split
    · next heq => rw [hr, Option.map_some, heq]
    · rw [hr, Option.map_some, record_recSlot (ok_relinkRec (ok_of_record hr))]
  · next hr => rw [hr]; rfl

theorem isErased_relinkSlot (y : MapSlot) : (relinkSlot g nums y).isErased = y.isErased := by
  have hrec := record_relinkSlot (g := g) (nums := nums) y
  cases hr : y.record with
  | none => simp [relinkSlot, hr]
  | some r =>
    rw [hr] at hrec
    rw [isErased_of_record hr, isErased_of_record hrec]

/-- The area with its records linked to new numbers. -/
def relinkArea (g : Nat) (nums : List (Nat × Nat)) (x : MapArea) : MapArea := { x with slots := x.slots.map (relinkSlot g nums) }

theorem recs_relinkArea : (relinkArea g nums x).recs = x.recs.map (relinkRec g nums) := by
  have hread : (relinkArea g nums x).read = x.read.map (relinkSlot g nums) := by
    simp only [MapArea.read, relinkArea, List.takeWhile_map]
    congr 2
    funext y
    simp [isErased_relinkSlot]
  rw [MapArea.recs, hread, List.filterMap_map, MapArea.recs, List.map_filterMap]
  congr 1
  funext y
  exact record_relinkSlot y

/-- The current area depends on the headers alone. -/
theorem mapA_relink (h : t.map = relinkMap g nums s.map) : mapA t = (mapA s).map (relinkArea g nums) := by
  simp only [mapA, currentOf, h]
  have hix : currentIx (relinkMap g nums s.map).waferId (relinkMap g nums s.map).a0 (relinkMap g nums s.map).a1 =
    currentIx s.map.waferId s.map.a0 s.map.a1 := rfl
  rw [hix, Option.map_map]
  congr 1
  funext i
  simp only [Function.comp]
  split <;> rfl

theorem recsA_relink (h : t.map = relinkMap g nums s.map) : recsA t = (recsA s).map (relinkRec g nums) := by
  rw [recsA, recsA, mapA_relink h]
  cases mapA s with
  | none => rfl
  | some x => exact recs_relinkArea

theorem le_foldl_max (l : List MapRec) (n : Nat) : n ≤ l.foldl (fun g r => max g r.gen.toNat) n ∧
    ∀ r ∈ l, r.gen.toNat ≤ l.foldl (fun g r => max g r.gen.toNat) n := by
  induction l generalizing n with
  | nil => exact ⟨le_rfl, nofun⟩
  | cons q l ih =>
    obtain ⟨hn, hl⟩ := ih (max n q.gen.toNat)
    refine ⟨(Nat.le_max_left _ _).trans hn, fun r hr => ?_⟩
    obtain rfl | hr := List.mem_cons.1 hr
    · exact (Nat.le_max_right _ _).trans hn
    · exact hl r hr

/-- Every record's generation is at most the map generation. -/
theorem gen_le (h : r ∈ x.recs) : r.gen.toNat ≤ x.gen := (le_foldl_max x.recs x.baseGen.toNat).2 r h

/-! ### Copy A at the end of an edge -/

theorem lingers_map (m : MapSt) : Lingers fun s => s.map = m := ⟨fun _ _ h => h, fun _ _ _ _ _ h => h, fun _ _ h => h⟩

@[simp] theorem raiseEvent_map (e : Event) (s : State) : (raiseEvent e s).map = s.map :=
  lingers_raiseEvent (lingers_map s.map) e (.inl rfl)

theorem counts_map (s : State) : (counts s).map = s.map := by
  unfold counts
  simp only [set_map]
  exact keeps_foldl (P := fun u => u.map = s.map) (fun _ _ _ hu => hu) rfl

theorem summaries_map (r s : State) : (summaries r s).map = s.map := by
  unfold summaries bringup
  simp only [set_map, counts_map]

/-- The generation above which the records of an edge stand. -/
def edgeGen (s : State) : Nat := ((mapA s).map MapArea.gen).getD 0

theorem settle_map (r s : State) : (settle r s).map = s.map ∨ ∃ nums, (settle r s).map = relinkMap (edgeGen r) nums s.map := by
  have hP := lingers_map s.map
  have h1 : (doneAlert r (summaries r s)).map = s.map :=
    keeps_ite (P := fun u => u.map = s.map) (fun _ => lingers_pageEvent hP _ (summaries_map r s)) fun _ => summaries_map r s
  have h2 : (doneSeen (doneAlert r (summaries r s))).map = s.map :=
    keeps_ite (P := fun u => u.map = s.map) (fun _ => h1) fun _ => h1
  have h3 := lingers_settleEos hP h2
  rw [settle_eq]
  unfold orderEdge
  dsimp only
  split
  · exact .inl h3
  · rw [← h3]
    exact .inr ⟨_, rfl⟩

/-- The records of copy A at the end of an edge: those of the edge take new numbers. -/
theorem recsA_settle (r s : State) : ∃ nums, recsA (settle r s) = (recsA s).map (relinkRec (edgeGen r) nums) := by
  obtain h | ⟨nums, h⟩ := settle_map r s
  · refine ⟨[], ?_⟩
    rw [recsA, mapA, h, show relinkRec (edgeGen r) [] = id from funext relinkRec_nil, List.map_id]
    rfl
  · exact ⟨nums, recsA_relink h⟩

/-- An edge that adds no record leaves copy A's records. -/
theorem recsA_settle_of_same {r : State} (h : recsA s = recsA r) : recsA (settle r s) = recsA r := by
  obtain ⟨nums, hn⟩ := recsA_settle r s
  rw [hn, h]
  refine (List.map_congr_left fun q hq => ?_).trans (List.map_id _)
  refine relinkRec_of_le ?_
  unfold recsA at hq
  unfold edgeGen
  cases hx : mapA r with
  | none => simp [hx] at hq
  | some x => 
    rw [hx] at hq
    exact gen_le hq

theorem hasRec_settle (r s : State) (k f l : Nat) : hasRec (settle r s) k f l = hasRec s k f l := by
  obtain ⟨nums, hn⟩ := recsA_settle r s
  rw [hasRec, hn, List.any_map, hasRec]
  congr 1
  funext q
  obtain ⟨hk, hf, hl⟩ := relinkRec_item (g := edgeGen r) (nums := nums) q
  simp only [Function.comp, hk, hf, hl]

end Sys2Proof.Machine
end

section
namespace Sys2Proof.Machine
open Sys2Proof

variable {B : Nat → Prop} {s u v : State}

/-! ## No FIELD record due -/

theorem foldl_fixed {α : Type} {g : State → α → State} {l : List α} (h : ∀ b ∈ l, g s b = s) : l.foldl g s = s :=
  keeps_foldl (P := fun u => u = s) (fun _ b hb hu => by rw [hu, h b hb]) rfl

/-- An edge on which no FIELD record is due, and none was added, changes no more. -/
theorem newFieldRecords_noop (hd : NoFieldRecordDue u) (hr : ∀ f ∈ retiredFields (retiredRecs u), fieldRetired s f = true) :
    newFieldRecords s u = u := by
  have h1 : fieldRecords u = u := foldl_fixed fun f hf => by
    simp [fieldRecord, hd f (List.mem_filter.1 hf).2]
  have h2 : (retiredFields (retiredRecs u)).filter (fun f => !fieldRetired s f && fieldState u f != 7) = [] :=
    List.filter_eq_nil_iff.2 fun f hf => by simp [hr f hf]
  simp only [newFieldRecords, h1, h2, List.foldl_nil]

theorem newFieldRecords_of_same (hd : NoFieldRecordDue s) (hrec : recsA u = recsA s) (hun : u.m.unrecorded = s.m.unrecorded) :
    newFieldRecords s u = u := by
  have hret : ∀ f, fieldRetired u f = fieldRetired s f := fun f => by simp only [fieldRetired, retiredRecs, hrec, hun]
  refine newFieldRecords_noop (fun f hf => ?_) fun f hf => ?_
  · rw [hret]
    refine hd f ?_
    rw [← hf]
    simp only [allTilesRecorded, tileRecorded, hasRec, hrec]
  · rw [← hret]
    exact List.contains_iff_mem.2 hf

/-! ### A step on the registers alone -/

/-- The main domain and the defect map stay. -/
def OnlyRegs (s u : State) : Prop := u.m = s.m ∧ u.map = s.map

theorem OnlyRegs.trans (h : OnlyRegs s u) (h' : OnlyRegs u v) : OnlyRegs s v := ⟨h'.1.trans h.1, h'.2.trans h.2⟩

theorem onlyRegs_raiseEvent (e : Event) (s : State) : OnlyRegs s (raiseEvent e s) := ⟨raiseEvent_m e s, raiseEvent_map e s⟩

theorem onlyRegs_enterPassed (f t : Nat) (s : State) : OnlyRegs s (enterPassed f t s) := by
  have h1 : OnlyRegs s (setTileState f t (passedState s f t) s) := ⟨rfl, rfl⟩
  refine keeps_ite (fun _ => h1) fun _ => h1.trans ?_
  exact keeps_ite (fun _ => ⟨rfl, rfl⟩) fun _ => ⟨rfl, rfl⟩

theorem onlyRegs_promote1 (f t : Nat) (s : State) : OnlyRegs s (promote1 f t s) :=
  keeps_ite (fun _ => onlyRegs_enterPassed f t s) fun _ => ⟨rfl, rfl⟩

theorem onlyRegs_failTile (f t : Nat) (s : State) : OnlyRegs s (failTile f t s) := by
  have h1 : OnlyRegs s (countTest f false (setTileState f t 5 s)) := ⟨rfl, rfl⟩
  exact (h1.trans (onlyRegs_promote1 f _ _)).trans (onlyRegs_promote1 f _ _)

theorem recsA_of_map (h : u.map = s.map) : recsA u = recsA s := by
  rw [recsA, recsA, mapA, mapA, h]

/-! ### An escalated stop -/

theorem stop_stops {f : FieldId} {t : TileId} {x : BitVec 96} (ha : awake s = true) (hm : .stop f t x ∈ s.m.x.escs)
    (h2 : tileState s f.val t.val = 2) (hd : NoFieldRecordDue s) (hr : (s.rig (keyOf f t)).run = .escalated) :
    ∃ s', exec (.escalationReachesRoster (.stop f t x)) s = .next s' ∧ tileState s' f.val t.val = 8 := by
  refine ⟨_, exec_escalation ha (.inl hm), ?_⟩
  obtain ⟨hL, hS, -⟩ := tileWord_place (f := f.val) (by omega) t.isLt
  have hM := hL.trans lowPlace_le_mainPlace
  let u := raiseEvent { code := 0x4001, field := f.val, tile := t.val, arg0 := x.toNat % 2 ^ 32, arg1 := x.toNat / 2 ^ 32 % 2 ^ 32 }
    (takeEsc (.stop f t x) s)
  have hu : OnlyRegs (takeEsc (.stop f t x) s) u := onlyRegs_raiseEvent _ _
  have hu2 : tileState u f t = 2 := (tileState_congr ((leaves_raiseEvent hM _ (.refl _)).word _ rfl)).trans h2
  have hrig : (u.rig (tileKey f t)).run = .escalated := by
    rw [State.rig, hu.1]
    exact hr
  have hesc : escalation (.stop f t x) (takeEsc (.stop f t x) s) = setTileState f t 8 u := if_pos ⟨.inl hu2, hrig⟩
  have hun : (setTileState f t 8 u).m.unrecorded = s.m.unrecorded := by
    change u.m.unrecorded = (takeEsc (.stop f t x) s).m.unrecorded
    rw [hu.1]
  have hrec : recsA (setTileState f t 8 u) = recsA s := recsA_of_map hu.2
  rw [hesc, newFieldRecords_of_same hd hrec hun,
    tileState_congr ((leaves_settle s hM hS (.refl _)).word _ rfl)]
  exact tileState_setTileState_same u f t (by decide)

/-! ## The clauses on the tests of tiles -/

variable {f t t' : Nat}

/-- The parts of the address of a word of TILE_STATE. -/
theorem tileWord_parts (hf : f < 56) (ht : t < 468) : clsOf (tileWord f t) = 0 ∧ fieldOf (tileWord f t) = 0 ∧
    tileOf (tileWord f t) = 0 ∧ pageNoOf (tileWord f t) = 64 + f ∧ offOf (tileWord f t) = 256 + 4 * (t / 8) := by
  rw [tileWord_eq]
  simp only [clsOf, fieldOf, tileOf, pageNoOf, offOf, bits]
  omega

theorem rostfFields_reset : ∀ F ∈ rostfFields, F.reset = 0 := by decide

theorem resetWord_tileWord (hf : f < 56) (ht : t < 468) : resetWord (tileWord f t) = 0 := by
  obtain ⟨hc, hfi, hti, hp, ho⟩ := tileWord_parts hf ht
  have hk : storeKind (tileWord f t) = some .rostf := by
    simp only [storeKind, kindOf, hc, hfi, hti, hp]
    grind
  have hfold : ∀ l : List Fld, (∀ F ∈ l, F.reset = 0) → l.foldl (fun (m : Word) F =>
      if PageKind.rostf = .haws ∧ offOf (tileWord f t) = 0x040 then m
        else m ||| BitVec.ofNat 32 (F.reset % 2 ^ F.width * 2 ^ F.lo)) 0 = 0 := fun l hl => by
    induction l with
    | nil => rfl
    | cons F l ih => simpa [hl F List.mem_cons_self] using ih fun G hG => hl G (List.mem_cons_of_mem _ hG)
  unfold resetWord
  rw [hk]
  dsimp only
  rw [if_neg (by omega)]
  refine hfold _ fun F hF => rostfFields_reset F ?_
  simp only [fieldsAt, ownFields] at hF
  rw [if_neg (by omega)] at hF
  exact (List.mem_filter.1 hF).1

theorem mem_of_lookup_ne {α : Type} {d : α} {l : List (Nat × α)} {a : Nat} (h : lookup d l a ≠ d) : (a, lookup d l a) ∈ l := by
  induction l with
  | nil => exact absurd rfl h
  | cons e l ih =>
    obtain ⟨k, v⟩ := e
    simp only [lookup] at h ⊢
    split
    · next hk => rw [hk]; exact List.mem_cons_self
    · next hk =>
      rw [if_neg hk] at h
      exact List.mem_cons_of_mem _ (ih h)

/-- A tile under test shows that its field is. -/
theorem underTest_of_tile (hf : f < 56) (ht : t < 468) (h : tileState s f t = 1) : underTest s f = true := by
  obtain ⟨hc, -, -, hp, ho⟩ := tileWord_parts hf ht
  have hget : s.get (pgRostf f) (ROSTF.TILE_STATE.at (t / 8)) = (s.word (tileWord f t)).toNat := by
    have hlt := (s.word (tileWord f t)).isLt
    change (s.word (tileWord f t)).toNat / 2 ^ 0 % 2 ^ 32 = _
    omega
  have hne : s.word (tileWord f t) ≠ resetWord (tileWord f t) := fun h0 => by
    rw [tileState, hget, h0, resetWord_tileWord hf ht] at h
    simp [bits] at h
  have hmem : (f, (s.word (tileWord f t)).toNat) ∈ tileWords s := by
    refine List.mem_map.2 ⟨(tileWord f t, s.word (tileWord f t)), List.mem_filter.2 ⟨mem_of_lookup_ne hne, ?_⟩, ?_⟩
    · simp [hc, hp, ho]
      omega
    · simp [hp]
  refine List.any_eq_true.2 ⟨_, hmem, ?_⟩
  have hent : t % 8 ∈ (List.range 8).filter fun i => bits (s.word (tileWord f t)).toNat (4 * i) 4 == 1 :=
    List.mem_filter.2 ⟨List.mem_range.2 (by omega), by rw [← hget]; simpa [tileState] using h⟩
  simp [entries, List.length_pos_of_mem hent]

theorem finishBist_of_tile (hf : f < 56) (ht : t < 468) (h : tileState s f t = 1) : finishBist f s = s :=
  if_pos (.inr (underTest_of_tile hf ht h))

theorem exec_tileTestEnd {f : FieldId} {t : TileId} {part : Option Nat} {banks : List Nat} (ha : awake s = true)
    (hf : fieldState s f.val = 2) (ht : tileState s f.val t.val = 1) : exec (.tileTestEnd f t part banks) s =
      .next (settle s (newFieldRecords s (tileTestEnd f.val t.val part banks s))) := by
  have hx : exec (.tileTestEnd f t part banks) s = execTileTestEnd f t part banks s := rfl
  rw [hx, execTileTestEnd, ifAwake_on ha, if_pos ⟨hf, ht⟩]
  rfl

/-- The places of a field's entries and counts of tests. -/
def TestPlace (f a : Nat) : Prop := a = pgRostf f + 0x44 ∨ ∃ t < 468, a = tileWord f t

theorem testPlace_places (hf : f < 56) : TestPlace f ≤ LowPlace ∧ TestPlace f ≤ NoSummaryPlace := by
  refine ⟨?_, ?_⟩ <;> rintro a (rfl | ⟨t, ht, rfl⟩)
  · rw [pgRostf_eq]
    simp only [LowPlace]
    omega
  · exact (tileWord_place (by omega) ht).1 _ rfl
  · rw [pgRostf_eq]
    simp only [NoSummaryPlace]
    omega
  · exact (tileWord_place (by omega) ht).2.1 _ rfl

/-- The edge's summaries leave a field's entries and counts of tests. -/
theorem leaves_testPlace_settle (hf : f < 56) (s u : State) : Leaves (TestPlace f) u (settle s u) :=
  have ⟨hL, hS⟩ := testPlace_places hf
  leaves_settle s (hL.trans lowPlace_le_mainPlace) hS (.refl u)

/-- A test of a tile counted. -/
theorem tileState_countTest (f' : Nat) (b : Bool) (s : State) (ht : t < 468) : tileState (countTest f' b s) f t = tileState s f t := by
  refine tileState_congr (word_set_other _ _ ?_)
  rw [tileWord_eq, pgRostf_eq]
  cases b <;> simp only [ROSTF.BIST_RESULT_PASSED, ROSTF.BIST_RESULT_FAILED, if_true, if_false, Bool.false_eq_true] <;> omega

/-- The words of BIST_RESULT are not written with an entry. -/
theorem leaves_enterPassed_result (f t : Nat) (ht : t < 468) (hf : f < 56) (s : State) :
    Leaves (· = pgRostf f + 0x44) s (enterPassed f t s) := by
  refine leaves_enterPassed ?_ ?_ (.refl s) <;> rintro _ rfl
  · rw [pgRostf_eq]
    simp only [NoTilePlace]
    omega
  · exact ne_tileWord ht (by rw [pgRostf_add_mod f (by decide)]; decide)

/-! ### A tile that passes -/

/-- A tile with a bank in service passes its test where no part and no bank failed. -/
theorem tileTestEnd_passed (h : s.get (pgTile f t 0) TP0.BANK_STATUS_IN_SERVICE ≠ 0) :
    tileTestEnd f t none [] s = finishBist f (countTest f true (enterPassed f t s)) := by
  have hlive : ¬([] = (List.range 8).filter fun b => bitAt (s.get (pgTile f t 0) TP0.BANK_STATUS_IN_SERVICE) b) := fun h0 => by
    refine h (Nat.eq_of_testBit_eq fun i => ?_)
    rw [Nat.zero_testBit, ← bitAt_eq_testBit]
    by_cases hi : i < 8
    · have := List.filter_eq_nil_iff.1 h0.symm i (List.mem_range.2 hi)
      simpa using this
    · rw [bitAt_eq_testBit]
      exact Nat.testBit_lt_two_pow (lt_of_lt_of_le (get_lt s _ _) (Nat.pow_le_pow_right (by decide) (Nat.not_lt.1 hi)))
  unfold tileTestEnd
  simp [hlive]

theorem tile_passes {f : FieldId} {t t' : TileId} (ha : awake s = true) (hne : t' ≠ t) (hf : fieldState s f.val = 2)
    (ht : tileState s f.val t.val = 1) (ht' : tileState s f.val t'.val = 1) (hd : NoFieldRecordDue s)
    (hb : s.get (pgTile f.val t.val 0) TP0.BANK_STATUS_IN_SERVICE ≠ 0) :
    ∃ s', exec (.tileTestEnd f t none []) s = .next s' ∧ tileState s' f.val t.val = passedState s f.val t.val ∧
      recsA s' = recsA s ∧ s'.get (pgRostf f.val) ROSTF.BIST_RESULT_PASSED =
        (s.get (pgRostf f.val) ROSTF.BIST_RESULT_PASSED + 1) % 2 ^ ROSTF.BIST_RESULT_PASSED.width := by
  refine ⟨_, exec_tileTestEnd ha hf ht, ?_⟩
  have hf64 : f.val < 64 := by omega
  let u := countTest f true (enterPassed f t s)
  have hu' : tileState u f t' = 1 := by
    rw [tileState_countTest _ _ _ t'.isLt, tileState_enterPassed_other s hf64 t.isLt t'.isLt (Fin.val_ne_of_ne hne), ht']
  have hend : tileTestEnd f t none [] s = u := (tileTestEnd_passed hb).trans (finishBist_of_tile f.isLt t'.isLt hu')
  have honly : OnlyRegs s u := onlyRegs_enterPassed f t s
  have hrec : recsA u = recsA s := recsA_of_map honly.2
  have hl := leaves_testPlace_settle f.isLt s u
  rw [hend, newFieldRecords_of_same hd hrec (by rw [honly.1])]
  refine ⟨?_, recsA_settle_of_same hrec, ?_⟩
  · rw [tileState_congr (hl.word _ (.inr ⟨t, t.isLt, rfl⟩)), tileState_countTest _ _ _ t.isLt,
      tileState_enterPassed_same s hf64 t.isLt]
  · rw [hl.get _ _ (.inl rfl)]
    refine (get_set_same _ _ _ _ (by decide)).trans ?_
    rw [(leaves_enterPassed_result f t t.isLt f.isLt s).get _ _ rfl]
    rfl

/-! ### A tile that fails -/

theorem mapRegs_frame (s : State) : (mapRegs s).map = s.map ∧ (mapRegs s).m = s.m := by
  unfold mapRegs showRecord
  simp only [set_map, set_m, and_self]

/-- Copy A after a record has been appended to it. -/
theorem recsA_appendA_eq (r : MapRec) (s : State) : recsA (appendA r s) = recsA (slotA r s) := by
  have hf := flashStep_followA r (slotA r s)
  obtain ⟨h0, h1, hid⟩ : _ ∧ _ ∧ _ := by simpa only [Prod.mk.injEq] using hf.areas
  rw [appendA_eq, recsA, mapA, (mapRegs_frame _).1, h0, h1, hid]
  rfl

theorem appendA_m (r : MapRec) (s : State) : (appendA r s).m = s.m := by
  rw [appendA_eq, (mapRegs_frame _).2, (flashStep_followA r _).main, (slotA_frame r s).2]

/-- An area with a record behind its others. -/
def addSlot (r : MapRec) (x : MapArea) : MapArea := { x with slots := x.slots ++ [recSlot r] }

theorem recs_addSlot {x : MapArea} {r : MapRec} (hx : NoneErased x) (hr : r.ok = true) : (addSlot r x).recs = x.recs ++ [r] := by
  have hall : ∀ y ∈ x.slots, (!y.isErased) = true := fun y hy => by simp [hx y hy]
  have hnew : (recSlot r).isErased = false := isErased_of_record (record_recSlot hr)
  simp only [MapArea.recs, MapArea.read, addSlot]
  rw [List.takeWhile_append_of_pos hall, List.takeWhile_eq_self_iff.2 hall]
  simp [hnew, record_recSlot hr]

theorem mapA_eq (s : State) : mapA s = (ixA s).map fun i => if i = 0 then s.map.a0 else s.map.a1 := rfl

theorem ixA_slotA (r : MapRec) (s : State) : ixA (slotA r s) = ixA s := by
  unfold slotA
  split <;> rfl

theorem mapA_slotA (r : MapRec) (s : State) : mapA (slotA r s) = (mapA s).map (addSlot r) := by
  rw [mapA_eq, mapA_eq, ixA_slotA]
  cases hi : ixA s with
  | none => rfl
  | some i =>
    cases i with
    | zero => simp [slotA, hi, addSlot]
    | succ n => simp [slotA, hi, addSlot]

theorem recsA_slotA {x : MapArea} {r : MapRec} (hA : mapA s = some x) (hx : NoneErased x) (hr : r.ok = true) :
    recsA (slotA r s) = recsA s ++ [r] := by
  simp only [recsA, mapA_slotA, hA, Option.map_some, Option.getD_some, recs_addSlot hx hr]

/-- The record of an entry, that room was found for. -/
def entryRec (e : MapEntry) (x : MapArea) (n : Nat) : MapRec :=
  ⟨BitVec.ofNat 32 (x.gen + 1), e.kind, e.source, e.field, e.locator, e.remark, n % 2 ^ 24⟩

theorem commitRec_of_room {x : MapArea} (e : MapEntry) (n : Nat) (hA : mapA s = some x) (hroom : x.slots.length < 4094) :
    commitRec e n s = (appendA (entryRec e x n) s, .yes) := by
  unfold commitRec
  simp only [hA, hroom, if_true]
  rfl

/-- Two states that differ in registers, log and new records of one item. -/
structure Recorded (k f l : Nat) (s u : State) : Prop where
  recs : ∃ new, recsA u = recsA s ++ new ∧ ∀ r ∈ new, r.kind = k ∧ r.field = f ∧ r.locator = l
  recorded : hasRec u k f l = true
  main : u.m = s.m

theorem Recorded.onlyRegs {k f l : Nat} (h : Recorded k f l s u) (g : OnlyRegs u v) : Recorded k f l s v := by
  have hrec := recsA_of_map g.2
  exact ⟨by rw [hrec]; exact h.recs, by rw [hasRec, hrec]; exact h.recorded, g.1.trans h.main⟩

theorem onlyRegs_raiseAll (es : List Event) (s : State) : OnlyRegs s (raiseAll es s) :=
  keeps_foldl (P := OnlyRegs s) (fun _ e _ hu => hu.trans (onlyRegs_raiseEvent e _)) ⟨rfl, rfl⟩

theorem recorded_addEntry {x : MapArea} {e : MapEntry} (n : Nat) (hA : mapA s = some x) (hx : NoneErased x)
    (hroom : x.slots.length < 4094) (hr : (entryRec e x n).ok = true) :
    Recorded e.kind e.field e.locator s (addEntry e n s).1 := by
  unfold addEntry
  split
  · next h => exact ⟨⟨[], by simp, nofun⟩, h, rfl⟩
  · rw [commitRec_of_room e n hA hroom]
    have hrec := (recsA_appendA_eq (entryRec e x n) s).trans (recsA_slotA hA hx hr)
    refine ⟨⟨_, hrec, fun q hq => ?_⟩, ?_, appendA_m _ s⟩
    · rw [List.mem_singleton.1 hq]
      exact ⟨rfl, rfl, rfl⟩
    · rw [hasRec, hrec]
      simp [entryRec]

/-- An event with its entry: the entry is in copy A where there is room. -/
theorem recorded_raiseEntry {x : MapArea} {e : MapEntry} (ev : Event) (hA : mapA s = some x) (hx : NoneErased x)
    (hroom : x.slots.length < 4094) (hr : (entryRec e x (seqFor s ev)).ok = true) :
    Recorded e.kind e.field e.locator s (raiseEntry ev e s).1 := by
  have h := recorded_addEntry (seqFor s ev) hA hx hroom hr
  unfold raiseEntry
  dsimp only
  split
  · exact h.onlyRegs (onlyRegs_raiseAll _ _)
  · exact h.onlyRegs (onlyRegs_raiseEvent _ _)
  · exact h.onlyRegs (onlyRegs_raiseEvent _ _)

/-! ### The records of a field's tiles -/

theorem tileLoc_lt (ht : t < 468) : tileLoc t < 2 ^ 18 := by
  unfold tileLoc
  omega

/-- The record of a tile that failed its test fits its bits. -/
theorem ok_tileRecord {f : Nat} (hf : f < 56) (ht : t < 468) (x : MapArea) (n : Nat) :
    (entryRec { kind := 1, source := 1, field := f, locator := tileLoc t } x n).ok = true := by
  have hl := tileLoc_lt ht
  simp only [MapRec.ok, Bool.and_eq_true, decide_eq_true_eq]
  simp only [entryRec]
  omega

theorem tileLoc_injective {t' : Nat} (h : tileLoc t = tileLoc t') : t = t' := by
  unfold tileLoc at h
  omega

/-- A field whose tiles are all recorded has as many records. -/
theorem length_of_tilesRecorded {f : Nat} (h : ∀ t < 468, tileRecorded s f t = true) : 468 ≤ (recsA s).length := by
  have hnd : ((List.range 468).map tileLoc).Nodup := List.Nodup.map (fun _ _ => tileLoc_injective) List.nodup_range
  have hsub : (List.range 468).map tileLoc ⊆ (recsA s).map MapRec.locator := fun l hl => by
    obtain ⟨t, ht, rfl⟩ := List.mem_map.1 hl
    obtain ⟨r, hr, hrt⟩ := List.any_eq_true.1 (h t (List.mem_range.1 ht))
    simp only [Bool.and_eq_true, beq_iff_eq] at hrt
    exact List.mem_map.2 ⟨r, hr, hrt.2⟩
  simpa using (hnd.subperm hsub).length_le

/-- The record of a tile makes no FIELD record due where another tile of its field has none. -/
theorem noFieldRecordDue_of_recorded {f t' : Nat} (ht' : t' < 468) (hne : t' ≠ t) (h : Recorded 1 f (tileLoc t) s u)
    (hd : NoFieldRecordDue s) (hno : tileRecorded s f t' = false) :
    NoFieldRecordDue u ∧ ∀ g, fieldRetired u g = fieldRetired s g := by
  obtain ⟨new, hrec, hnew⟩ := h.recs
  have hnew4 : new.filter (fun r => r.kind == 4) = [] :=
    List.filter_eq_nil_iff.2 fun r hr => by simp [(hnew r hr).1]
  have hret : ∀ g, fieldRetired u g = fieldRetired s g := fun g => by
    simp only [fieldRetired, retiredFields, retiredRecs, hrec, h.main, List.filter_append, hnew4, List.append_nil]
  have hold : ∀ g t'', (g ≠ f ∨ t'' ≠ t) → tileRecorded u g t'' = tileRecorded s g t'' := fun g t'' hgt => by
    have hnone : (new.any fun r => r.kind == 1 && r.field == g && r.locator == tileLoc t'') = false := by
      refine List.any_eq_false.2 fun r hr hit => ?_
      obtain ⟨-, hf, hl⟩ := hnew r hr
      simp only [Bool.and_eq_true, beq_iff_eq] at hit
      obtain ⟨⟨-, hf'⟩, hl'⟩ := hit
      exact hgt.elim (fun hg => hg (hf'.symm.trans hf)) fun ht => ht (tileLoc_injective (hl'.symm.trans hl))
    rw [tileRecorded, tileRecorded, hasRec, hasRec, hrec, List.any_append, hnone, Bool.or_false]
  refine ⟨fun g hg => ?_, hret⟩
  simp only [allTilesRecorded, Bool.and_eq_true, List.all_eq_true, List.mem_range] at hg
  obtain ⟨-, hg⟩ := hg
  have hgf : g ≠ f := by
    rintro rfl
    have := hg t' ht'
    rw [hold g t' (.inr hne), hno] at this
    cases this
  have hs : ∀ t'' < 468, tileRecorded s g t'' = true := fun t'' h'' => by rw [← hold g t'' (.inl hgf), hg t'' h'']
  rw [hret]
  refine hd g ?_
  simp only [allTilesRecorded, Bool.and_eq_true, List.all_eq_true, List.mem_range, decide_eq_true_eq]
  exact ⟨length_of_tilesRecorded hs, hs⟩

/-! ### The entry of a tile that fails -/

theorem leaves_promote1 {B : Nat → Prop} {s0 : State} (hB : B ≤ NoTilePlace) (hw : ∀ a, B a → a ≠ tileWord f t) (h : Leaves B s0 s) :
    Leaves B s0 (promote1 f t s) := leaves_ite (fun _ => leaves_enterPassed hB hw h) fun _ => h

theorem get_failTile_failed (hf : f < 56) (ht : t < 468) (s : State) :
    (failTile f t s).get (pgRostf f) ROSTF.BIST_RESULT_FAILED =
      (s.get (pgRostf f) ROSTF.BIST_RESULT_FAILED + 1) % 2 ^ ROSTF.BIST_RESULT_FAILED.width := by
  have hB : (· = pgRostf f + 0x44) ≤ NoTilePlace := by
    rintro _ rfl
    rw [pgRostf_eq]
    simp only [NoTilePlace]
    omega
  have hw : ∀ t' < 468, ∀ a, a = pgRostf f + 0x44 → a ≠ tileWord f t' := by
    rintro t' ht' _ rfl
    exact ne_tileWord ht' (by rw [pgRostf_add_mod f (by decide)]; decide)
  have h1 : Leaves (· = pgRostf f + 0x44) s (setTileState f t 5 s) := leaves_set _ (hw t ht) (.refl s)
  have h2 := leaves_promote1 hB (hw _ (tileAt_spare_lt ht (c := 25) (by decide)))
    (leaves_promote1 hB (hw _ (tileAt_spare_lt ht (c := 24) (by decide))) (.refl (countTest f false (setTileState f t 5 s))))
  have h3 : (failTile f t s).get (pgRostf f) ROSTF.BIST_RESULT_FAILED =
      (countTest f false (setTileState f t 5 s)).get (pgRostf f) ROSTF.BIST_RESULT_FAILED := h2.get _ _ rfl
  rw [h3]
  refine (get_set_same _ _ _ _ (by decide)).trans ?_
  rw [← h1.get _ ROSTF.BIST_RESULT_FAILED rfl]
  rfl

theorem tileState_failTile_same (hf : f < 56) (ht : t < 468) (s : State) : tileState (failTile f t s) f t = 5 := by
  have h1 : tileState (countTest f false (setTileState f t 5 s)) f t = 5 := by
    rw [tileState_countTest _ _ _ ht, tileState_setTileState_same _ _ _ (by decide)]
  rw [failTile, tileState_promoteRow _ (by omega) ht ht (by rw [h1]; decide), h1]

theorem tileState_failTile_other {t' : Nat} (hf : f < 56) (ht : t < 468) (ht' : t' < 468) (hne : t' ≠ t)
    (h4 : tileState s f t' ≠ 4) : tileState (failTile f t s) f t' = tileState s f t' := by
  have h1 : tileState (countTest f false (setTileState f t 5 s)) f t' = tileState s f t' := by
    rw [tileState_countTest _ _ _ ht', tileState_setTileState_other s (by decide) ht ht' (.inr hne)]
  rw [failTile, tileState_promoteRow _ (by omega) ht ht' (by rw [h1]; exact h4), h1]

/-- A part of a tile failed its test: its event and its entry. -/
def recordTile (f t p : Nat) (s : State) : State :=
  (raiseEntry { code := 0x2001, field := f, tile := t, arg0 := p } { kind := 1, source := 1, field := f, locator := tileLoc t } s).1

theorem tileTestEnd_failed (f t p : Nat) (s : State) :
    tileTestEnd f t (some p) [] s = finishBist f (failTile f t (recordTile f t p s)) := by
  simp [tileTestEnd, recordTile]

theorem tile_fails {f : FieldId} {t t' : TileId} {p : Nat} {x : MapArea} (ha : awake s = true) (hne : t' ≠ t)
    (hf : fieldState s f.val = 2) (ht : tileState s f.val t.val = 1) (ht' : tileState s f.val t'.val = 1)
    (hd : NoFieldRecordDue s) (hu : ∃ u : TileId, u ≠ t ∧ tileRecorded s f.val u.val = false) (hA : mapA s = some x)
    (hx : NoneErased x) (hroom : x.slots.length < 4094) :
    ∃ s', exec (.tileTestEnd f t (some p) []) s = .next s' ∧ tileState s' f.val t.val = 5 ∧
      tileRecorded s' f.val t.val = true ∧ s'.get (pgRostf f.val) ROSTF.BIST_RESULT_FAILED =
        (s.get (pgRostf f.val) ROSTF.BIST_RESULT_FAILED + 1) % 2 ^ ROSTF.BIST_RESULT_FAILED.width := by
  refine ⟨_, exec_tileTestEnd ha hf ht, ?_⟩
  obtain ⟨t'', hne'', hno⟩ := hu
  obtain ⟨hL, -⟩ := testPlace_places f.isLt
  let v := recordTile f t p s
  let u := failTile f t v
  have hv : Leaves (TestPlace f) s v := leaves_raiseEntry (hL.trans lowPlace_le_mainPlace) _ _ (.refl s)
  have hvt' : tileState v f t' = 1 := (tileState_congr (hv.word _ (.inr ⟨t', t'.isLt, rfl⟩))).trans ht'
  have hut' : tileState u f t' = 1 :=
    (tileState_failTile_other f.isLt t.isLt t'.isLt (Fin.val_ne_of_ne hne) (by rw [hvt']; decide)).trans hvt'
  have hend : tileTestEnd f t (some p) [] s = u :=
    (tileTestEnd_failed f t p s).trans (finishBist_of_tile f.isLt t'.isLt hut')
  have hrec : Recorded 1 f (tileLoc t) s u :=
    (recorded_raiseEntry _ hA hx hroom (ok_tileRecord f.isLt t.isLt x _)).onlyRegs (onlyRegs_failTile f t v)
  obtain ⟨hdu, hret⟩ := noFieldRecordDue_of_recorded t''.isLt (Fin.val_ne_of_ne hne'') hrec hd hno
  have hl := leaves_testPlace_settle f.isLt s u
  rw [hend, newFieldRecords_noop hdu fun g hg => by rw [← hret]; exact List.contains_iff_mem.2 hg]
  refine ⟨?_, ?_, ?_⟩
  · rw [tileState_congr (hl.word _ (.inr ⟨t, t.isLt, rfl⟩)), tileState_failTile_same f.isLt t.isLt]
  · rw [tileRecorded, hasRec_settle]
    exact hrec.recorded
  · rw [hl.get _ _ (.inl rfl), get_failTile_failed f.isLt t.isLt, hv.get _ _ (.inl rfl)]

end Sys2Proof.Machine
end

section
namespace Sys2Proof.Machine
open Sys2Proof

variable {B : Nat → Prop} {P : State → Prop} {s s0 u : State} {f t : Nat}

/-! ## The clause on the time-out of a field's test -/

/-! ### A field's rail -/

/-- No page of the rails. -/
def NoRailPlace (a : Nat) : Prop := a < 0x4000 ∨ 0x10000 ≤ a

section
variable (hB : B ≤ NoRailPlace)
include hB

theorem leaves_setMpwr {F : Fld} (v : Nat) (hF : F.off < 0x1000) (h : Leaves B s0 s) : Leaves B s0 (s.set pgMpwr F v) := by
  refine leaves_set v (fun a ha => ?_) h
  have hp := hB a ha
  unfold NoRailPlace at hp
  simp only [pgMpwr, pageAddr]
  omega

theorem leaves_setFieldRail (f : Nat) (b : Bool) (h : Leaves B s0 s) : Leaves B s0 (setFieldRail f b s) :=
  leaves_ite (fun _ => leaves_setMpwr hB _ (by decide) h) fun _ => leaves_setMpwr hB _ (by decide) h

omit hB in
theorem leaves_modP (g : PowerSt → PowerSt) (h : Leaves B s0 s) : Leaves B s0 (s.modP g) := leaves_frame h rfl rfl

theorem leaves_railOff (r : Rail) (v : Nat) (h : Leaves B s0 s) : Leaves B s0 (railOff r v s) := by
  have h1 : Leaves B s0 (operation r v s) := leaves_ite (fun _ => leaves_modP _ h) fun _ => h
  unfold railOff
  cases r with
  | field f =>
    refine leaves_setMpwr hB _ ?_ (leaves_setFieldRail hB _ _ h1)
    have hf := f.isLt
    simp only [Fld.at, MPWR.VSET_CODE]
    omega
  | landing k => exact leaves_setMpwr hB _ (by decide) h1
  | main => exact h1

theorem leaves_fieldOff (f v : Nat) (h : Leaves B s0 s) : Leaves B s0 (fieldOff f v s) :=
  leaves_ite (fun _ => h) fun _ => leaves_ite (fun _ => leaves_ite (fun _ => h) fun _ => leaves_modP _ h) fun _ =>
    leaves_railOff hB _ _ h

end

/-! ### The end of a field's test -/

/-- Places that the end of a field's test leaves, and the cause of ALERT_N. -/
def TimeoutPlace (f t a : Nat) : Prop := a = tileWord f t ∨ a = pgMast + MAST.ALERT_CAUSE.off

theorem timeoutPlace_places (hf : f < 56) (ht : t < 468) : TimeoutPlace f t ≤ NoEndPlace ∧ TimeoutPlace f t ≤ NoChanPlace ∧
    TimeoutPlace f t ≤ NoRailPlace ∧ ∀ g off, off < 0x100 → ∀ a, TimeoutPlace f t a → a ≠ pgRostf g + off := by
  unfold TimeoutPlace
  rw [tileWord_eq, show pgMast + MAST.ALERT_CAUSE.off = 0x60 from rfl]
  refine ⟨?_, ?_, ?_, ?_⟩
  case refine_4 =>
    rintro g off hoff a (rfl | rfl) <;> rw [pgRostf_eq] <;> omega
  all_goals
    rintro a (rfl | rfl) <;> simp only [NoEndPlace, NoChanPlace, NoRailPlace] <;> omega

/-- A property that the end of a field's test keeps. -/
structure Closing (f t : Nat) (P : State → Prop) : Prop where
  leaves : ∀ s u, Leaves (TimeoutPlace f t) s u → P s → P u
  event : ∀ e s, P s → P (raiseEvent e s)
  clear : ∀ g s, P s → P (clearField g s)

theorem closing_finishBist (hf : f < 56) (ht : t < 468) (hP : Closing f t P) (g : Nat) (hs : P s) : P (finishBist g s) := by
  obtain ⟨hE, hC, hR, hne⟩ := timeoutPlace_places hf ht
  have hF : Fencing (TimeoutPlace f t) P := ⟨hP.leaves, fun h e u => hP.leaves _ _ (leaves_setChan hC h e false true (.refl u))⟩
  have hset : ∀ (F : Fld) (v : Nat) (u : State), F.off < 0x100 → P u → P (u.set (pgRostf g) F v) := fun F v u hoff hu =>
    hP.leaves u _ (leaves_set v (hne g F.off hoff) (.refl u)) hu
  have h1 : P (bistCycles g s) := hset _ _ s (by decide) hs
  unfold finishBist
  split
  · exact hs
  · dsimp only
    split
    · exact hP.leaves _ _ (leaves_fieldOff hR g 0x40 (.refl _)) (hP.clear g _ (hset _ _ _ (by decide) (hP.event _ _ h1)))
    · have h2 : P (setFieldState g 3 (bistCycles g s)) := hset _ _ _ (by decide) h1
      exact fencing_startRoutes hF hE (hP.leaves _ _ (leaves_startEnds hE g (.refl _)) (fencing_dropDead hF hE g h2))

/-! ### The tiles still under test -/

/-- A tile that the time-out has failed. -/
def TimedOut (f t : Nat) (s : State) : Prop := tileState s f t = 5 ∧ AlertSet acTest s

theorem timedOut_congr (h : ∀ a, TimeoutPlace f t a → u.word a = s.word a) (hs : TimedOut f t s) : TimedOut f t u :=
  ⟨(tileState_congr (h _ (.inl rfl))).trans hs.1, alertSet_congr (h _ (.inr rfl)) hs.2⟩

theorem tileState_raiseEvent (hf : f < 56) (ht : t < 468) (e : Event) (s : State) :
    tileState (raiseEvent e s) f t = tileState s f t := by
  obtain ⟨hL, -⟩ := tileWord_place (f := f) (by omega) ht
  exact tileState_congr ((leaves_raiseEvent (hL.trans lowPlace_le_mainPlace) e (.refl s)).word _ rfl)

theorem timedOut_raiseEvent (hf : f < 56) (ht : t < 468) (e : Event) (hs : TimedOut f t s) : TimedOut f t (raiseEvent e s) :=
  ⟨(tileState_raiseEvent hf ht e s).trans hs.1, lingers_raiseEvent (lingers_alertSet (by decide)) e (.inl hs.2)⟩

theorem closing_timedOut (hf : f < 56) (ht : t < 468) : Closing f t (TimedOut f t) where
  leaves _ _ h hs := timedOut_congr h.word hs
  event e _ hs := timedOut_raiseEvent hf ht e hs
  clear g s hs := by
    refine timedOut_congr (fun a ha => word_clearField g s ?_) hs
    obtain rfl | rfl := ha
    · rw [tileWord_eq]
      omega
    · decide

theorem closing_wtime (f t w : Nat) : Closing f t fun s => s.m.wtime = w where
  leaves _ _ h hs := h.wtime.trans hs
  event _ _ hs := by rw [raiseEvent_m, hs]
  clear _ _ hs := hs

/-- One step of the time-out. -/
theorem timedOut_timeoutTile_same (hf : f < 56) (ht : t < 468) (h : tileState s f t = 1) : TimedOut f t (timeoutTile f s t) := by
  rw [timeoutTile, if_pos h]
  exact ⟨by rw [tileState_raiseEvent hf ht, tileState_failTile_same hf ht], alertSet_raiseEvent (by decide) rfl _⟩

theorem tileState_timeoutTile_other {t' : Nat} (hf : f < 56) (ht : t < 468) (ht' : t' < 468) (hne : t ≠ t')
    (h4 : tileState s f t ≠ 4) : tileState (timeoutTile f s t') f t = tileState s f t := by
  unfold timeoutTile
  split
  · rw [tileState_raiseEvent hf ht, tileState_failTile_other hf ht' ht hne h4]
  · rfl

/-- A tile that has failed stays so while the others do. -/
theorem timedOut_timeoutTile {t' : Nat} (hf : f < 56) (ht : t < 468) (ht' : t' < 468) (hs : TimedOut f t s) :
    TimedOut f t (timeoutTile f s t') := by
  obtain ⟨h5, ha⟩ := hs
  by_cases hne : t = t'
  · rw [timeoutTile, if_neg (by rw [← hne, h5]; decide)]
    exact ⟨h5, ha⟩
  · refine ⟨(tileState_timeoutTile_other hf ht ht' hne (by rw [h5]; decide)).trans h5, ?_⟩
    unfold timeoutTile
    split
    · exact alertSet_raiseEvent (by decide) rfl _
    · exact ha

theorem timedOut_fold (hf : f < 56) (ht : t < 468) (h : tileState s f t = 1) :
    TimedOut f t ((List.range 468).foldl (timeoutTile f) s) := by
  refine foldl_establishes (Q := fun u => tileState u f t = 1 ∨ TimedOut f t u) (List.mem_range.2 ht) (fun u hu => ?_)
    (fun u t' ht' hu => ?_) (fun u t' ht' hu => timedOut_timeoutTile hf ht (List.mem_range.1 ht') hu) (.inl h)
  · exact hu.elim (timedOut_timeoutTile_same hf ht) (timedOut_timeoutTile hf ht ht)
  · obtain h1 | h5 := hu
    · by_cases hne : t = t'
      · exact .inr (hne ▸ timedOut_timeoutTile_same hf ht h1)
      · exact .inl ((tileState_timeoutTile_other hf ht (List.mem_range.1 ht') hne (by rw [h1]; decide)).trans h1)
    · exact .inr (timedOut_timeoutTile hf ht (List.mem_range.1 ht') h5)

theorem timeoutTile_m (f t : Nat) (s : State) : (timeoutTile f s t).m = s.m := by
  unfold timeoutTile
  split
  · rw [raiseEvent_m, (onlyRegs_failTile f t s).1]
  · rfl

/-- The state at the WTIME of the time-out of a field's test. -/
def atTimeout (f : Nat) (s : State) : State :=
  { s with m := { s.m with wtime := max s.m.wtime (lookup 0 s.m.bistStart f + 30000000) } }

theorem exec_bistTimeout {f : FieldId} (ha : awake s = true) (hf : fieldState s f.val = 2) : exec (.bistTimeout f) s =
    .next (settle (atTimeout f s) (finishBist f ((List.range 468).foldl (timeoutTile f) (atTimeout f s)))) := by
  have hx : exec (.bistTimeout f) s = execBistTimeout f s := rfl
  rw [hx, execBistTimeout, ifAwake_on ha, if_neg (by simp [hf])]
  rfl

theorem bistTimeout_fails {f : FieldId} (ha : awake s = true) (hf : fieldState s f.val = 2) :
    ∃ s', exec (.bistTimeout f) s = .next s' ∧ s'.m.wtime = max s.m.wtime (lookup 0 s.m.bistStart f.val + 30000000) ∧
      ∀ t : TileId, tileState s f.val t.val = 1 → tileState s' f.val t.val = 5 ∧
        bitAt (s'.get pgMast MAST.ALERT_CAUSE) acTest = true := by
  refine ⟨_, exec_bistTimeout ha hf, ?_, fun t ht => ?_⟩
  · have h1 : ((List.range 468).foldl (timeoutTile f) (atTimeout f s)).m.wtime =
        max s.m.wtime (lookup 0 s.m.bistStart f.val + 30000000) :=
      keeps_foldl (P := fun u => u.m.wtime = max s.m.wtime (lookup 0 s.m.bistStart f.val + 30000000))
        (fun u t _ hu => by rw [timeoutTile_m, hu]) rfl
    have h2 := closing_finishBist (f := 0) (t := 0) (by decide) (by decide)
      (closing_wtime 0 0 (max s.m.wtime (lookup 0 s.m.bistStart f.val + 30000000))) f h1
    exact (leaves_settle (B := fun _ => False) (atTimeout f s) (fun _ => False.elim) (fun _ => False.elim) (.refl _)).wtime.trans h2
  · obtain ⟨h5, hal⟩ := closing_finishBist f.isLt t.isLt (closing_timedOut f.isLt t.isLt) f
      (timedOut_fold (s := atTimeout f s) f.isLt t.isLt ht)
    obtain ⟨hL, hS, -⟩ := tileWord_place (f := f.val) (by omega) t.isLt
    exact ⟨(tileState_congr ((leaves_settle (atTimeout f s) (hL.trans lowPlace_le_mainPlace) hS (.refl _)).word _ rfl)).trans h5,
      alertSet_settle (by decide) _ hal⟩

/-- Settles O50: each clause is one of the lemmas above, on what an end of a test or an escalation writes and what the rest of its edge
leaves. -/
theorem testsAndEscalationsReachTheRoster : Obligations.TestsAndEscalationsReachTheRoster := by
  intro s ha
  refine ⟨fun f t t' hne hf ht ht' hd => ⟨tile_passes ha hne hf ht ht' hd, fun p x => tile_fails ha hne hf ht ht' hd⟩,
    fun f => bistTimeout_fails ha, fun k hr ht hn => ⟨landing_passes ha hr ht, landing_fails ha hr ht hn⟩,
    fun k p => portWindow_passes ha, fun f t x => stop_stops ha, fun f t r => tileLost_leaves_use ha,
    fun f t b a => bankUe_awaits_retirement ha, fun f e r n ps => linkBroken_fences ha⟩

end Sys2Proof.Machine
end

section
namespace Sys2Proof.Machine
open Sys2Proof

/-! PROOFS. The power side of the Mast: rails, the sideband, mooring and the wake (O43 to O47), the field loop and the damage guard
(O48), and the idle step (O2). First what leaves the power side as it is: one lemma `steady_f` for each function of the model that
the commands of power use, in the order of the model. -/

/-! ## What leaves the power side -/

/-- The MPWR page, the Mast's power state, the test port, the pins and the management port stay. -/
structure Steady (s t : State) : Prop where
  word : ∀ a, 0x4000 ≤ a → a < 0x5000 → t.word a = s.word a
  power : t.power = s.power
  tap : t.tap = s.tap
  pins : t.pins = s.pins
  port : t.port = s.port

variable {s0 s t u : State}

theorem Steady.refl (s : State) : Steady s s := ⟨fun _ _ _ => rfl, rfl, rfl, rfl, rfl⟩

theorem Steady.trans (h : Steady s t) (g : Steady t u) : Steady s u :=
  ⟨fun a ha hb => (g.word a ha hb).trans (h.word a ha hb), g.power.trans h.power, g.tap.trans h.tap, g.pins.trans h.pins,
    g.port.trans h.port⟩

/-- A field of the MPWR page reads as before. -/
theorem Steady.get (h : Steady s t) {F : Fld} (hF : F.off < 0x1000) : t.get pgMpwr F = s.get pgMpwr F := by
  have hp : pgMpwr = 0x4000 := rfl
  rw [State.get, State.get, h.word _ (by omega) (by omega)]

theorem Steady.on (h : Steady s t) {F : Fld} (hF : F.off < 0x1000) : t.on pgMpwr F = s.on pgMpwr F := by
  rw [State.on, State.on, h.get hF]

theorem Steady.bit2 (h : Steady s t) {L H : Fld} (hL : L.off < 0x1000) (hH : H.off < 0x1000) (i : Nat) :
    t.bit2 pgMpwr L H i = s.bit2 pgMpwr L H i := by
  rw [State.bit2, State.bit2, h.get hL, h.get hH]

/-! ### Steps of the state -/

/-- A step outside the register words, the power state, the ports and the pins. -/
theorem steady_frame (h : Steady s0 s) (ht : (t.live, t.power, t.tap, t.pins, t.port) = (s.live, s.power, s.tap, s.pins, s.port)) :
    Steady s0 t := by
  simp only [Prod.mk.injEq] at ht
  obtain ⟨hl, hp, ht, hi, ho⟩ := ht
  exact h.trans ⟨fun a _ _ => by simp only [State.word, hl], hp, ht, hi, ho⟩

theorem steady_log (l : LogSt) (h : Steady s0 s) : Steady s0 { s with log := l } := steady_frame h rfl

theorem steady_setWord {a : Nat} {v : Word} (ha : a < 0x4000 ∨ 0x5000 ≤ a) (h : Steady s0 s) : Steady s0 (s.setWord a v) :=
  h.trans ⟨fun b _ _ => word_setWord_other s v (by omega), rfl, rfl, rfl, rfl⟩

theorem steady_set {p v : Nat} {F : Fld} (ha : p + F.off < 0x4000 ∨ 0x5000 ≤ p + F.off) (h : Steady s0 s) :
    Steady s0 (s.set p F v) := steady_setWord ha h

/-- A write of a page of the main domain. -/
theorem steady_setMain {p v : Nat} {F : Fld} (hp : 0x10000 ≤ p) (h : Steady s0 s) : Steady s0 (s.set p F v) :=
  steady_set (.inr (by omega)) h

theorem steady_ite {c : Prop} [Decidable c] (ht : c → Steady s t) (hu : ¬c → Steady s u) : Steady s (if c then t else u) := by
  split
  · next h => exact ht h
  · next h => exact hu h

theorem steady_foldl {α : Type} {g : State → α → State} (hg : ∀ {t} b, Steady s0 t → Steady s0 (g t b)) (l : List α)
    (h : Steady s0 s) : Steady s0 (l.foldl g s) := by
  induction l generalizing s with
  | nil => exact h
  | cons b l ih => exact ih (hg b h)

/-- Register words taken out of pages other than MPWR. -/
theorem steady_keep {q : Nat → Bool} {w : List (Nat × Word)} {m : MainSt} (hq : ∀ a, 0x4000 ≤ a → a < 0x5000 → q a = true)
    (h : Steady s0 s) : Steady s0 { s with live := keep q s.live, shadow := w, m := m } :=
  h.trans ⟨fun a ha hb => lookup_keep_of_kept _ _ (hq a ha hb), rfl, rfl, rfl, rfl⟩

/-! ### Page addresses -/

theorem pgRostf_main (f : Nat) : 0x10000 ≤ pgRostf f := by
  simp only [pgRostf, pageAddr]
  omega

theorem pgEnd_main (h e : Nat) : 0x10000 ≤ pgEnd h e := by
  simp only [pgEnd, pgHaws, pageAddr]
  split <;> omega

theorem pgTile_main (f t p : Nat) : 0x10000 ≤ pgTile f t p := by
  simp only [pgTile, pageAddr]
  omega

theorem pgLanding_main (k p : Nat) : 0x10000 ≤ pgLanding k p := by
  simp only [pgLanding, pageAddr]
  omega

theorem pgBerth_main (b : Nat) : 0x10000 ≤ pgBerth b := by
  simp only [pgBerth, pageAddr]
  omega

theorem pgFtopo_main (f : Nat) : 0x10000 ≤ pgFtopo f := by
  simp only [pgFtopo, pageAddr]
  omega

theorem pgFpwr_main (f : Nat) : 0x10000 ≤ pgFpwr f := by
  simp only [pgFpwr, pageAddr]
  omega

theorem pgRoster_main : 0x10000 ≤ pgRoster := by decide

/-- A write of the logbook's page. -/
theorem steady_setLogb {F : Fld} {v : Nat} (h : Steady s0 s) : Steady s0 (s.set pgLogb F v) :=
  steady_set (.inr (by simp only [pgLogb, pageAddr]; omega)) h

/-- A write of the DMAP page. -/
theorem steady_setDmap {F : Fld} {v : Nat} (h : Steady s0 s) : Steady s0 (s.set pgDmap F v) :=
  steady_set (.inr (by simp only [pgDmap, pageAddr]; omega)) h

/-! ### Alerts and events -/

theorem steady_alert {c : Nat} (h : Steady s0 s) : Steady s0 (alert c s) := steady_set (.inl (by decide)) h

theorem steady_pageAlert {p : Nat} (h : Steady s0 s) : Steady s0 (pageAlert p s) :=
  steady_alert (steady_ite (fun _ => h) fun _ => steady_set (.inl (by decide)) (steady_set (.inl (by decide))
    (steady_set (.inl (by decide)) h)))

theorem steady_pageEvent {p : Nat} (h : Steady s0 s) : Steady s0 (pageEvent p s) :=
  steady_ite (fun _ => steady_pageAlert h) fun _ => h

theorem steady_setError {p n : Nat} (hp : p + 0x00C < 0x4000 ∨ 0x5000 ≤ p + 0x00C) (h : Steady s0 s) :
    Steady s0 (setError p n s) :=
  steady_ite (fun _ => steady_pageEvent (steady_setWord hp h)) fun _ => steady_setWord hp h

theorem steady_logAlert {n : Nat} (h : Steady s0 s) : Steady s0 (logAlert n s) :=
  steady_setError (.inr (by decide)) (steady_alert h)

theorem steady_levelAlert (h : Steady s0 s) : Steady s0 (if unsaved s = alertLevel s then logAlert 16 s else s) :=
  steady_ite (fun _ => steady_logAlert h) fun _ => h

theorem steady_numberEvent {e : Event} (h : Steady s0 s) : Steady s0 (numberEvent e s) := by
  have h1 := steady_levelAlert (steady_setLogb (F := LOGB.NEXT_SEQ_SEQ) (v := s.get pgLogb LOGB.NEXT_SEQ_SEQ + 1) h)
  exact steady_ite (fun _ => steady_log _ h1) fun _ => steady_ite (fun _ => steady_setLogb h1)
    fun _ => steady_logAlert (steady_setLogb h1)

theorem steady_flushRepeat (h : Steady s0 s) : Steady s0 (flushRepeat s) :=
  steady_ite (fun _ => h) fun _ => steady_numberEvent (steady_setLogb h)

theorem steady_raiseEvent {e : Event} (h : Steady s0 s) : Steady s0 (raiseEvent e s) := by
  unfold raiseEvent
  extract_lets s1
  have h1 : Steady s0 s1 := by
    unfold s1
    split
    · exact steady_alert h
    · exact h
  exact steady_ite (fun _ => steady_setLogb h1) fun _ => steady_numberEvent (steady_flushRepeat h1)

/-! ### The defect map -/

/-- A step on the defect map's copies alone. -/
def OnlyMap (s t : State) : Prop := t = { s with map := t.map }

theorem steady_onlyMap (h : Steady s0 s) (ht : OnlyMap s t) : Steady s0 t := by
  rw [ht]
  exact steady_frame h rfl

theorem OnlyMap.trans (h : OnlyMap s t) (g : OnlyMap t u) : OnlyMap s u := by
  unfold OnlyMap at *
  rw [g, h]

theorem onlyMap_map (s : State) (x : MapSt) : OnlyMap s { s with map := x } := rfl

theorem onlyMap_ite {c : Prop} [Decidable c] (ht : OnlyMap s t) (hu : OnlyMap s u) : OnlyMap s (if c then t else u) := by
  split <;> assumption

theorem onlyMap_setB (i : Nat) (x : MapArea) (s : State) : OnlyMap s (setB i x s) :=
  onlyMap_ite (onlyMap_map s _) (onlyMap_map s _)

theorem onlyMap_startWhole (w : WholeCopy) (s : State) : OnlyMap s (startWhole w s) :=
  (onlyMap_setB w.area .erased s).trans (onlyMap_map _ _)

theorem onlyMap_pumpFlash (s : State) : OnlyMap s (pumpFlash s) := by
  unfold pumpFlash
  refine onlyMap_ite rfl ?_
  split
  · exact (onlyMap_map s _).trans (onlyMap_startWhole _ _)
  · exact onlyMap_ite (onlyMap_map s _) (onlyMap_ite (onlyMap_startWhole _ _) rfl)
  · rfl

theorem onlyMap_addSlotB (y : MapSlot) (s : State) : OnlyMap s (addSlotB y s) := by
  unfold addSlotB
  split
  · exact onlyMap_setB _ _ s
  · exact onlyMap_setB _ _ s
  · rfl

theorem onlyMap_stopFlash (s : State) : OnlyMap s (stopFlash s) := by
  unfold stopFlash
  extract_lets s1
  have h1 : OnlyMap s s1 := by
    unfold s1
    split
    · exact onlyMap_addSlotB _ s
    · rfl
  exact h1.trans (onlyMap_map _ _)

theorem onlyMap_writeA (g : Nat) (w : Word) (rs : List MapRec) (s : State) : OnlyMap s (writeA g w rs s) := by
  unfold writeA
  dsimp only
  split <;> rfl

theorem onlyMap_startWholeB (i : Nat) (s : State) : OnlyMap s (startWholeB i s) := by
  unfold startWholeB
  split
  · exact (onlyMap_map s _).trans (onlyMap_pumpFlash _)
  · rfl

theorem onlyMap_slotA (r : MapRec) (s : State) : OnlyMap s (slotA r s) := by
  unfold slotA
  split <;> rfl

theorem onlyMap_followA (r : MapRec) (s : State) : OnlyMap s (followA r s) :=
  onlyMap_ite ((onlyMap_map s _).trans (onlyMap_pumpFlash _)) rfl

theorem steady_mapRegs (h : Steady s0 s) : Steady s0 (mapRegs s) := by
  unfold mapRegs showRecord
  iterate 7 refine steady_setDmap ?_
  exact h

theorem steady_appendA {r : MapRec} (h : Steady s0 s) : Steady s0 (appendA r s) :=
  steady_mapRegs (steady_onlyMap h ((onlyMap_slotA r s).trans (onlyMap_followA r _)))

theorem steady_holdUnrecorded {r : MapRec} (h : Steady s0 s) : Steady s0 (holdUnrecorded r s) :=
  steady_ite (fun _ => h) fun _ => steady_frame h rfl

theorem steady_commitRec {e : MapEntry} {n : Nat} (h : Steady s0 s) : Steady s0 (commitRec e n s).1 := by
  unfold commitRec
  split
  · exact h
  · extract_lets s1
    have h1 : Steady s0 s1 := steady_ite (fun _ => h) fun _ => steady_onlyMap h (onlyMap_writeA _ _ _ s)
    split
    · exact h1
    · dsimp only
      split
      · exact steady_appendA h1
      · exact steady_holdUnrecorded (steady_raiseEvent (steady_setDmap h1))

theorem steady_fieldRecord {f : Nat} (h : Steady s0 s) : Steady s0 (fieldRecord s f) := by
  unfold fieldRecord
  refine steady_ite (fun _ => h) fun _ => ?_
  split
  · exact steady_commitRec h
  · exact h

theorem steady_fieldRecords (h : Steady s0 s) : Steady s0 (fieldRecords s) := steady_foldl (fun _ ht => steady_fieldRecord ht) _ h

theorem steady_reconcileEvent {n : Nat} (h : Steady s0 s) : Steady s0 (reconcileEvent n s) :=
  steady_raiseEvent (steady_mapRegs (steady_setDmap h))

/-- The two copies compared and resolved leave the power side. -/
theorem steady_of_resolve (ht : resolve s = some t) (h : Steady s0 s) : Steady s0 t := by
  unfold resolve at ht
  split at ht
  · cases ht
  · cases ht
    exact steady_reconcileEvent (steady_onlyMap (steady_setDmap h) (onlyMap_startWholeB _ _))
  · cases ht
    exact steady_reconcileEvent (steady_onlyMap (steady_setDmap h) (onlyMap_writeA _ _ _ _))
  · dsimp only at ht
    split at ht
    · cases ht
      exact steady_mapRegs (steady_setDmap (steady_setDmap h))
    · split at ht
      · split at ht
        · cases ht
          exact steady_reconcileEvent (steady_onlyMap (steady_setDmap h) (onlyMap_startWholeB _ _))
        · cases ht
          exact steady_reconcileEvent (steady_onlyMap (steady_setDmap h) (onlyMap_writeA _ _ _ _))
      · cases ht
        exact steady_reconcileEvent (steady_onlyMap (steady_setDmap h)
          ((onlyMap_writeA _ _ _ _).trans ((onlyMap_map _ _).trans (onlyMap_pumpFlash _))))

theorem steady_of_reconcile (ht : reconcile s = some t) (h : Steady s0 s) : Steady s0 t := by
  obtain ⟨u, hu, rfl⟩ := Option.map_eq_some_iff.1 ht
  exact steady_fieldRecords (steady_frame (steady_of_resolve hu (steady_setDmap (steady_frame h rfl))) rfl)

theorem steady_probeFlash {wake meets : Bool} {jedec : Word} (h : Steady s0 s) : Steady s0 (probeFlash wake meets jedec s) := by
  unfold probeFlash
  extract_lets s1 s2 _ _ _ _ s3
  have h3 : Steady s0 s3 := steady_setDmap (steady_setDmap (steady_frame h rfl))
  exact steady_ite (fun _ => steady_raiseEvent h3) fun _ => steady_ite (fun _ => steady_raiseEvent h3) fun _ => h3

/-! ### Berths and packets -/

theorem steady_modBerths {p : BerthRun → Bool} {g : BerthRun → BerthRun} (h : Steady s0 s) : Steady s0 (modBerths p g s) :=
  steady_frame h rfl

theorem steady_berthSet {b v : Nat} {F : Fld} (h : Steady s0 s) : Steady s0 (berthSet b F v s) := steady_setMain (pgBerth_main b) h

theorem steady_suspendBerth {b : Nat} (h : Steady s0 s) : Steady s0 (suspendBerth b s) :=
  steady_ite (fun _ => h) fun _ => steady_raiseEvent (steady_modBerths (steady_frame (steady_berthSet h) rfl))

theorem steady_markParty {l : Nat} (h : Steady s0 s) : Steady s0 (markParty l s) := by
  unfold markParty
  split
  · exact steady_modBerths h
  · split
    · exact steady_frame h rfl
    · exact h

theorem steady_markParties {l : List Nat} (h : Steady s0 s) : Steady s0 (l.foldl (fun s l => markParty l s) s) :=
  steady_foldl (fun _ ht => steady_markParty ht) _ h

theorem steady_loseHolder {l : Nat} (h : Steady s0 s) : Steady s0 (loseHolder l s) :=
  steady_modBerths (steady_frame (steady_foldl (fun _ ht => steady_berthSet ht) _ h) rfl)

theorem steady_suspendGone {l : Nat} (h : Steady s0 s) : Steady s0 (suspendGone l s) :=
  steady_ite (fun _ => steady_foldl (fun _ ht => steady_suspendBerth ht) _ h) fun _ => steady_frame h rfl

theorem steady_markLost {l : Nat} (h : Steady s0 s) : Steady s0 (markLost l s) :=
  steady_suspendGone (steady_loseHolder (steady_modBerths (steady_markParty h)))

theorem steady_loseUse {l : Nat} (h : Steady s0 s) : Steady s0 (loseUse l s) :=
  steady_suspendGone (steady_loseHolder (steady_modBerths h))

theorem steady_lose {p : Pkt} (h : Steady s0 s) : Steady s0 (lose p s) :=
  steady_ite (fun _ => h) fun _ => steady_ite (fun _ => steady_frame h rfl) fun _ => h

/-! ### The roster -/

theorem steady_setFieldState {f v : Nat} (h : Steady s0 s) : Steady s0 (setFieldState f v s) := steady_setMain (pgRostf_main f) h

theorem steady_setTileState {f n v : Nat} (h : Steady s0 s) : Steady s0 (setTileState f n v s) := steady_setMain (pgRostf_main f) h

theorem steady_setAllTiles {f v : Nat} (h : Steady s0 s) : Steady s0 (setAllTiles f v s) :=
  steady_foldl (fun _ ht => steady_setMain (pgRostf_main f) ht) _ h

theorem steady_setChan1 {p : Nat × Nat} {r f : Bool} (h : Steady s0 s) : Steady s0 (setChan1 p r f s) :=
  steady_setMain (pgRostf_main _) (steady_setMain (pgRostf_main _) h)

theorem steady_setChan {k e : Nat} {r f : Bool} (h : Steady s0 s) : Steady s0 (setChan k e r f s) :=
  steady_ite (fun _ => h) fun _ => steady_ite (fun _ => steady_setChan1 (steady_setChan1 h)) fun _ => steady_setChan1 h

theorem steady_setPort {k p : Nat} {b : Bool} (h : Steady s0 s) : Steady s0 (setPort k p b s) :=
  steady_ite (fun _ => steady_setMain pgRoster_main h) fun _ => steady_setMain pgRoster_main h

theorem steady_counts (h : Steady s0 s) : Steady s0 (counts s) := by
  have hset : ∀ {u : State} {F : Fld} {v : Nat}, Steady s0 u → Steady s0 (u.set pgRoster F v) := steady_setMain pgRoster_main
  exact hset (hset (hset (hset (steady_foldl (fun f ht => steady_setMain (pgRostf_main f) ht) _ (hset (hset h))))))

theorem steady_bringup (h : Steady s0 s) : Steady s0 (bringup s) := by
  unfold bringup
  iterate 4 refine steady_setMain pgRoster_main ?_
  exact h

theorem steady_settleEos (h : Steady s0 s) : Steady s0 (settleEos s) :=
  steady_ite (fun _ => steady_raiseEvent (steady_setDmap (steady_setDmap h))) fun _ => steady_setDmap h

theorem steady_orderEdge {r : State} (h : Steady s0 s) : Steady s0 (orderEdge r s) := by
  unfold orderEdge
  exact steady_ite (fun _ => h) fun _ => steady_frame h rfl

/-- What follows from a change of the roster leaves the power side. -/
theorem steady_settle {r : State} (h : Steady s0 s) : Steady s0 (settle r s) := by
  have h1 : Steady s0 (summaries r s) := steady_setMain pgRoster_main (steady_bringup (steady_counts h))
  have h2 : Steady s0 (doneAlert r (summaries r s)) := steady_ite (fun _ => steady_pageEvent h1) fun _ => h1
  rw [settle_eq]
  exact steady_orderEdge (steady_settleEos (steady_ite (fun _ => steady_frame h2 rfl) fun _ => h2))

theorem steady_onRoster {g : State → State} (hg : Steady s s → Steady s (g s)) (h : Steady s0 s) : Steady s0 (onRoster g s) :=
  h.trans (steady_settle (hg (.refl s)))

theorem steady_rosterField {f v : Nat} (h : Steady s0 s) : Steady s0 (rosterField f v s) := steady_onRoster steady_setFieldState h

/-! ### Channel ends -/

theorem steady_setEnd {h e v : Nat} {F : Fld} (hs : Steady s0 s) : Steady s0 (s.set (pgEnd h e) F v) :=
  steady_setMain (pgEnd_main h e) hs

theorem steady_modHaw {h e : Nat} {g : HawEnd → HawEnd} (hs : Steady s0 s) : Steady s0 (s.modHaw h e g) := steady_frame hs rfl

theorem steady_startRoutes (h : Steady s0 s) : Steady s0 (startRoutes s) :=
  steady_foldl (fun f ht => steady_ite (fun _ => steady_setMain (pgFtopo_main f) ht) fun _ => ht) _ h

theorem steady_showHeld {h e : Nat} (hs : Steady s0 s) : Steady s0 (showHeld h e s) := steady_setEnd (steady_setEnd hs)

theorem steady_downEnd {h e : Nat} (hs : Steady s0 s) : Steady s0 (downEnd h e s) :=
  steady_foldl (fun _ ht => steady_lose (steady_markParties ht)) _ (steady_showHeld (steady_setEnd (steady_frame hs rfl)))

theorem steady_dropEnd {h e : Nat} (hs : Steady s0 s) : Steady s0 (dropEnd h e s) := by
  have hd : Steady s0 (downEnd h e s) := steady_downEnd hs
  rw [dropEnd_eq]
  exact steady_ite (fun _ => hs) fun _ => steady_ite (fun _ => steady_setChan hd) fun _ => hd

theorem steady_fenceEnd {h e : Nat} (hs : Steady s0 s) : Steady s0 (fenceEnd h e s) :=
  steady_ite (fun _ => steady_setChan hs) fun _ => hs

theorem steady_dropDead {f : Nat} (h : Steady s0 s) : Steady s0 (dropDead f s) :=
  steady_foldl (fun _ ht => steady_ite (fun _ => steady_fenceEnd (steady_dropEnd ht)) fun _ => ht) _ h

theorem steady_startEnd {h e : Nat} (hs : Steady s0 s) : Steady s0 (startEnd h e s) :=
  steady_ite (fun _ => steady_setEnd (steady_frame hs rfl)) fun _ => hs

theorem steady_startEnds {k : Nat} (h : Steady s0 s) : Steady s0 (startEnds k s) := steady_foldl (fun _ ht => steady_startEnd ht) _ h

/-! ### What leaves service -/

theorem steady_dropPackets {f : Nat} {mark : Bool} (h : Steady s0 s) : Steady s0 (dropPackets f mark s) :=
  steady_foldl (fun _ ht => steady_lose (steady_ite (fun _ => steady_markParties ht) fun _ => ht)) _ (steady_frame h rfl)

/-- An address of the MPWR page is of class 0. -/
theorem clsOf_mpwr {a : Nat} (hb : a < 0x5000) : clsOf a = 0 := by
  simp only [clsOf, bits]
  omega

theorem steady_clearField {f : Nat} (h : Steady s0 s) : Steady s0 (clearField f s) :=
  steady_keep (q := fun a => !((clsOf a == 4 || clsOf a == 8) && fieldOf a == f)) (fun a _ hb => by simp [clsOf_mpwr hb]) h

theorem steady_bistCycles {f : Nat} (h : Steady s0 s) : Steady s0 (bistCycles f s) := steady_setMain (pgRostf_main f) h

/-- A field that leaves the roster leaves the power side. -/
theorem steady_removeField {f v w : Nat} {lost : Bool} (h : Steady s0 s) : Steady s0 (removeField f v w lost s) := by
  unfold removeField
  extract_lets was s1 lids s2 s3 s4 s5
  have h1 : Steady s0 s1 := steady_ite (fun _ => steady_bistCycles h) fun _ => h
  have h2 : Steady s0 s2 := steady_foldl (fun _ ht => steady_ite (fun _ => steady_markLost ht) fun _ => steady_loseUse ht) _ h1
  have h3 : Steady s0 s3 := steady_setAllTiles (steady_setFieldState h2)
  have h4 : Steady s0 s4 := steady_ite (fun _ => steady_dropDead h3) fun _ => h3
  have h5 : Steady s0 s5 := steady_clearField (steady_dropPackets h4)
  exact steady_ite (fun _ => steady_startRoutes h5) fun _ => h5

theorem steady_dropLanding {k : Nat} (h : Steady s0 s) : Steady s0 (dropLanding k s) := by
  unfold dropLanding
  extract_lets _ s1 s2 s3 gone lost s4 page m
  have h1 : Steady s0 s1 := steady_foldl (fun _ ht => steady_setPort ht) _ h
  have h3 : Steady s0 s3 := steady_foldl (fun _ ht => steady_dropEnd ht) _ (steady_setMain pgRoster_main h1)
  have h4 : Steady s0 s4 := steady_foldl (fun _ ht => steady_lose (steady_markParties ht)) _ (steady_frame h3 rfl)
  exact steady_keep (fun a _ hb => by simp [page, clsOf_mpwr hb]) h4

theorem steady_startBist {f : Nat} (h : Steady s0 s) : Steady s0 (startBist f s) := by
  unfold startBist
  extract_lets s1 s2 s3
  have h2 : Steady s0 s2 := steady_setMain (pgRostf_main f) (steady_setMain (pgRostf_main f) (steady_setMain (pgRostf_main f)
    (steady_setAllTiles (steady_setFieldState h))))
  have h3 : Steady s0 s3 := steady_foldl (fun r ht => steady_ite (fun _ => ht) fun _ => by
    split
    · exact steady_setTileState ht
    · exact steady_setMain (pgTile_main _ _ _) ht
    · exact ht) _ h2
  exact steady_frame h3 rfl

end Sys2Proof.Machine
end

section
namespace Sys2Proof.Machine
open Sys2Proof

variable {s0 s t u : State}

/-! ### Packets sent and store landings -/

theorem steady_bumpSat {p n : Nat} {F : Fld} (hp : 0x10000 ≤ p) (h : Steady s0 s) : Steady s0 (s.bumpSat p F n) :=
  steady_setMain hp h

theorem steady_discardAt {f n : Nat} (h : Steady s0 s) : Steady s0 (discardAt f n s) := by
  have hp := pgTile_main f n 2
  exact steady_setError (.inr (by omega)) (steady_bumpSat hp h)

theorem steady_sendNew {h e v : Nat} (hs : Steady s0 s) : Steady s0 (sendNew h e v s) := by
  unfold sendNew
  split
  · exact hs
  · exact steady_showHeld (steady_modHaw (steady_bumpSat (pgEnd_main h e) (steady_setEnd (steady_frame hs rfl))))

theorem steady_pump {h e n : Nat} (hs : Steady s0 s) : Steady s0 (pump h e n s) := by
  induction n generalizing s with
  | zero => exact hs
  | succ n ih =>
    unfold pump
    split
    · exact hs
    · exact ih (steady_sendNew hs)

theorem steady_replayed {h e v n : Nat} (hs : Steady s0 s) : Steady s0 (replayed h e v n s) := by
  unfold replayed
  extract_lets _ m s1
  have h1 : Steady s0 s1 := steady_ite (fun _ => hs) fun _ => steady_bumpSat (pgEnd_main h e) hs
  exact steady_frame h1 rfl

theorem steady_settleEnd {h e : Nat} (hs : Steady s0 s) : Steady s0 (settleEnd h e s) :=
  steady_ite (fun _ => steady_pump (steady_replayed (steady_replayed hs))) fun _ => hs

theorem steady_discardRouted {h e : Nat} {p : Pkt} (hs : Steady s0 s) : Steady s0 (discardRouted h e p s) := by
  unfold discardRouted
  extract_lets _ s1 s2 s3
  have h2 : Steady s0 s2 := steady_ite (fun _ => steady_discardAt (steady_bumpSat (pgEnd_main h e) hs)) fun _ =>
    steady_bumpSat (pgEnd_main h e) hs
  have h3 : Steady s0 s3 := by
    unfold s3
    split
    · exact steady_frame h2 rfl
    · exact steady_markParties h2
  exact steady_lose h3

theorem steady_forward {p : Pkt} (h : Steady s0 s) : Steady s0 (forward p s) := by
  unfold forward
  refine steady_ite (fun _ => steady_lose (steady_markParties (steady_discardAt h))) fun _ => ?_
  split
  · exact steady_frame h rfl
  · exact steady_ite (fun _ => steady_settleEnd (steady_frame h rfl)) fun _ => steady_discardRouted h

theorem steady_landingSend {k lid : Nat} {p : Pkt} (h : Steady s0 s) : Steady s0 (landingSend k lid p s).1 := by
  unfold landingSend
  split
  · exact h
  · split
    · exact h
    · exact steady_forward h

theorem steady_slotSet {k i v : Nat} {F : Fld} (h : Steady s0 s) : Steady s0 (slotSet k i F v s) :=
  steady_setMain (pgLanding_main k 1) h

theorem steady_modXfer {k i : Nat} {g : Xfer → Xfer} (h : Steady s0 s) : Steady s0 (modXfer k i g s) := steady_frame h rfl

theorem steady_modNvme {k p : Nat} {g : Nvme → Nvme} (h : Steady s0 s) : Steady s0 (modNvme k p g s) := steady_frame h rfl

theorem steady_skipTile {k i lid : Nat} (h : Steady s0 s) : Steady s0 (skipTile k i lid s) := by
  unfold skipTile
  split
  · exact h
  · exact steady_ite (fun _ => steady_modXfer h) fun _ => steady_ite (fun _ => h) fun _ =>
      steady_bumpSat (pgLanding_main k 1) (steady_modXfer h)

theorem steady_xferSend {k i lid : Nat} {x : Xfer} {p : Pkt} (h : Steady s0 s) : Steady s0 (xferSend k i x lid p s) := by
  unfold xferSend
  extract_lets q
  have hq : Steady s0 q.1 := steady_landingSend h
  exact steady_ite (fun _ => steady_modXfer hq) fun _ => steady_skipTile hq

theorem steady_xferReads {k i n o : Nat} {x : Xfer} (h : Steady s0 s) : Steady s0 (xferReads k i x n o s) := by
  induction n generalizing o s with
  | zero => exact h
  | succ n ih =>
    unfold xferReads
    exact steady_ite (fun _ => h) fun _ => ih (steady_xferSend h)

theorem steady_askTile {k : Nat} {x : Xfer} (h : Steady s0 s) : Steady s0 (askTile k s x) := by
  unfold askTile
  extract_lets t
  have ht : Steady s0 t := steady_modXfer h
  exact steady_ite (fun _ => steady_ite (fun _ => steady_xferReads ht) fun _ =>
    steady_ite (fun _ => ht) fun _ => steady_modNvme ht) fun _ => h

theorem steady_endXfer {k i res : Nat} (h : Steady s0 s) : Steady s0 (endXfer k i res s) := by
  unfold endXfer
  split
  · exact h
  · extract_lets s1 s2 s3
    have h3 : Steady s0 s3 := steady_slotSet (steady_slotSet (steady_slotSet (steady_modNvme (steady_frame h rfl))))
    have hp := pgLanding_main k 0
    exact steady_foldl (fun _ ht => steady_askTile ht) _ (steady_ite (fun _ => h3) fun _ => steady_setError (.inr (by omega)) h3)

theorem steady_portLost {k p : Nat} (h : Steady s0 s) : Steady s0 (portLost k p s) := by
  unfold portLost
  extract_lets was s1 s2 s3
  have h1 : Steady s0 s1 := steady_ite (fun _ => steady_bumpSat (pgLanding_main k 0) h) fun _ => h
  have h2 : Steady s0 s2 := steady_foldl (fun _ ht => steady_setMain (pgLanding_main k 0) ht) _ h1
  have h3 : Steady s0 s3 := steady_modNvme (steady_foldl (fun _ ht => steady_endXfer ht) _ h2)
  exact steady_ite (fun _ => steady_pageEvent (steady_onRoster steady_setPort h3)) fun _ => h3

theorem steady_resetPort {k p : Nat} (h : Steady s0 s) : Steady s0 (resetPort k p s) := steady_frame (steady_portLost h) rfl

/-- The reset of a landing's ports leaves the power side. -/
theorem steady_resetPorts {k : Nat} (h : Steady s0 s) : Steady s0 (resetPorts k s) :=
  steady_foldl (fun _ ht => steady_resetPort ht) _ h

end Sys2Proof.Machine
end

section
namespace Sys2Proof.Machine
open Sys2Proof

variable {s s0 t u : State}

/-! ## Bits of the MPWR page -/

/-- Two registers that hold one bit for each field. -/
def FieldSet (L H : Fld) : Prop := L.lo = 0 ∧ L.width = 32 ∧ H.lo = 0 ∧ H.width = 24 ∧ L.off ≠ H.off

theorem fieldSet_on : FieldSet MPWR.FIELD_ON_LO_ON MPWR.FIELD_ON_HI_ON := ⟨rfl, rfl, rfl, rfl, by decide⟩
theorem fieldSet_rail : FieldSet MPWR.FIELD_RAIL_LO_RAIL MPWR.FIELD_RAIL_HI_RAIL := ⟨rfl, rfl, rfl, rfl, by decide⟩
theorem fieldSet_trip : FieldSet MPWR.FIELD_TRIP_LO_TRIP MPWR.FIELD_TRIP_HI_TRIP := ⟨rfl, rfl, rfl, rfl, by decide⟩
theorem fieldSet_fault : FieldSet MPWR.RAIL_FAULT_LO_FAULT MPWR.RAIL_FAULT_HI_FAULT := ⟨rfl, rfl, rfl, rfl, by decide⟩

variable {p i j : Nat} {L H : Fld}

theorem bit2_setBit2_same (hF : FieldSet L H) (s : State) (hi : i < 56) (b : Bool) : (s.setBit2 p L H i b).bit2 p L H i = b := by
  obtain ⟨hl, hw, hl', hw', -⟩ := hF
  unfold State.setBit2 State.bit2
  split
  · exact bitAt_get_setBit_same s p i L b (by omega) (by omega)
  · exact bitAt_get_setBit_same s p (i - 32) H b (by omega) (by omega)

theorem bitAt_get_setBit_other (s : State) {F : Fld} (b : Bool) (hF : F.lo + F.width ≤ 32) (hj : j < F.width) (hne : j ≠ i) :
    bitAt ((s.setBit p F i b).get p F) j = bitAt (s.get p F) j := by
  rw [State.setBit, get_set_same _ _ _ _ hF, bitAt_mod_two_pow hj, bitAt_putBit_other _ b hne]

theorem bit2_setBit2_other (hF : FieldSet L H) (s : State) (b : Bool) (hj : j < 56) (hne : j ≠ i) :
    (s.setBit2 p L H i b).bit2 p L H j = s.bit2 p L H j := by
  obtain ⟨hl, hw, hl', hw', hd⟩ := hF
  unfold State.setBit2 State.bit2
  split <;> split
  · exact bitAt_get_setBit_other s b (by omega) (by omega) hne
  · rw [get_set_other _ _ (by omega)]
  · rw [get_set_other _ _ (by omega)]
  · exact bitAt_get_setBit_other s b (by omega) (by omega) (by omega)

theorem word_setBit2_other (s : State) {a : Nat} (b : Bool) (hL : a ≠ p + L.off) (hH : a ≠ p + H.off) :
    (s.setBit2 p L H i b).word a = s.word a := by
  unfold State.setBit2
  split
  · exact word_set_other s _ hL
  · exact word_set_other s _ hH

section
variable {i : Nat} {b : Bool}

@[simp] theorem setBit2_power : (s.setBit2 p L H i b).power = s.power := by unfold State.setBit2; split <;> rfl
@[simp] theorem setBit2_tap : (s.setBit2 p L H i b).tap = s.tap := by unfold State.setBit2; split <;> rfl
@[simp] theorem setBit2_m : (s.setBit2 p L H i b).m = s.m := by unfold State.setBit2; split <;> rfl
@[simp] theorem setBit2_map : (s.setBit2 p L H i b).map = s.map := by unfold State.setBit2; split <;> rfl

end

/-- Fields of words that are the same. -/
theorem get_of_word {F : Fld} (h : t.word (p + F.off) = s.word (p + F.off)) : t.get p F = s.get p F := by
  rw [State.get, State.get, h]

theorem on_of_word {F : Fld} (h : t.word (p + F.off) = s.word (p + F.off)) : t.on p F = s.on p F := by
  rw [State.on, State.on, get_of_word h]

theorem bit2_of_word (hL : t.word (p + L.off) = s.word (p + L.off)) (hH : t.word (p + H.off) = s.word (p + H.off)) :
    t.bit2 p L H i = s.bit2 p L H i := by
  rw [State.bit2, State.bit2, get_of_word hL, get_of_word hH]

theorem reaches_of_word (h : t.word (pgMpwr + 0x6C) = s.word (pgMpwr + 0x6C)) (hp : t.power = s.power) (ht : t.tap = s.tap)
    (r : Rail) : reachesRegulator t r = reachesRegulator s r := by
  rw [reachesRegulator, reachesRegulator, sidebandAbsent, sidebandAbsent, on_of_word h, hp, ht]

/-! ### The rails' bits -/

theorem fieldRail_setFieldRail_same (f : FieldId) (b : Bool) (s : State) : fieldRail (setFieldRail f.val b s) f.val = b :=
  bit2_setBit2_same fieldSet_rail s f.isLt b

theorem fieldRail_setFieldRail_other {f g : FieldId} (b : Bool) (s : State) (h : g ≠ f) :
    fieldRail (setFieldRail f.val b s) g.val = fieldRail s g.val :=
  bit2_setBit2_other fieldSet_rail s b g.isLt (Fin.val_ne_of_ne h)

theorem fieldOn_setFieldOn_same (f : FieldId) (b : Bool) (s : State) : fieldOn (setFieldOn f.val b s) f.val = b :=
  bit2_setBit2_same fieldSet_on s f.isLt b

theorem landingRail_setLandingRail_same (k : LandingId) (b : Bool) (s : State) : landingRail (setLandingRail k.val b s) k.val = b :=
  bitAt_get_setBit_same _ _ _ _ _ (by decide) k.isLt

theorem landingRail_setLandingRail_other {k j : LandingId} (b : Bool) (s : State) (h : j ≠ k) :
    landingRail (setLandingRail k.val b s) j.val = landingRail s j.val :=
  bitAt_get_setBit_other s b (by decide) j.isLt (Fin.val_ne_of_ne h)

/-! ### Rails by place -/

theorem railIx_lt (r : Rail) : railIx r < 69 := by
  cases r <;> simp only [railIx] <;> omega

@[simp] theorem railAt_railIx (r : Rail) : railAt (railIx r) = r := by
  cases r with
  | field f => simp [railAt, railIx, fin]
  | landing k =>
    have hk : ¬56 + k.val < 56 ∧ 56 + k.val < 68 := by omega
    simp [railAt, railIx, fin, hk]
  | main => rfl

theorem railIx_injective {r q : Rail} (h : railIx r = railIx q) : r = q := by
  rw [← railAt_railIx r, h, railAt_railIx]

@[simp] theorem railAt_field (f : FieldId) : railAt f.val = .field f := railAt_railIx (.field f)

@[simp] theorem railAt_landing (k : LandingId) : railAt (56 + k.val) = .landing k := railAt_railIx (.landing k)

/-! ## What a write that switches a rail off changes -/

/-- Register words that no such write touches: FIELD_RAIL, LANDING_STATUS and VSET are among the others. -/
abbrev OffPlace (a : Nat) : Prop := a < 0x4050 ∨ 0x4058 ≤ a ∧ a < 0x4068 ∨ 0x406C ≤ a ∧ a < 0x4100 ∨ 0x5000 ≤ a

/-- Beside the registers that show the rails, OPERATION and the transactions that wait change alone, and none that waits is taken
away. -/
structure Offs (s t : State) : Prop where
  word : ∀ a, OffPlace a → t.word a = s.word a
  rest : t = { s with live := t.live, power := { s.power with operation := t.power.operation, pmbWaits := t.power.pmbWaits } }
  waits : s.power.pmbWaits ⊆ t.power.pmbWaits

theorem Offs.refl (s : State) : Offs s s := ⟨fun _ _ => rfl, rfl, List.Subset.refl _⟩

theorem Offs.trans (h : Offs s t) (g : Offs t u) : Offs s u := by
  refine ⟨fun a ha => (g.word a ha).trans (h.word a ha), ?_, fun x hx => g.waits (h.waits hx)⟩
  rw [g.rest, h.rest]

theorem Offs.reaches (h : Offs s t) (r : Rail) : reachesRegulator t r = reachesRegulator s r := by
  have hword := on_of_word (F := MPWR.SIDEBAND_SIDEBAND_ABSENT) (p := pgMpwr) (h.word _ (by decide))
  have hrest := h.rest
  unfold reachesRegulator sidebandAbsent
  rw [hword, hrest]

theorem offs_operation (r : Rail) (v : Nat) (s : State) : Offs s (operation r v s) := by
  unfold operation
  split
  · exact ⟨fun _ _ => rfl, rfl, List.Subset.refl _⟩
  · exact .refl s

theorem offs_notAcked (r : Rail) (p : PmbPurpose) (s : State) : Offs s (notAcked r p s) := by
  unfold notAcked
  split
  · exact .refl s
  · exact ⟨fun _ _ => rfl, rfl, List.subset_append_left _ _⟩

theorem offs_set {F : Fld} {v : Nat} (hF : ∀ a, OffPlace a → a ≠ pgMpwr + F.off) (s : State) : Offs s (s.set pgMpwr F v) :=
  ⟨fun a ha => word_set_other s v (hF a ha), rfl, List.Subset.refl _⟩

theorem offs_setFieldRail (f : Nat) (b : Bool) (s : State) : Offs s (setFieldRail f b s) := by
  have hp : pgMpwr = 0x4000 := rfl
  unfold setFieldRail State.setBit2
  split <;> refine offs_set (fun a ha => ?_) s <;> simp only [hp, MPWR.FIELD_RAIL_LO_RAIL, MPWR.FIELD_RAIL_HI_RAIL] <;> omega

theorem offs_setVset (f : FieldId) (v : Nat) (s : State) : Offs s (s.set pgMpwr (MPWR.VSET_CODE.at f.val) v) := by
  have hp : pgMpwr = 0x4000 := rfl
  refine offs_set (fun a ha => ?_) s
  have hf := f.isLt
  simp only [hp, Fld.at, MPWR.VSET_CODE]
  omega

theorem offs_setLandingRail (k : Nat) (b : Bool) (s : State) : Offs s (setLandingRail k b s) := by
  have hp : pgMpwr = 0x4000 := rfl
  refine offs_set (fun a ha => ?_) s
  simp only [hp, MPWR.LANDING_STATUS_LANDING_RAIL]
  omega

theorem offs_railOff (r : Rail) (v : Nat) (s : State) : Offs s (railOff r v s) := by
  have h := offs_operation r v s
  cases r with
  | field f => exact (h.trans (offs_setFieldRail f.val false _)).trans (offs_setVset f 0 _)
  | landing k => exact h.trans (offs_setLandingRail k.val false _)
  | main => exact h

theorem offs_switchOff (r : Rail) (v : Nat) (s : State) : Offs s (switchOff r v s) := by
  unfold switchOff
  split
  · exact .refl s
  · split
    · exact offs_notAcked r _ s
    · exact offs_railOff r v s

/-! ### What it switches off -/

theorem switchOff_of_unreached {r : Rail} (v : Nat) (h : reachesRegulator s r = false) : switchOff r v s = s := by
  simp [switchOff, h]

theorem switchOff_of_reached {r : Rail} (v : Nat) (h : reachesRegulator s r = true) (hw : waitsFor s r = false) :
    switchOff r v s = railOff r v s := by
  simp [switchOff, h, hw]

theorem waitsFor_eq_false {r : Rail} (h : ∀ w ∈ s.power.pmbWaits, w.rail ≠ r) : waitsFor s r = false := by
  simpa [waitsFor] using h

theorem lookup_operation_railOff (d : Nat) {r : Rail} (v : Nat) (h : reachesRegulator s r = true) :
    lookup d (railOff r v s).power.operation (railIx r) = v := by
  have hop : lookup d (operation r v s).power.operation (railIx r) = v := by
    rw [operation, if_pos h]
    exact lookup_insert_same _ _ _ _
  cases r with
  | field f =>
    unfold railOff setFieldRail State.setBit2
    dsimp only
    split <;> exact hop
  | landing k => exact hop
  | main => exact hop

theorem pmbWaits_railOff (r : Rail) (v : Nat) (s : State) : (railOff r v s).power.pmbWaits = s.power.pmbWaits := by
  have hop : (operation r v s).power.pmbWaits = s.power.pmbWaits := by
    unfold operation
    split <;> rfl
  cases r with
  | field f =>
    unfold railOff setFieldRail State.setBit2
    dsimp only
    split <;> exact hop
  | landing k => exact hop
  | main => exact hop

theorem fieldRail_operation (r : Rail) (v g : Nat) (s : State) : fieldRail (operation r v s) g = fieldRail s g := by
  unfold operation
  split <;> rfl

theorem landingRail_operation (r : Rail) (v g : Nat) (s : State) : landingRail (operation r v s) g = landingRail s g := by
  unfold operation
  split <;> rfl

theorem fieldRail_setVset (f : FieldId) (v g : Nat) (s : State) :
    fieldRail (s.set pgMpwr (MPWR.VSET_CODE.at f.val) v) g = fieldRail s g := by
  refine bit2_of_word (word_set_other s v ?_) (word_set_other s v ?_) <;>
    simp only [Fld.at, MPWR.VSET_CODE, MPWR.FIELD_RAIL_LO_RAIL, MPWR.FIELD_RAIL_HI_RAIL] <;> omega

theorem landingRail_setVset (f : FieldId) (v g : Nat) (s : State) :
    landingRail (s.set pgMpwr (MPWR.VSET_CODE.at f.val) v) g = landingRail s g := by
  unfold landingRail
  rw [get_set_other s v]
  simp only [Fld.at, MPWR.VSET_CODE, MPWR.LANDING_STATUS_LANDING_RAIL]
  omega

theorem fieldRail_setLandingRail (k g : Nat) (b : Bool) (s : State) : fieldRail (setLandingRail k b s) g = fieldRail s g :=
  bit2_of_word (word_set_other s _ (by decide)) (word_set_other s _ (by decide))

theorem landingRail_setFieldRail (f g : Nat) (b : Bool) (s : State) : landingRail (setFieldRail f b s) g = landingRail s g := by
  unfold landingRail setFieldRail
  rw [get_of_word (word_setBit2_other s b (by decide) (by decide))]

/-- The field rails that are on once a rail has been switched off. -/
theorem fieldRail_railOff (r : Rail) (v : Nat) (s : State) (g : FieldId) :
    fieldRail (railOff r v s) g.val = (fieldRail s g.val && !decide (r = .field g)) := by
  cases r with
  | field f =>
    by_cases h : f = g
    · subst h
      simp [railOff, fieldRail_setVset, fieldRail_setFieldRail_same]
    · simp [railOff, fieldRail_setVset, fieldRail_setFieldRail_other false _ (Ne.symm h), fieldRail_operation, h]
  | landing k => simp [railOff, fieldRail_setLandingRail, fieldRail_operation]
  | main => simp [railOff, fieldRail_operation]

/-- The landing rails that are on once a rail has been switched off. -/
theorem landingRail_railOff (r : Rail) (v : Nat) (s : State) (g : LandingId) :
    landingRail (railOff r v s) g.val = (landingRail s g.val && !decide (r = .landing g)) := by
  cases r with
  | field f => simp [railOff, landingRail_setVset, landingRail_setFieldRail, landingRail_operation]
  | landing k =>
    by_cases h : k = g
    · subst h
      simp [railOff, landingRail_setLandingRail_same]
    · simp [railOff, landingRail_setLandingRail_other false _ (Ne.symm h), landingRail_operation, h]
  | main => simp [railOff, landingRail_operation]

end Sys2Proof.Machine
end

section
namespace Sys2Proof.Machine
open Sys2Proof

variable {s s0 t u : State}

/-! ## The idle step -/

theorem step_idle (h : s.pending = []) : step s = .next (tick s) := by simp only [step, h]

theorem tick_of_clocked (h : clocked s = true) : tick s = { s with m := { s.m with wtime := (s.m.wtime + 1) % 2 ^ 64 } } := if_pos h

theorem tick_of_not_clocked (h : clocked s = false) : tick s = s := by simp [tick, h]

/-- Settles O2: an empty queue makes the step a tick, and the two cases are those of WCLK's distribution. -/
theorem idleStepCountsWtime : Obligations.IdleStepCountsWtime := by
  intro s hidle
  rw [step_idle hidle]
  exact ⟨fun h => by rw [tick_of_clocked h], fun h => by rw [tick_of_not_clocked h]⟩

/-! ## The power side as registers show it -/

theorem Steady.pwrState (h : Steady s t) : pwrState t = pwrState s := h.get (by decide)

theorem Steady.awake (h : Steady s t) : awake t = awake s := by rw [Machine.awake, Machine.awake, h.pwrState, h.power]

theorem Steady.moored (h : Steady s t) : moored t = moored s := by rw [Machine.moored, Machine.moored, h.pwrState, h.power]

theorem Steady.clocked (h : Steady s t) : clocked t = clocked s := h.on (by decide)

theorem Steady.fieldOn (h : Steady s t) (f : Nat) : fieldOn t f = fieldOn s f := h.bit2 (by decide) (by decide) f

theorem Steady.fieldRail (h : Steady s t) (f : Nat) : fieldRail t f = fieldRail s f := h.bit2 (by decide) (by decide) f

theorem Steady.landingOn (h : Steady s t) (k : Nat) : landingOn t k = landingOn s k := by
  rw [Machine.landingOn, Machine.landingOn, h.get (by decide)]

theorem Steady.landingRail (h : Steady s t) (k : Nat) : landingRail t k = landingRail s k := by
  rw [Machine.landingRail, Machine.landingRail, h.get (by decide)]

theorem Steady.reaches (h : Steady s t) (r : Rail) : reachesRegulator t r = reachesRegulator s r := by
  rw [reachesRegulator, reachesRegulator, sidebandAbsent, sidebandAbsent, h.on (by decide), h.power, h.tap]

theorem Steady.waitsFor (h : Steady s t) (r : Rail) : waitsFor t r = waitsFor s r := by
  rw [Machine.waitsFor, Machine.waitsFor, h.power]

theorem standby_of_awake (h : awake s = true) : s.power.standby = true := (Bool.and_eq_true _ _ ▸ h).1

theorem pwrState_of_awake (h : awake s = true) : pwrState s = 2 :=
  beq_iff_eq.1 (Bool.and_eq_true _ _ ▸ h).2

theorem standby_of_moored (h : moored s = true) : s.power.standby = true := (Bool.and_eq_true _ _ ▸ h).1

theorem pwrState_of_moored (h : moored s = true) : pwrState s = 0 :=
  beq_iff_eq.1 (Bool.and_eq_true _ _ ▸ h).2

theorem awake_of_moored (h : moored s = true) : awake s = false := by simp [awake, pwrState_of_moored h]

/-! ## A field's entry in the roster -/

/-- The word of a field's state. -/
abbrev stateWord (f : Nat) (a : Nat) : Prop := a = pgRostf f + 0x40

theorem stateWord_low (f : FieldId) : stateWord f.val ≤ LowPlace := by
  rintro _ rfl
  simp only [LowPlace, pgRostf_eq]
  omega

theorem stateWord_main (f : FieldId) : stateWord f.val ≤ MainPlace := (stateWord_low f).trans lowPlace_le_mainPlace

theorem stateWord_noEnd (f : FieldId) : stateWord f.val ≤ NoEndPlace := (stateWord_low f).trans lowPlace_le_noEndPlace

theorem stateWord_noChan (f : Nat) : stateWord f ≤ NoChanPlace := by
  rintro _ rfl
  exact .inr (.inl (by rw [pgRostf_add_mod f (by decide)]; decide))

theorem stateWord_noSummary (f : Nat) : stateWord f ≤ NoSummaryPlace := by
  rintro _ rfl
  refine .inr ⟨by rw [pgRostf_add_mod f (by decide)]; decide, .inr ?_⟩
  rw [pgRostf_eq]
  omega

theorem fieldState_of_leaves {f : Nat} (h : Leaves (stateWord f) s t) : fieldState t f = fieldState s f := h.get _ _ rfl

theorem fieldState_setFieldState {f v : Nat} (hv : v < 16) (s : State) : fieldState (setFieldState f v s) f = v :=
  (get_set_same _ _ _ _ (by decide)).trans (Nat.mod_eq_of_lt hv)

theorem fieldState_settle (r s : State) (f : FieldId) : fieldState (settle r s) f.val = fieldState s f.val :=
  fieldState_of_leaves (leaves_settle r (stateWord_main f) (stateWord_noSummary f.val) (.refl s))

theorem fieldState_raiseEvent (e : Event) (s : State) (f : FieldId) : fieldState (raiseEvent e s) f.val = fieldState s f.val :=
  fieldState_of_leaves (leaves_raiseEvent (stateWord_main f) e (.refl s))

/-- A field's state is what it is set to, or stays. -/
theorem fencing_fieldState (f : FieldId) (v : Nat) : Fencing (stateWord f.val) fun u => fieldState u f.val = v where
  leaves _ _ h hs := (fieldState_of_leaves h).trans hs
  fence h e u hs := (fieldState_of_leaves (leaves_setChan (stateWord_noChan f.val) h e false true (.refl u))).trans hs

theorem fieldState_setAllTiles (f : FieldId) (v : Nat) (s : State) : fieldState (setAllTiles f.val v s) f.val = fieldState s f.val :=
  get_of_word (word_setAllTiles_other (.inr (by simp [pgRostf_add_mod f.val, ROSTF.FIELD_STATE_STATE])) s)

/-- A field that leaves the roster is in the state that it leaves to. -/
theorem fieldState_removeField (f : FieldId) {v : Nat} (hv : v < 16) (w : Nat) (lost : Bool) (s : State) :
    fieldState (removeField f.val v w lost s) f.val = v := by
  have hP := fencing_fieldState f v
  have hE := stateWord_noEnd f
  unfold removeField
  extract_lets was s1 lids s2 s3 s4 s5
  have h3 : fieldState s3 f.val = v := (fieldState_setAllTiles f w _).trans (fieldState_setFieldState hv s2)
  have h4 : fieldState s4 f.val = v :=
    keeps_ite (P := fun u => fieldState u f.val = v) (fun _ => fencing_dropDead hP hE f.val h3) fun _ => h3
  have h5 : fieldState s5 f.val = v :=
    (get_of_word (word_clearField f.val _ (by have := (stateWord_low f _ rfl).2; simp only [ROSTF.FIELD_STATE_STATE]; omega))).trans
      (hP.leaves _ _ (leaves_dropPackets f.val lost (.refl s4)) h4)
  exact keeps_ite (P := fun u => fieldState u f.val = v) (fun _ => fencing_startRoutes hP hE h5) fun _ => h5

/-! ## An edge of the roster -/

theorem settle_m (r s : State) : (settle r s).m = { s.m with fieldsDoneSeen := (settle r s).m.fieldsDoneSeen } := by
  have h1 : (doneAlert r (summaries r s)).m = s.m := by
    unfold doneAlert
    split <;> simp only [pageEvent_m, summaries_m]
  obtain ⟨-, -, hm, -⟩ := orderEdge_frame r (settleEos (doneSeen (doneAlert r (summaries r s))))
  rw [settle_eq, hm, settleEos_m, ← h1]
  unfold doneSeen
  split <;> rfl

/-- An edge without a change of the map leaves the retired items. -/
theorem retiredRecs_onRoster_id (s : State) : retiredRecs (onRoster id s) = retiredRecs s := by
  change recsA (settle s s) ++ (settle s s).m.unrecorded = _
  rw [recsA_settle_of_same rfl, settle_m]
  rfl

theorem fieldRetired_onRoster_id (s : State) (f : Nat) : fieldRetired (onRoster id s) f = fieldRetired s f := by
  rw [fieldRetired, fieldRetired, retiredRecs_onRoster_id]

theorem steady_onRoster_id (s : State) : Steady s (onRoster id s) := steady_onRoster id (.refl s)

end Sys2Proof.Machine
end

section
namespace Sys2Proof.Machine
open Sys2Proof

variable {P : State → Prop} {s s0 t u : State} {r : Rail} {n : Nat}

/-! ## The rail queue -/

/-- What the rail queue keeps outside a wake's rail phase. -/
structure Pumping (P : State → Prop) : Prop where
  phase : ∀ s, P s → s.power.phase ≠ .rails
  pop : ∀ s q, P s → P (s.modP fun p => { p with railQueue := q })
  start : ∀ s r, P s → P (startStep r s)
  roster : ∀ s (f : FieldId), P s → P (rosterField f.val 5 s)

theorem pumping_pumpRails (hP : Pumping P) (n : Nat) (hs : P s) : P (pumpRails n s) := by
  induction n generalizing s with
  | zero => exact hs
  | succ n ih =>
    unfold pumpRails
    split
    · exact hs
    split
    · rw [if_pos (hP.phase s hs)]
      exact hs
    · next r rest _ =>
      have h1 := hP.pop s rest hs
      refine keeps_ite (P := P) (fun _ => hs) fun _ => keeps_ite (P := P) (fun _ => hP.start _ r h1) fun _ => ih ?_
      cases r with
      | field f => exact keeps_ite (P := P) (fun _ => hP.roster _ f h1) fun _ => h1
      | landing k => exact h1
      | main => exact h1

theorem pumping_queueRail (hP : Pumping P) (r : Rail) (hs : P s) : P (queueRail r s) := by
  unfold queueRail
  exact keeps_ite (P := P) (fun _ => hs) fun _ => pumping_pumpRails hP _ (hP.pop s _ hs)

/-! ### A rail step's start -/

@[simp] theorem startStep_live (r : Rail) (s : State) : (startStep r s).live = s.live := by
  unfold startStep operation
  dsimp only
  split <;> rfl

theorem startStep_frame (r : Rail) (s : State) : startStep r s = { s with power := { s.power with
    operation := (startStep r s).power.operation, vout := insert (railIx r) (voutWord s r (nominal r)) s.power.vout
    railStep := some r } } := by
  unfold startStep operation
  dsimp only
  split <;> rfl

/-- The Mast's registers and the wake's phase stay while the queue goes on outside a wake. -/
theorem pumping_word (a : Nat) (v : Word) (ha : 0x4000 ≤ a ∧ a < 0x5000) :
    Pumping fun u => u.power.phase = .none ∧ u.word a = v where
  phase u hu := by simp [hu.1]
  pop _ _ hu := hu
  start u r hu := by rw [startStep_frame]; exact hu
  roster u f hu := by
    have h := steady_rosterField (f := f.val) (v := 5) (.refl u)
    rw [h.power, h.word a ha.1 ha.2]
    exact hu

theorem word_queueRail (r : Rail) (hs : s.power.phase = .none) {a : Nat} (ha : 0x4000 ≤ a ∧ a < 0x5000) :
    (queueRail r s).word a = s.word a := (pumping_queueRail (pumping_word a _ ha) r ⟨hs, rfl⟩).2

/-- A rail asked for while a rail step is in progress waits its turn. -/
theorem mem_railQueue_queueRail {q : Rail} (hstep : s.power.railStep = some q) (hne : q ≠ r) : r ∈ (queueRail r s).power.railQueue := by
  unfold queueRail
  by_cases hr : r ∈ s.power.railQueue
  · rw [if_pos (.inl (by simpa using hr))]
    exact hr
  · rw [if_neg (by simp [hr, hstep, hne])]
    unfold pumpRails
    rw [if_pos (by simp [State.modP, hstep])]
    simp [State.modP]

theorem offWaits_eq_false (hw : ∀ w ∈ s.power.pmbWaits, w.rail ≠ r) : offWaits s r = false := by
  simp only [offWaits, List.any_eq_false, Bool.and_eq_true, beq_iff_eq, not_and]
  exact fun w hm h => absurd h (hw w hm)

/-- The queue's head is switched on. -/
theorem pumpRails_starts {rest : List Rail} (hstep : s.power.railStep = none) (hq : s.power.railQueue = r :: rest)
    (hoff : offWaits s r = false) (hmay : mayPower (s.modP fun p => { p with railQueue := rest }) r = true) :
    pumpRails (n + 1) s = startStep r (s.modP fun p => { p with railQueue := rest }) := by
  unfold pumpRails
  simp only [hstep, hq, hoff, hmay, Option.isSome_none, Bool.false_and, Bool.false_eq_true, if_false, if_true]

theorem mayPower_queue (q : List Rail) : mayPower (s.modP fun p => { p with railQueue := q }) r = mayPower s r := by
  cases r <;> rfl

/-- A rail asked for while nothing else is, that may be switched on. -/
theorem queueRail_starts (hstep : s.power.railStep = none) (hq : s.power.railQueue = []) (hw : ∀ w ∈ s.power.pmbWaits, w.rail ≠ r)
    (hmay : mayPower s r = true) : queueRail r s = startStep r s := by
  have hempty : (s.modP fun p => { p with railQueue := [] }) = s := by
    rw [State.modP, ← hq]
  unfold queueRail
  rw [if_neg (by simp [hq, hstep])]
  exact (pumpRails_starts (s := s.modP fun p => { p with railQueue := p.railQueue ++ [r] }) hstep (by simp [State.modP, hq])
    (offWaits_eq_false hw) ((mayPower_queue []).trans ((mayPower_queue _).trans hmay))).trans (congrArg (startStep r) hempty)

/-! ### A rail switched off -/

theorem fieldState_of_offs {f : FieldId} (h : Offs s t) : fieldState t f.val = fieldState s f.val :=
  get_of_word (h.word _ (.inr (.inr (.inr (by
    have := pgRostf_main f.val
    omega)))))

theorem Offs.fieldOn (h : Offs s t) (f : Nat) : fieldOn t f = fieldOn s f :=
  bit2_of_word (h.word _ (.inl (by decide))) (h.word _ (.inl (by decide)))

theorem Offs.landingOn (h : Offs s t) (k : Nat) : landingOn t k = landingOn s k := by
  rw [Machine.landingOn, Machine.landingOn, get_of_word (h.word _ (.inl (by decide)))]

theorem fieldOff_eq (f : FieldId) (v : Nat) (s : State) : fieldOff f.val v s = switchOff (.field f) v s := by
  rw [fieldOff, railAt_field]

theorem offs_fieldOff (f : FieldId) (v : Nat) (s : State) : Offs s (fieldOff f.val v s) := fieldOff_eq f v s ▸ offs_switchOff _ v s

/-- A field's rail that its regulator switches off at once. -/
theorem fieldOff_off {f : FieldId} (v d : Nat) (h : reachesRegulator s (.field f) = true) (hw : waitsFor s (.field f) = false) :
    fieldRail (fieldOff f.val v s) f.val = false ∧ lookup d (fieldOff f.val v s).power.operation f.val = v := by
  rw [fieldOff_eq, switchOff_of_reached v h hw]
  exact ⟨by simp [fieldRail_railOff], lookup_operation_railOff d v h⟩

/-- A landing's rail that its regulator switches off at once. -/
theorem landing_switchOff {k : LandingId} (v d : Nat) (h : reachesRegulator s (.landing k) = true)
    (hw : waitsFor s (.landing k) = false) : landingRail (switchOff (.landing k) v s) k.val = false ∧
      lookup d (switchOff (.landing k) v s).power.operation (56 + k.val) = v := by
  rw [switchOff_of_reached v h hw]
  exact ⟨by simp [landingRail_railOff], lookup_operation_railOff d v h⟩

/-! ## Requests for rails -/

/-- What a request for a rail does outside a wake: with nothing else asked for the rail step starts, and behind another rail step the
rail waits its turn. -/
theorem queueRail_request (hp : t.power = s.power) (hr : reachesRegulator t r = reachesRegulator s r)
    (hmay : reachesRegulator s r = true → r ∉ s.power.badRails → mayPower t r = true) :
    (s.power.railStep = none → s.power.railQueue = [] → reachesRegulator s r = true → r ∉ s.power.badRails →
      (∀ w ∈ s.power.pmbWaits, w.rail ≠ r) →
      (queueRail r t).power.railStep = some r ∧ lookup 0 (queueRail r t).power.operation (railIx r) = 0x80 ∧
        lookup 0 (queueRail r t).power.vout (railIx r) = voutWord s r (nominal r)) ∧
    (s.power.railStep ≠ none → s.power.railStep ≠ some r → r ∈ (queueRail r t).power.railQueue) := by
  rw [← hp]
  refine ⟨fun hstep hq hreach hbad hw => ?_, fun hstep hne => ?_⟩
  · rw [queueRail_starts hstep hq hw (hmay hreach (hp ▸ hbad))]
    have hvout : voutWord t r (nominal r) = voutWord s r (nominal r) := by rw [voutWord, voutWord, hp]
    refine ⟨rfl, ?_, ?_⟩
    · simp only [startStep, operation, State.modP, show reachesRegulator (voutCommand r (nominal r) t) r = true from hr.trans hreach,
        if_true]
      exact lookup_insert_same _ _ _ _
    · rw [startStep_frame, ← hvout]
      exact lookup_insert_same _ _ _ _
  · obtain ⟨q, hq⟩ := Option.ne_none_iff_exists'.1 hstep
    exact mem_railQueue_queueRail hq (fun h => hne (h ▸ hq))

theorem fieldOn_queueRail {f : Nat} (r : Rail) (hs : s.power.phase = .none) : fieldOn (queueRail r s) f = fieldOn s f :=
  bit2_of_word (word_queueRail r hs (by decide)) (word_queueRail r hs (by decide))

theorem landingOn_queueRail {k : Nat} (r : Rail) (hs : s.power.phase = .none) : landingOn (queueRail r s) k = landingOn s k := by
  rw [landingOn, landingOn, get_of_word (word_queueRail r hs (by decide))]

/-! ### A field asked for -/

theorem word_setFieldOn_other (f : Nat) (b : Bool) (s : State) {a : Nat} (h : a ≠ 0x4044) (h' : a ≠ 0x4048) :
    (setFieldOn f b s).word a = s.word a := word_setBit2_other s b h h'

theorem power_setFieldOn (f : Nat) (b : Bool) (s : State) : (setFieldOn f b s).power = s.power := setBit2_power

theorem reaches_setFieldOn (f : Nat) (b : Bool) (s : State) (r : Rail) :
    reachesRegulator (setFieldOn f b s) r = reachesRegulator s r :=
  reaches_of_word (word_setFieldOn_other f b s (by decide) (by decide)) setBit2_power setBit2_tap r

theorem awake_setFieldOn (f : Nat) (b : Bool) (s : State) : awake (setFieldOn f b s) = awake s := by
  rw [awake, awake, pwrState, pwrState, get_of_word (word_setFieldOn_other f b s (by decide) (by decide)), power_setFieldOn]

theorem fieldRail_setFieldOn (f : Nat) (b : Bool) (s : State) (g : Nat) : fieldRail (setFieldOn f b s) g = fieldRail s g :=
  bit2_of_word (word_setFieldOn_other f b s (by decide) (by decide)) (word_setFieldOn_other f b s (by decide) (by decide))

theorem fieldRetired_setFieldOn (f : Nat) (b : Bool) (s : State) (g : Nat) : fieldRetired (setFieldOn f b s) g = fieldRetired s g := by
  rw [fieldRetired, fieldRetired, retiredRecs, retiredRecs, recsA_of_map (u := setFieldOn f b s) (s := s) setBit2_map]
  rw [show (setFieldOn f b s).m = s.m from setBit2_m]

theorem fieldState_setFieldOn (f : Nat) (b : Bool) (s : State) (g : Nat) : fieldState (setFieldOn f b s) g = fieldState s g := by
  have := pgRostf_main g
  exact get_of_word (word_setFieldOn_other f b s (by omega) (by omega))

/-- The request of a field in an awake wafer, with the edge that it makes. -/
def askField (f : Nat) (s : State) : State := onRoster id (setFieldOn f true s)

theorem steady_askField (f : Nat) (s : State) : Steady (setFieldOn f true s) (askField f s) := steady_onRoster_id _

theorem mayPower_askField {f : FieldId} (hret : fieldRetired s f.val = false) (hst : fieldState s f.val ≠ 7)
    (hrail : fieldRail s f.val = false) (hleave : s.power.leaving.contains f.val = false)
    (hreach : reachesRegulator s (.field f) = true) (hbad : Rail.field f ∉ s.power.badRails) :
    mayPower (askField f.val s) (.field f) = true := by
  have h := steady_askField f.val s
  have hpow : (askField f.val s).power = s.power := h.power.trans setBit2_power
  have hret' : fieldRetired (askField f.val s) f.val = false := by rw [askField, fieldRetired_onRoster_id, fieldRetired_setFieldOn, hret]
  have hst' : fieldState (askField f.val s) f.val ≠ 7 := by
    rw [askField, onRoster, fieldState_settle]
    exact (fieldState_setFieldOn f.val true s f.val).trans_ne hst
  simp only [mayPower, h.reaches, h.fieldOn, h.fieldRail, reaches_setFieldOn, fieldOn_setFieldOn_same, fieldRail_setFieldOn, hpow, hreach,
    hret', hrail, hleave]
  simp [hbad, hst']

theorem fieldOnSet_asleep {f : Nat} (hoff : fieldOn s f = false) (ha : awake s = false) (hph : s.power.phase = .none) :
    fieldOnSet f s = setFieldOn f true s := by
  simp [fieldOnSet, hoff, awake_setFieldOn, ha, power_setFieldOn, hph]

theorem fieldOnSet_awake {f : Nat} (hoff : fieldOn s f = false) (ha : awake s = true) :
    fieldOnSet f s = queueRail (railAt f) (askField f s) := by
  simp [fieldOnSet, hoff, awake_setFieldOn, ha, askField]

/-! ### A landing asked for -/

/-- LANDING_ON of a landing set. -/
abbrev setLandingOn (k : Nat) (b : Bool) (s : State) : State := s.setBit pgMpwr MPWR.LANDING_ON_ON k b

theorem word_setLandingOn_other (k : Nat) (b : Bool) (s : State) {a : Nat} (h : a ≠ 0x404C) :
    (setLandingOn k b s).word a = s.word a := word_set_other s _ h

theorem landingOn_setLandingOn_same (k : LandingId) (b : Bool) (s : State) : landingOn (setLandingOn k.val b s) k.val = b :=
  bitAt_get_setBit_same _ _ _ _ _ (by decide) k.isLt

theorem reaches_setLandingOn (k : Nat) (b : Bool) (s : State) (r : Rail) :
    reachesRegulator (setLandingOn k b s) r = reachesRegulator s r :=
  reaches_of_word (word_setLandingOn_other k b s (by decide)) rfl rfl r

theorem awake_setLandingOn (k : Nat) (b : Bool) (s : State) : awake (setLandingOn k b s) = awake s := by
  rw [awake, awake, pwrState, pwrState, get_of_word (word_setLandingOn_other k b s (by decide))]
  rfl

theorem landingRail_setLandingOn (k : Nat) (b : Bool) (s : State) (j : Nat) : landingRail (setLandingOn k b s) j = landingRail s j := by
  rw [landingRail, landingRail, get_of_word (word_setLandingOn_other k b s (by decide))]

/-- The request of a landing in an awake wafer, with the edge that it makes. -/
def askLanding (k : Nat) (s : State) : State := onRoster id (setLandingOn k true s)

theorem steady_askLanding (k : Nat) (s : State) : Steady (setLandingOn k true s) (askLanding k s) := steady_onRoster_id _

theorem mayPower_askLanding {k : LandingId} (hrail : landingRail s k.val = false) (hreach : reachesRegulator s (.landing k) = true)
    (hbad : Rail.landing k ∉ s.power.badRails) : mayPower (askLanding k.val s) (.landing k) = true := by
  have h := steady_askLanding k.val s
  simp only [mayPower, h.reaches, h.landingOn, h.landingRail, reaches_setLandingOn, landingOn_setLandingOn_same,
    landingRail_setLandingOn, h.power, hreach, hrail]
  simp [hbad]

theorem landingOnSet_asleep {k : Nat} (hoff : landingOn s k = false) (ha : awake s = false) (hph : s.power.phase = .none) :
    landingOnSet k s = setLandingOn k true s := by
  simp [landingOnSet, hoff, awake_setLandingOn, ha, hph]

theorem landingOnSet_awake {k : Nat} (hoff : landingOn s k = false) (ha : awake s = true) :
    landingOnSet k s = queueRail (railAt (56 + k)) (askLanding k s) := by
  simp [landingOnSet, hoff, awake_setLandingOn, ha, askLanding]

/-! ### A request withdrawn -/

theorem cseqStopped_of_word (h : t.word (pgCseq + CSEQ.CSEQ_STATUS_STATE.off) = s.word (pgCseq + CSEQ.CSEQ_STATUS_STATE.off)) :
    cseqStopped t = cseqStopped s := by
  rw [cseqStopped, cseqStopped, cseqState, cseqState, get_of_word h]

theorem fieldOnClear_awake {f : Nat} (hon : fieldOn s f = true) (ha : awake s = true) :
    fieldOnClear f s = onRoster (fieldCleared f) (setFieldOn f false s) := by
  simp [fieldOnClear, hon, awake_setFieldOn, ha]

/-- A field that leaves at once, its request withdrawn. -/
theorem leaveField_frame {f : FieldId} (hst : fieldState s f.val ≠ 7) (hon : fieldOn s f.val = false) :
    ∃ u, Steady { s with power := { s.power with leaving := s.power.leaving.erase f.val } } u ∧ fieldState u f.val = 0 ∧
      leaveField f.val s = fieldOff f.val 0x40 u := by
  have h := steady_removeField (f := f.val) (v := 0) (w := 0) (lost := false)
    (.refl (s.modP fun p => { p with leaving := p.leaving.erase f.val }))
  refine ⟨_, h, fieldState_removeField f (by decide) 0 false _, ?_⟩
  unfold leaveField
  dsimp only
  rw [if_neg (show ¬fieldState (s.modP fun p => { p with leaving := p.leaving.erase f.val }) f.val = 7 from hst)]
  refine if_neg ?_
  rw [(offs_fieldOff f 0x40 _).fieldOn, h.fieldOn]
  exact Bool.eq_false_iff.1 hon

/-- FIELD_ON cleared of a powered field at slack water. -/
theorem fieldCleared_stopped {f : FieldId} (hrail : fieldRail s f.val = true) (hon : fieldOn s f.val = false)
    (hst : fieldState s f.val ≠ 7) (hstop : cseqStopped s = true) :
    fieldState (fieldCleared f.val s) f.val = 0 ∧ fieldOn (fieldCleared f.val s) f.val = false ∧
      (reachesRegulator s (.field f) = true → (∀ w ∈ s.power.pmbWaits, w.rail ≠ .field f) →
        fieldRail (fieldCleared f.val s) f.val = false ∧ lookup 0 (fieldCleared f.val s).power.operation f.val = 0x40) := by
  obtain ⟨u, hu, h0, heq⟩ := leaveField_frame hst hon
  have heq : fieldCleared f.val s = fieldOff f.val 0x40 u := by simp only [fieldCleared, hrail, hstop, if_true, heq]
  have hoffs := offs_fieldOff f 0x40 u
  rw [heq]
  refine ⟨(fieldState_of_offs hoffs).trans h0, ?_, fun hreach hw => ?_⟩
  · rw [hoffs.fieldOn, hu.fieldOn]
    exact hon
  · exact fieldOff_off 0x40 0 ((hu.reaches _).trans hreach) ((hu.waitsFor _).trans (waitsFor_eq_false hw))

/-- FIELD_ON cleared of a powered field while CSEQ runs. -/
theorem fieldCleared_running {f : FieldId} (hrail : fieldRail s f.val = true) (hst : fieldState s f.val ≠ 7)
    (hrun : cseqStopped s = false) : fieldState (fieldCleared f.val s) f.val = 8 ∧ f.val ∈ (fieldCleared f.val s).power.leaving ∧
      fieldOn (fieldCleared f.val s) f.val = fieldOn s f.val := by
  have heq : fieldCleared f.val s = startRoutes (dropDead f.val (setFieldState f.val 8
      (s.modP fun p => { p with leaving := p.leaving ++ [f.val] }))) := by
    simp only [fieldCleared, hrail, hrun, hst, if_true, if_false, Bool.false_eq_true]
  have h : Steady (s.modP fun p => { p with leaving := p.leaving ++ [f.val] }) (fieldCleared f.val s) := by
    rw [heq]
    exact steady_startRoutes (steady_dropDead (steady_setFieldState (.refl _)))
  refine ⟨?_, ?_, h.fieldOn f.val⟩
  · have hP := fencing_fieldState f 8
    rw [heq]
    exact fencing_startRoutes hP (stateWord_noEnd f)
      (fencing_dropDead hP (stateWord_noEnd f) f.val (fieldState_setFieldState (by decide) _))
  · rw [h.power]
    simp [State.modP]

theorem landingOnClear_powered {k : LandingId} (hon : landingOn s k.val = true) (hrail : landingRail s k.val = true) :
    ∃ u, Steady (setLandingOn k.val false s) u ∧ landingOnClear k.val s = switchOff (.landing k) 0x40 u := by
  refine ⟨_, steady_onRoster (g := fun u => startRoutes (dropLanding k.val u))
    (fun h => steady_startRoutes (steady_dropLanding h)) (.refl _), ?_⟩
  have hrail' : landingRail (s.setBit pgMpwr MPWR.LANDING_ON_ON k.val false) k.val = true :=
    (landingRail_setLandingOn k.val false s k.val).trans hrail
  simp only [landingOnClear, hon, hrail', railAt_landing, Bool.not_true, Bool.false_eq_true, if_false]

/-! ### The obligation -/

/-- FIELD_ON_SET of a clear bit. -/
theorem fieldOnSet_requests {f : FieldId} (hph : s.power.phase = .none) (hoff : fieldOn s f.val = false)
    (hret : fieldRetired s f.val = false) (hst : fieldState s f.val ≠ 7) (hrail : fieldRail s f.val = false)
    (hleave : s.power.leaving.contains f.val = false) :
    fieldOn (fieldOnSet f.val s) f.val = true ∧ (moored s = true → (fieldOnSet f.val s).power = s.power) ∧
    (awake s = true → ∃ t, t.power = s.power ∧ reachesRegulator t (.field f) = reachesRegulator s (.field f) ∧
      (reachesRegulator s (.field f) = true → Rail.field f ∉ s.power.badRails → mayPower t (.field f) = true) ∧
      fieldOnSet f.val s = queueRail (.field f) t) := by
  by_cases ha : awake s = true
  · have h := steady_askField f.val s
    have heq : fieldOnSet f.val s = queueRail (.field f) (askField f.val s) := by rw [fieldOnSet_awake hoff ha, railAt_field]
    have hpow : (askField f.val s).power = s.power := h.power.trans setBit2_power
    refine ⟨?_, fun hm => absurd ha (by simp [awake_of_moored hm]), fun _ => ⟨_, hpow, (h.reaches _).trans (reaches_setFieldOn _ _ _ _),
      mayPower_askField hret hst hrail hleave, heq⟩⟩
    rw [heq, fieldOn_queueRail _ (by rw [hpow, hph]), h.fieldOn, fieldOn_setFieldOn_same]
  · have ha := Bool.eq_false_iff.2 ha
    rw [fieldOnSet_asleep hoff ha hph]
    exact ⟨fieldOn_setFieldOn_same _ _ _, fun _ => setBit2_power, fun h => absurd h (by simp [ha])⟩

/-- LANDING_ON_SET of a clear bit. -/
theorem landingOnSet_requests {k : LandingId} (hph : s.power.phase = .none) (hoff : landingOn s k.val = false)
    (hrail : landingRail s k.val = false) :
    landingOn (landingOnSet k.val s) k.val = true ∧ (moored s = true → (landingOnSet k.val s).power = s.power) ∧
    (awake s = true → ∃ t, t.power = s.power ∧ reachesRegulator t (.landing k) = reachesRegulator s (.landing k) ∧
      (reachesRegulator s (.landing k) = true → Rail.landing k ∉ s.power.badRails → mayPower t (.landing k) = true) ∧
      landingOnSet k.val s = queueRail (.landing k) t) := by
  by_cases ha : awake s = true
  · have h := steady_askLanding k.val s
    have heq : landingOnSet k.val s = queueRail (.landing k) (askLanding k.val s) := by rw [landingOnSet_awake hoff ha, railAt_landing]
    refine ⟨?_, fun hm => absurd ha (by simp [awake_of_moored hm]), fun _ => ⟨_, h.power,
      (h.reaches _).trans (reaches_setLandingOn _ _ _ _), mayPower_askLanding hrail, heq⟩⟩
    rw [heq, landingOn_queueRail _ (by rw [h.power]; exact hph), h.landingOn, landingOn_setLandingOn_same]
  · have ha := Bool.eq_false_iff.2 ha
    rw [landingOnSet_asleep hoff ha hph]
    exact ⟨landingOn_setLandingOn_same _ _ _, fun _ => rfl, fun h => absurd h (by simp [ha])⟩

theorem fieldOnClear_withdraws {f : FieldId} (ha : awake s = true) (hon : fieldOn s f.val = true) (hrail : fieldRail s f.val = true)
    (hst : fieldState s f.val ≠ 7) :
    fieldOn (fieldOnClear f.val s) f.val = false ∧
    (cseqStopped s = true → fieldState (fieldOnClear f.val s) f.val = 0 ∧
      (reachesRegulator s (.field f) = true → (∀ w ∈ s.power.pmbWaits, w.rail ≠ .field f) →
        fieldRail (fieldOnClear f.val s) f.val = false ∧ lookup 0 (fieldOnClear f.val s).power.operation f.val = 0x40)) ∧
    (cseqStopped s = false → f.val ∈ (fieldOnClear f.val s).power.leaving ∧ fieldState (fieldOnClear f.val s) f.val = 8) := by
  have hoff : fieldOn (setFieldOn f.val false s) f.val = false := fieldOn_setFieldOn_same f false s
  have hrail' := (fieldRail_setFieldOn f.val false s f.val).trans hrail
  have hst' : fieldState (setFieldOn f.val false s) f.val ≠ 7 := (fieldState_setFieldOn f.val false s f.val).trans_ne hst
  have hcseq : cseqStopped (setFieldOn f.val false s) = cseqStopped s :=
    cseqStopped_of_word (word_setFieldOn_other f.val false s (by decide) (by decide))
  have hedge : Steady (fieldCleared f.val (setFieldOn f.val false s)) (fieldOnClear f.val s) := by
    rw [fieldOnClear_awake hon ha]
    exact steady_settle (.refl _)
  have hstate : fieldState (fieldOnClear f.val s) f.val = fieldState (fieldCleared f.val (setFieldOn f.val false s)) f.val := by
    rw [fieldOnClear_awake hon ha, onRoster, fieldState_settle]
  rw [hedge.fieldOn, hedge.fieldRail, hedge.power, hstate]
  cases hstop : cseqStopped s with
  | true =>
    obtain ⟨h0, hon0, hoff0⟩ := fieldCleared_stopped hrail' hoff hst' (hcseq.trans hstop)
    rw [reaches_setFieldOn, power_setFieldOn] at hoff0
    exact ⟨hon0, fun _ => ⟨h0, hoff0⟩, nofun⟩
  | false =>
    obtain ⟨h8, hmem, hsame⟩ := fieldCleared_running hrail' hst' (hcseq.trans hstop)
    exact ⟨hsame.trans hoff, nofun, fun _ => ⟨hmem, h8⟩⟩

theorem landingOnClear_withdraws {k : LandingId} (hon : landingOn s k.val = true) (hrail : landingRail s k.val = true) :
    landingOn (landingOnClear k.val s) k.val = false ∧
    (reachesRegulator s (.landing k) = true → (∀ w ∈ s.power.pmbWaits, w.rail ≠ .landing k) →
      landingRail (landingOnClear k.val s) k.val = false ∧
        lookup 0 (landingOnClear k.val s).power.operation (56 + k.val) = 0x40) := by
  obtain ⟨u, hu, heq⟩ := landingOnClear_powered hon hrail
  rw [heq, (offs_switchOff _ _ u).landingOn, hu.landingOn, landingOn_setLandingOn_same]
  refine ⟨rfl, fun hreach hw => landing_switchOff 0x40 0 ?_ ?_⟩
  · rw [hu.reaches, reaches_setLandingOn, hreach]
  · exact (hu.waitsFor _).trans (waitsFor_eq_false hw)

/-- Settles O47: a request is recorded on the wafer's own edge and then queued; a withdrawn one takes the field or the landing out of the
roster before the rail is written off. -/
theorem railRequestsAct : Obligations.RailRequestsAct := by
  intro s hs hph
  refine ⟨fun r c h => ?_, fun f ha hon hrail hst => ?_, fun k hon hrail => ?_⟩
  · cases r with
    | field f =>
      obtain ⟨rfl, hoff, hret, hst, hrail, hleave⟩ := h
      obtain ⟨hon, hm, hq⟩ := fieldOnSet_requests hph hoff hret hst hrail hleave
      refine ⟨_, ifStandby_on hs, hon, hm, fun ha => ?_, fun ha => ?_⟩ <;> obtain ⟨t, hp, hr, hmay, heq⟩ := hq ha <;> rw [heq]
      · exact (queueRail_request hp hr hmay).1
      · exact (queueRail_request hp hr hmay).2
    | landing k =>
      obtain ⟨rfl, hoff, hrail⟩ := h
      obtain ⟨hon, hm, hq⟩ := landingOnSet_requests hph hoff hrail
      refine ⟨_, ifStandby_on hs, hon, hm, fun ha => ?_, fun ha => ?_⟩ <;> obtain ⟨t, hp, hr, hmay, heq⟩ := hq ha <;> rw [heq]
      · exact (queueRail_request hp hr hmay).1
      · exact (queueRail_request hp hr hmay).2
    | main => exact h.elim
  · exact ⟨_, ifStandby_on hs, fieldOnClear_withdraws ha hon hrail hst⟩
  · exact ⟨_, ifStandby_on hs, landingOnClear_withdraws hon hrail⟩

end Sys2Proof.Machine
end

section
namespace Sys2Proof.Machine
open Sys2Proof

variable {P : State → Prop} {s s0 t u : State} {r : Rail} {n : Nat}

/-! ## The sideband: what its failures leave -/

/-- The rail queue has nothing to do. -/
theorem nextRail_idle (hm : s.power.moorPending = none) (hq : s.power.railQueue = []) (hp : s.power.phase = .none) :
    nextRail s = s := by
  unfold nextRail
  rw [show moorIfPending s = none by rw [moorIfPending, hm]; rfl]
  simp [pumpRails, hq, hp]

theorem afterMoor_of_none (probe : ProbeAnswers) (h : s.power.mooring = none) : afterMoor probe s = s := by simp [afterMoor, h]

/-! ### Faults and alerts of rails -/

/-- The fault bit of a field's rail. -/
abbrev fieldFault (s : State) (f : Nat) : Bool := s.bit2 pgMpwr MPWR.RAIL_FAULT_LO_FAULT MPWR.RAIL_FAULT_HI_FAULT f

theorem Steady.fieldFault (h : Steady s t) (f : Nat) : fieldFault t f = fieldFault s f := h.bit2 (by decide) (by decide) f

theorem fieldFault_setFault (f : FieldId) (s : State) : fieldFault (setFault (.field f) s) f.val = true :=
  bit2_setBit2_same fieldSet_fault s f.isLt true

theorem word_setFault_field (f : FieldId) (s : State) {a : Nat} (h : a ≠ 0x4060) (h' : a ≠ 0x4064) :
    (setFault (.field f) s).word a = s.word a := word_setBit2_other s true h h'

theorem steady_railFault (r : Rail) (s : State) : Steady (setFault r s) (railFault r s) :=
  steady_ite (fun _ => steady_settle (.refl _)) fun _ => .refl _

theorem steady_powerAlert {c a b : Nat} (h : Steady s0 s) : Steady s0 (powerAlert c a b s) := steady_raiseEvent h

theorem alertSet_powerAlert (c a b : Nat) (s : State) : AlertSet acPower (powerAlert c a b s) :=
  alertSet_raiseEvent (by decide) rfl s

/-! ### A rail that keeps its power -/

theorem steady_railKept {f : Nat} (h : Steady s0 s) : Steady s0 (railKept f s) :=
  steady_ite (fun _ => steady_frame (steady_raiseEvent h) rfl) fun _ => steady_raiseEvent h

theorem alertSet_railKept {c : Nat} (hc : c < 7) (f : Nat) (hs : AlertSet c s) : AlertSet c (railKept f s) := by
  have h := lingers_raiseEvent (lingers_alertSet hc) { code := 0x1008, field := f } (.inl hs)
  exact keeps_ite (P := AlertSet c) (fun _ => alertSet_congr rfl h) fun _ => h

/-- In an awake wafer the field is held with its rail on. -/
theorem mem_tripHeld_railKept {f : Nat} (ha : pwrState s = 2) : f ∈ (railKept f s).m.tripHeld := by
  have hst : pwrState (raiseEvent { code := 0x1008, field := f } s) = 2 := (steady_raiseEvent (.refl s)).pwrState.trans ha
  unfold railKept
  simp [hst]

/-! ### Transactions given up -/

variable {p : PmbWait → Bool}

/-- The transactions that are left. -/
def keptWaits (p : PmbWait → Bool) (s : State) : State := s.modP fun q => { q with pmbWaits := q.pmbWaits.filter fun w => !p w }

theorem steady_dropWaits (p : PmbWait → Bool) (s : State) : Steady (keptWaits p s) (dropWaits p s) :=
  steady_foldl (fun _ h => steady_ite (fun _ => steady_railKept h) fun _ => h) _ (.refl _)

theorem alertSet_dropWaits {c : Nat} (hc : c < 7) (p : PmbWait → Bool) (hs : AlertSet c s) : AlertSet c (dropWaits p s) :=
  keeps_foldl (fun _ _ _ h => keeps_ite (P := AlertSet c) (fun _ => alertSet_railKept hc _ h) fun _ => h)
    (show AlertSet c (keptWaits p s) from hs)

/-! ### The third retry -/

/-- A regulator that has been given up, with its fault and its alert, and nothing of its rail waiting. -/
def marked (w : PmbWait) (s : State) : State :=
  dropWaits (fun x => x.rail == w.rail)
    (powerAlert 0x1003 (railNo w.rail) (railAddr w.rail)
      (railFault w.rail (s.modP fun p => { p with silentRails := p.silentRails ++ [w.rail] })))

/-- A write that switches a field off, or a visit, given up: the rail of a tripped field keeps its power. -/
def writeGivenUp (w : PmbWait) (f : FieldId) (s : State) : State :=
  if w.purpose = .tripOff then railKept f.val (marked w s) else marked w s

theorem giveUp_off {w : PmbWait} (probe : ProbeAnswers) {f : FieldId} (hr : w.rail = .field f)
    (hw : w.purpose = .visit ∨ w.purpose = .softOff ∨ w.purpose = .tripOff) : giveUp w probe s = nextRail (writeGivenUp w f s) := by
  unfold giveUp
  obtain h | h | h := hw <;> simp [h, hr, marked, railIx, writeGivenUp]

/-- The same change of the Mast's power state on both sides. -/
theorem Steady.modP (g : PowerSt → PowerSt) (h : Steady s t) : Steady (s.modP g) (t.modP g) :=
  ⟨h.word, congrArg g h.power, h.tap, h.pins, h.port⟩

/-- The power side of a regulator's mark. -/
def markedPower (w : PmbWait) (s : State) : State :=
  keptWaits (fun x => x.rail == w.rail) (setFault w.rail (s.modP fun p => { p with silentRails := p.silentRails ++ [w.rail] }))

theorem steady_marked (w : PmbWait) (s : State) : Steady (markedPower w s) (marked w s) :=
  ((steady_powerAlert (steady_railFault w.rail _)).modP _).trans (steady_dropWaits _ _)

theorem alertSet_marked (w : PmbWait) (s : State) : AlertSet acPower (marked w s) :=
  alertSet_dropWaits (by decide) _ (alertSet_powerAlert _ _ _ _)

theorem steady_writeGivenUp (w : PmbWait) (f : FieldId) (s : State) : Steady (markedPower w s) (writeGivenUp w f s) :=
  steady_ite (fun _ => steady_railKept (steady_marked w s)) fun _ => steady_marked w s

theorem alertSet_writeGivenUp (w : PmbWait) (f : FieldId) (s : State) : AlertSet acPower (writeGivenUp w f s) :=
  keeps_ite (P := AlertSet acPower) (fun _ => alertSet_railKept (by decide) _ (alertSet_marked w s)) fun _ => alertSet_marked w s

/-- A regulator of a field given up: it is marked with its fault set, nothing of it waits, and the rest stays. -/
theorem markedPower_field {w : PmbWait} {f : FieldId} (hr : w.rail = .field f) (s : State) :
    fieldFault (markedPower w s) f.val = true ∧
    (markedPower w s).power = { s.power with
      silentRails := s.power.silentRails ++ [.field f], pmbWaits := s.power.pmbWaits.filter fun x => !(x.rail == .field f) } ∧
    ∀ a, a ≠ 0x4060 → a ≠ 0x4064 → (markedPower w s).word a = s.word a := by
  have hpow : (setFault (.field f) (s.modP fun p => { p with silentRails := p.silentRails ++ [.field f] })).power =
      { s.power with silentRails := s.power.silentRails ++ [.field f] } := setBit2_power
  unfold markedPower
  rw [hr]
  refine ⟨fieldFault_setFault f _, ?_, fun a h h' => word_setFault_field f _ h h'⟩
  rw [keptWaits, State.modP, hpow]

/-- PMBUS_RETRY while the queue, the wake and a mooring have nothing to do. -/
structure Quiet (s : State) : Prop where
  phase : s.power.phase = .none
  queue : s.power.railQueue = []
  pending : s.power.moorPending = none
  mooring : s.power.mooring = none

theorem Quiet.next (h : Quiet s) : nextRail s = s := nextRail_idle h.pending h.queue h.phase

theorem Quiet.after (probe : ProbeAnswers) (h : Quiet s) : afterMoor probe s = s := afterMoor_of_none probe h.mooring

theorem Quiet.of_power (h : Quiet s) {q : PowerSt} (hp : t.power = q) (hq : (q.phase, q.railQueue, q.moorPending, q.mooring) =
    (s.power.phase, s.power.railQueue, s.power.moorPending, s.power.mooring)) : Quiet t := by
  simp only [Prod.mk.injEq] at hq
  obtain ⟨h1, h2, h3, h4⟩ := hq
  subst hp
  exact ⟨h1.trans h.phase, h2.trans h.queue, h3.trans h.pending, h4.trans h.mooring⟩

/-- The transaction at the front taken. -/
abbrev popWait (rest : List PmbWait) (s : State) : State := s.modP fun p => { p with pmbWaits := rest }

theorem pmbusRetry_counts {w : PmbWait} {rest : List PmbWait} (probe : ProbeAnswers) (hs : s.power.standby = true)
    (hx : s.tap.extest = false) (hw : s.power.pmbWaits = w :: rest) (ht : w.tries < 2) :
    exec (.pmbusRetry .noAck probe) s =
      .next { s with power := { s.power with pmbWaits := ⟨w.rail, w.purpose, w.tries + 1⟩ :: rest } } := by
  change execPmbusRetry .noAck probe s = _
  rw [execPmbusRetry, ifStandby_on hs]
  simp [hx, hw, ht, State.modP]

theorem pmbusRetry_gives_up {w : PmbWait} {rest : List PmbWait} (probe : ProbeAnswers) (hs : s.power.standby = true)
    (hx : s.tap.extest = false) (hw : s.power.pmbWaits = w :: rest) (ht : 2 ≤ w.tries) :
    exec (.pmbusRetry .noAck probe) s = .next (afterMoor probe (giveUp w probe (popWait rest s))) := by
  change execPmbusRetry .noAck probe s = _
  rw [execPmbusRetry, ifStandby_on hs]
  simp [hx, hw, Nat.not_lt.2 ht]

theorem pmbusRetry_completes {w : PmbWait} {rest : List PmbWait} {reply : RetryReply} (probe : ProbeAnswers)
    (hs : s.power.standby = true) (hx : s.tap.extest = false) (hw : s.power.pmbWaits = w :: rest) (hr : reply ≠ .noAck)
    (hp : w.purpose ≠ .probe) :
    exec (.pmbusRetry reply probe) s = .next (afterMoor probe (retried w reply probe (popWait rest s))) := by
  change execPmbusRetry reply probe s = _
  rw [execPmbusRetry, ifStandby_on hs]
  cases reply with
  | noAck => exact absurd rfl hr
  | status x d => simp [hx, hw, hp]
  | readings x y z => simp [hx, hw]

/-- The third retry of a visit or of a write that switches a field off, where nothing else goes on. -/
theorem third_retry_of_field {w : PmbWait} {rest : List PmbWait} {f : FieldId} (probe : ProbeAnswers) (hs : s.power.standby = true)
    (hx : s.tap.extest = false) (hw : s.power.pmbWaits = w :: rest) (ht : 2 ≤ w.tries) (hq : Quiet s) (hr : w.rail = .field f)
    (hp : w.purpose = .visit ∨ w.purpose = .softOff ∨ w.purpose = .tripOff) :
    ∃ s', exec (.pmbusRetry .noAck probe) s = .next s' ∧ Rail.field f ∈ s'.power.silentRails ∧ fieldFault s' f.val = true ∧
      AlertSet acPower s' ∧ (∀ x ∈ s'.power.pmbWaits, x.rail ≠ .field f) ∧
      (w.purpose = .tripOff → awake s = true → f.val ∈ s'.m.tripHeld ∧ fieldRail s' f.val = fieldRail s f.val) := by
  obtain ⟨hfault, hpow, hword⟩ := markedPower_field hr (popWait rest s)
  have h := steady_writeGivenUp w f (popWait rest s)
  have hend := hq.of_power (t := writeGivenUp w f (popWait rest s)) (h.power.trans hpow) rfl
  refine ⟨_, pmbusRetry_gives_up probe hs hx hw ht, ?_⟩
  rw [giveUp_off probe hr hp, hend.next, hend.after, h.fieldFault, h.fieldRail, h.power, hpow]
  refine ⟨by simp, hfault, alertSet_writeGivenUp w f _, fun x hx => by simpa using (List.mem_filter.1 hx).2,
    fun htrip ha => ⟨?_, ?_⟩⟩
  · rw [writeGivenUp, if_pos htrip]
    refine mem_tripHeld_railKept ?_
    rw [(steady_marked w (popWait rest s)).pwrState, pwrState, get_of_word (hword _ (by decide) (by decide))]
    exact pwrState_of_awake ha
  · exact bit2_of_word (hword _ (by decide) (by decide)) (hword _ (by decide) (by decide))

/-- A visit carried by its retry. -/
theorem visit_retried {w : PmbWait} {rest : List PmbWait} {f : FieldId} {reply : RetryReply} (probe : ProbeAnswers)
    (hs : s.power.standby = true) (hx : s.tap.extest = false) (hw : s.power.pmbWaits = w :: rest) (hq : Quiet s)
    (hr : w.rail = .field f) (hreply : reply ≠ .noAck) (hp : w.purpose = .visit) (hon : fieldRail s f.val = true) :
    exec (.pmbusRetry reply probe) s = .next (visit f.val (popWait rest s)) := by
  have heq : retried w reply probe (popWait rest s) = visit f.val (popWait rest s) := by
    have hon' : fieldRail (popWait rest s) f.val = true := hon
    simp [retried, hp, hr, hon']
  rw [pmbusRetry_completes probe hs hx hw hreply (by simp [hp]), heq]
  exact congrArg _ ((hq.of_power (t := visit f.val (popWait rest s)) rfl rfl).after probe)

/-- A visit leaves VSET at VDEMAND and its voltage written. -/
theorem visit_vset (f : FieldId) (s : State) :
    (visit f.val s).get pgMpwr (MPWR.VSET_CODE.at f.val) = s.get (pgFpwr f.val) FPWR.LOOP_STATUS_VDEMAND ∧
    lookup 0 (visit f.val s).power.vout f.val =
      voutWord s (.field f) (600 + 5 * s.get (pgFpwr f.val) FPWR.LOOP_STATUS_VDEMAND) := by
  have hv := get_lt s (pgFpwr f.val) FPWR.LOOP_STATUS_VDEMAND
  unfold visit
  rw [railAt_field]
  refine ⟨?_, lookup_insert_same _ _ _ _⟩
  rw [get_set_same _ _ _ _ (by simp [Fld.at, MPWR.VSET_CODE])]
  exact Nat.mod_eq_of_lt hv

theorem railOff_power (r : Rail) (v : Nat) (s : State) :
    (railOff r v s).power = { s.power with operation := (railOff r v s).power.operation } := by
  have h := (offs_railOff r v s).rest
  have hp := congrArg State.power h
  rw [pmbWaits_railOff] at hp
  exact hp

/-- A write that switches a field's rail off, carried by its retry. -/
theorem off_retried {w : PmbWait} {rest : List PmbWait} {f : FieldId} {reply : RetryReply} (probe : ProbeAnswers)
    (hs : s.power.standby = true) (hx : s.tap.extest = false) (hw : s.power.pmbWaits = w :: rest) (hq : Quiet s)
    (hr : w.rail = .field f) (hreply : reply ≠ .noAck) (hp : w.purpose = .softOff ∨ w.purpose = .tripOff) :
    exec (.pmbusRetry reply probe) s =
      .next (railOff (.field f) (if w.purpose = .softOff then 0x40 else 0) (popWait rest s)) := by
  have hpow := railOff_power (.field f) (if w.purpose = .softOff then 0x40 else 0) (popWait rest s)
  have hend := hq.of_power (t := railOff (.field f) (if w.purpose = .softOff then 0x40 else 0) (popWait rest s))
    hpow rfl
  have heq : retried w reply probe (popWait rest s) =
      nextRail (railOff (.field f) (if w.purpose = .softOff then 0x40 else 0) (popWait rest s)) := by
    obtain h | h := hp <;> simp [retried, h, hr]
  rw [pmbusRetry_completes probe hs hx hw hreply (by obtain h | h := hp <;> simp [h]), heq, hend.next, hend.after]

end Sys2Proof.Machine
end

section
namespace Sys2Proof.Machine
open Sys2Proof

variable {P : State → Prop} {s s0 t u : State} {r : Rail} {n : Nat}

/-! ## The end of a mooring and a RESET event -/

theorem steady_resetLogged (s : State) :
    Steady (s.modP fun p => { p with resetDue := (resetLogged s).power.resetDue }) (resetLogged s) := by
  unfold resetLogged
  split
  · exact .refl s
  · have h := steady_raiseEvent (e := { code := 0x100C, arg0 := bit ‹Bool› }) (.refl (s.modP fun p => { p with resetDue := none }))
    rw [h.power]
    exact h

theorem alertSet_resetLogged {c : Nat} (hc : c < 7) (hs : AlertSet c s) : AlertSet c (resetLogged s) := by
  unfold resetLogged
  split
  · exact hs
  · exact lingers_raiseEvent (lingers_alertSet hc) _ (.inl hs)

/-- A mooring that ends, before its RESET event. -/
def moorDone (c : MoorCause) (lost : Bool) (s : State) : State :=
  (flushRepeat (raiseEvent { code := 0x100B, arg0 := moorCode c, arg1 := bit lost } (s.modP fun p => { p with mooring := none }))).set
    pgMpwr MPWR.PWR_STATE_STATE 0

theorem moorEnd_waiting (h : s.power.pmbWaits ≠ []) : moorEnd s = s := by
  unfold moorEnd
  split
  · rfl
  · simp [h]

theorem moorEnd_none (h : s.power.mooring = none) : moorEnd s = s := by simp [moorEnd, h]

theorem moorEnd_some {c : MoorCause} {lost : Bool} (h : s.power.mooring = some (c, lost)) (hw : s.power.pmbWaits = []) :
    moorEnd s = resetLogged (moorDone c lost s) := by
  simp [moorEnd, h, hw, moorDone]

theorem steady_moorDone_events (c : MoorCause) (lost : Bool) (s : State) : Steady (s.modP fun p => { p with mooring := none })
    (flushRepeat (raiseEvent { code := 0x100B, arg0 := moorCode c, arg1 := bit lost } (s.modP fun p => { p with mooring := none }))) :=
  steady_flushRepeat (steady_raiseEvent (.refl _))

theorem power_moorDone (c : MoorCause) (lost : Bool) (s : State) : (moorDone c lost s).power = { s.power with mooring := none } :=
  (steady_moorDone_events c lost s).power

theorem word_moorDone (c : MoorCause) (lost : Bool) (s : State) {a : Nat} (h : 0x4000 ≤ a) (h' : a < 0x5000) (hne : a ≠ 0x4040) :
    (moorDone c lost s).word a = s.word a :=
  (word_set_other _ _ hne).trans ((steady_moorDone_events c lost s).word a h h')

theorem pwrState_set (v : Nat) (hv : v < 8) (s : State) : pwrState (s.set pgMpwr MPWR.PWR_STATE_STATE v) = v :=
  (get_set_same _ _ _ _ (by decide)).trans (Nat.mod_eq_of_lt hv)

/-- What the end of a mooring leaves, where it comes. -/
theorem word_moorEnd {a : Nat} (h : 0x4000 ≤ a) (h' : a < 0x5000) (hne : a ≠ 0x4040) : (moorEnd s).word a = s.word a := by
  by_cases hw : s.power.pmbWaits = []
  · cases hm : s.power.mooring with
    | none => rw [moorEnd_none hm]
    | some x =>
      rw [moorEnd_some hm hw, (steady_resetLogged _).word a h h']
      exact word_moorDone _ _ s h h' hne
  · rw [moorEnd_waiting hw]

theorem pmbWaits_moorEnd (s : State) : (moorEnd s).power.pmbWaits = s.power.pmbWaits := by
  by_cases hw : s.power.pmbWaits = []
  · cases hm : s.power.mooring with
    | none => rw [moorEnd_none hm]
    | some x =>
      rw [moorEnd_some hm hw, (steady_resetLogged _).power]
      change (moorDone x.1 x.2 s).power.pmbWaits = _
      rw [power_moorDone]
  · rw [moorEnd_waiting hw]

theorem alertSet_moorEnd {c : Nat} (hc : c < 7) (hs : AlertSet c s) : AlertSet c (moorEnd s) := by
  have hl := lingers_alertSet hc
  by_cases hw : s.power.pmbWaits = []
  · cases hm : s.power.mooring with
    | none => rw [moorEnd_none hm]; exact hs
    | some x =>
      rw [moorEnd_some hm hw]
      exact alertSet_resetLogged hc (lingers_set hl _ (by decide) (lingers_flushRepeat hl (lingers_raiseEvent hl _ (.inl hs))))
  · rw [moorEnd_waiting hw]; exact hs

/-! ## A stuck line -/

theorem sdaLowIdle_freed (hs : s.power.standby = true) : exec (.sdaLowIdle true) s = .next s := by
  change execSdaLowIdle true s = _
  rw [execSdaLowIdle, ifStandby_on hs]
  rfl

/-- The sideband marked absent with its data line stuck, nothing more to be sent. -/
def sidebandLost (s : State) : State :=
  dropWaits (fun _ => true) (powerAlert 0x1004 0 1
    (((s.set pgMpwr MPWR.SIDEBAND_SDA_STUCK 1).set pgMpwr MPWR.SIDEBAND_SIDEBAND_ABSENT 1).modP fun p => { p with probeAt := none }))

/-- Its power side. -/
def sidebandLostPower (s : State) : State :=
  keptWaits (fun _ => true)
    (((s.set pgMpwr MPWR.SIDEBAND_SDA_STUCK 1).set pgMpwr MPWR.SIDEBAND_SIDEBAND_ABSENT 1).modP fun p => { p with probeAt := none })

theorem steady_sidebandLost (s : State) : Steady (sidebandLostPower s) (sidebandLost s) :=
  ((steady_powerAlert (.refl _)).modP _).trans (steady_dropWaits _ _)

theorem on_set_one (s : State) {p : Nat} {F : Fld} (hF : F.lo + F.width ≤ 32) (hw : 0 < F.width) : (s.set p F 1).on p F = true := by
  rw [State.on, get_set_same _ _ _ _ hF, Nat.mod_eq_of_lt (Nat.one_lt_two_pow hw.ne')]
  rfl

theorem on_set_disjoint (s : State) {p : Nat} {F G : Fld} (v : Nat) (h : G.off = F.off) (hG : G.lo + G.width ≤ 32)
    (hd : F.lo + F.width ≤ G.lo ∨ G.lo + G.width ≤ F.lo) : (s.set p F v).on p G = s.on p G := by
  rw [State.on, State.on, get_set_disjoint s v (congrArg (p + ·) h) hG hd]

theorem sidebandLostPower_bits (s : State) :
    (sidebandLostPower s).on pgMpwr MPWR.SIDEBAND_SDA_STUCK = true ∧ sidebandAbsent (sidebandLostPower s) = true := by
  refine ⟨?_, on_set_one (s.set pgMpwr MPWR.SIDEBAND_SDA_STUCK 1) (by decide) (by decide)⟩
  change ((s.set pgMpwr MPWR.SIDEBAND_SDA_STUCK 1).set pgMpwr MPWR.SIDEBAND_SIDEBAND_ABSENT 1).on pgMpwr MPWR.SIDEBAND_SDA_STUCK = true
  rw [on_set_disjoint (F := MPWR.SIDEBAND_SIDEBAND_ABSENT) (G := MPWR.SIDEBAND_SDA_STUCK) _ 1 rfl (by decide) (by decide)]
  exact on_set_one s (by decide) (by decide)

theorem sdaLowIdle_lost (hs : s.power.standby = true) (hx : s.tap.extest = false) (ha : sidebandAbsent s = false)
    (hph : s.power.phase = .none) : exec (.sdaLowIdle false) s =
      .next (moorEnd (nextRail ((sidebandLost s).modP fun p => { p with railStep := none }))) := by
  have hph' : (sidebandLost s).power.phase = .none := by
    rw [(steady_sidebandLost s).power]
    exact hph
  change execSdaLowIdle false s = _
  rw [execSdaLowIdle, ifStandby_on hs]
  simp only [hx, ha, Bool.or_false, Bool.false_eq_true, if_false]
  change Host.Outcome.next (match (sidebandLost s).power.phase with
    | .probing | .mainRail => wakeFails (sidebandLost s)
    | _ => moorEnd (nextRail ((sidebandLost s).modP fun p => { p with railStep := none }))) = _
  rw [hph']

/-- A recovery that fails. -/
theorem sdaLowIdle_fails (hs : s.power.standby = true) (hx : s.tap.extest = false) (ha : sidebandAbsent s = false)
    (hph : s.power.phase = .none) (hq : s.power.railQueue = []) (hm : s.power.moorPending = none) :
    ∃ s', exec (.sdaLowIdle false) s = .next s' ∧ s'.on pgMpwr MPWR.SIDEBAND_SDA_STUCK = true ∧ sidebandAbsent s' = true ∧
      s'.power.pmbWaits = [] ∧ AlertSet acPower s' := by
  have h := steady_sidebandLost s
  have halert : AlertSet acPower (sidebandLost s) := alertSet_dropWaits (by decide) _ (alertSet_powerAlert _ _ _ _)
  have hnext : nextRail ((sidebandLost s).modP fun p => { p with railStep := none }) =
      (sidebandLost s).modP fun p => { p with railStep := none } := by
    refine nextRail_idle ?_ ?_ ?_ <;> simp only [State.modP] <;> rw [h.power]
    · exact hm
    · exact hq
    · exact hph
  have hbits := sidebandLostPower_bits s
  refine ⟨_, sdaLowIdle_lost hs hx ha hph, ?_⟩
  rw [hnext]
  have hword : (moorEnd ((sidebandLost s).modP fun p => { p with railStep := none })).word (pgMpwr + 0x6C) =
      (sidebandLostPower s).word (pgMpwr + 0x6C) :=
    (word_moorEnd (by decide) (by decide) (by decide)).trans (h.word _ (by decide) (by decide))
  refine ⟨(on_of_word hword).trans hbits.1, (on_of_word hword).trans hbits.2, ?_, alertSet_moorEnd (by decide) halert⟩
  rw [pmbWaits_moorEnd]
  change (sidebandLost s).power.pmbWaits = []
  rw [h.power]
  simp [sidebandLostPower, keptWaits, State.modP]

/-! ## A probe that every regulator answers -/

/-- What the answer of one regulator leaves. -/
def probeOne (s : State) (i : Nat) : State :=
  configure (railAt i)
    (s.modP fun p => { p with probeAcked := true, voutMode := insert (railIx (railAt i)) 0x14 p.voutMode })

theorem probeFrom_answered (hm : s.power.moorPending = none) (n i : Nat) :
    probeFrom [] n i s = endProbe ((List.range' i n).foldl probeOne s) := by
  induction n generalizing i s with
  | zero => rfl
  | succ n ih =>
    have hone : probeRead (railAt i) 0x33 0xC0 0x14 s = probeOne s i := rfl
    have hstep : probeFrom [] (n + 1) i s = probeFrom [] n (i + 1) (probeOne s i) := by
      rw [probeFrom, show moorIfPending s = none by rw [moorIfPending, hm]; rfl]
      exact congrArg (probeFrom [] n (i + 1)) hone
    rw [hstep, ih (s := probeOne s i) hm]
    rfl

/-- All that the answers change. -/
theorem probed_frame (l : List Nat) (s : State) : l.foldl probeOne s = { s with power := { s.power with
    probeAcked := (l.foldl probeOne s).power.probeAcked, voutMode := (l.foldl probeOne s).power.voutMode
    sent := (l.foldl probeOne s).power.sent } } := by
  induction l generalizing s with
  | nil => rfl
  | cons i l ih =>
    rw [List.foldl_cons, ih]
    rfl

/-- The settings of a regulator as the probe writes them. -/
def Configured (r : Rail) (s : State) : Prop :=
  lookup 0 s.power.sent (256 * railIx r + 0x02) = 0x18 ∧ lookup 0 s.power.sent (256 * railIx r + 0x24) = voutWord s r (voutMax r)

theorem lookup_sentTo_other (q : Rail) {c v k : Nat} (s : State) (h : k ≠ 256 * railIx q + c) :
    lookup 0 (sentTo q c v s).power.sent k = lookup 0 s.power.sent k := lookup_insert_other _ _ _ h

theorem lookup_sentTo_same (q : Rail) (c v : Nat) (s : State) : lookup 0 (sentTo q c v s).power.sent (256 * railIx q + c) = v :=
  lookup_insert_same _ _ _ _

/-- A write to one regulator's settings leaves the others'. -/
theorem lookup_configure_other {q : Rail} (hne : q ≠ r) (s : State) {c : Nat} (hc : c < 256) :
    lookup 0 (configure q s).power.sent (256 * railIx r + c) = lookup 0 s.power.sent (256 * railIx r + c) := by
  have hix : railIx q ≠ railIx r := fun h => hne (railIx_injective h)
  unfold configure
  iterate 5 rw [lookup_sentTo_other q _ (by omega)]

theorem configured_configure (r : Rail) (s : State) : Configured r (configure r s) := by
  unfold configure Configured
  constructor
  · iterate 4 rw [lookup_sentTo_other r _ (by omega)]
    exact lookup_sentTo_same r _ _ s
  · iterate 3 rw [lookup_sentTo_other r _ (by omega)]
    exact lookup_sentTo_same r _ _ _

theorem configured_probeOne_same (r : Rail) (s : State) : Configured r (probeOne s (railIx r)) := by
  unfold probeOne
  rw [railAt_railIx]
  exact configured_configure r _

theorem configured_probeOne {i : Nat} (hs : Configured r s) : Configured r (probeOne s i) := by
  by_cases h : railAt i = r
  · rw [← h]
    unfold probeOne
    exact configured_configure _ _
  · unfold probeOne Configured
    rw [lookup_configure_other h _ (by decide), lookup_configure_other h _ (by decide)]
    have hmode : lookup 0x14 (insert (railIx (railAt i)) 0x14 s.power.voutMode) (railIx r) = lookup 0x14 s.power.voutMode (railIx r) :=
      lookup_insert_other _ _ _ fun hix => h (railIx_injective hix.symm)
    refine ⟨hs.1, hs.2.trans ?_⟩
    exact congrArg (fun m => (2 * voutMax r * 2 ^ (32 - m % 32) + 1000) / 2000) hmode.symm

/-- Once every place has answered, every regulator has its settings. -/
theorem configured_probed (r : Rail) (s : State) : Configured r ((List.range' 0 69).foldl probeOne s) :=
  foldl_establishes (P := Configured r) (Q := fun _ => True) (b := railIx r) (by simp [railIx_lt])
    (fun u _ => configured_probeOne_same r u) (fun _ _ _ h => h) (fun _ _ _ h => configured_probeOne h) trivial

theorem probeAcked_probed (s : State) : ((List.range' 0 69).foldl probeOne s).power.probeAcked = true :=
  foldl_establishes (P := fun u => u.power.probeAcked = true) (Q := fun _ => True) (b := 0) (by simp)
    (fun _ _ => rfl) (fun _ _ _ h => h) (fun _ _ _ _ => rfl) trivial

end Sys2Proof.Machine
end

section
namespace Sys2Proof.Machine
open Sys2Proof

variable {P : State → Prop} {s s0 t u : State} {r : Rail} {n : Nat}

/-! ## SIDEBAND_RETRY -/

/-- A probe outside a wake whose regulators all answer. -/
theorem startProbe_answered (hph : s.power.phase = .none) (hm : s.power.moorPending = none) :
    startProbe [] s = ((List.range' 0 69).foldl probeOne (beginProbe s)).modP fun p => { p with probeAt := none } := by
  have hf := probed_frame (List.range' 0 69) (beginProbe s)
  have hacked := probeAcked_probed (beginProbe s)
  rw [startProbe, probeFrom_answered (s := beginProbe s) hm]
  generalize (List.range' 0 69).foldl probeOne (beginProbe s) = v at hf hacked ⊢
  have hph' : v.power.phase = .none := by rw [hf]; exact hph
  have hm' : v.power.moorPending = none := by rw [hf]; exact hm
  simp [endProbe, State.modP, hph', hm', hacked, moorIfPending]

theorem beginProbe_bits (s : State) :
    (beginProbe s).on pgMpwr MPWR.SIDEBAND_SDA_STUCK = false ∧ sidebandAbsent (beginProbe s) = false := by
  refine ⟨on_set_zero _ _ _ (by decide), ?_⟩
  change ((s.set pgMpwr MPWR.SIDEBAND_SIDEBAND_ABSENT 0).set pgMpwr MPWR.SIDEBAND_SDA_STUCK 0).on pgMpwr
    MPWR.SIDEBAND_SIDEBAND_ABSENT = false
  rw [on_set_disjoint (F := MPWR.SIDEBAND_SDA_STUCK) (G := MPWR.SIDEBAND_SIDEBAND_ABSENT) _ 0 rfl (by decide) (by decide)]
  exact on_set_zero _ _ _ (by decide)

/-- SIDEBAND_RETRY with every regulator answering. -/
theorem sidebandRetry_answered (hs : s.power.standby = true) (hx : s.tap.extest = false) (ha : s.power.probeAt = none)
    (hph : s.power.phase = .none) (hm : s.power.moorPending = none) :
    ∃ s', exec (.sidebandRetry []) s = .next s' ∧ s'.on pgMpwr MPWR.SIDEBAND_SDA_STUCK = false ∧
        sidebandAbsent s' = false ∧ s'.power.badRails = [] ∧ s'.power.silentRails = [] ∧
        s'.power.pmbWaits = s.power.pmbWaits.filter PmbWait.off ∧
        ∀ r : Rail, lookup 0 s'.power.sent (256 * railIx r + 0x02) = 0x18 ∧
          lookup 0 s'.power.sent (256 * railIx r + 0x24) = voutWord s' r (voutMax r) := by
  have hexec : exec (.sidebandRetry []) s = .next (startProbe [] s) := by
    change execSidebandRetry [] s = _
    rw [execSidebandRetry, ifStandby_on hs]
    simp [hx, ha, probeAsked]
  refine ⟨_, hexec, ?_⟩
  rw [startProbe_answered hph hm]
  have hf := probed_frame (List.range' 0 69) (beginProbe s)
  have hconf := fun r => configured_probed r (beginProbe s)
  obtain ⟨hstuck, habsent⟩ := beginProbe_bits s
  generalize (List.range' 0 69).foldl probeOne (beginProbe s) = v at hf hconf ⊢
  have hword : ∀ a, v.word a = (beginProbe s).word a := fun a => by rw [hf]; rfl
  refine ⟨(on_of_word (hword _)).trans hstuck, (on_of_word (hword _)).trans habsent, ?_, ?_, ?_, hconf⟩ <;>
    simp only [State.modP] <;> rw [hf] <;> rfl

/-! ## Transactions that are not acknowledged -/

theorem waitsFor_iff : waitsFor s r = true ↔ ∃ w ∈ s.power.pmbWaits, w.rail = r := by simp [waitsFor]

theorem notAcked_waits (r : Rail) (p : PmbPurpose) (s : State) :
    (∃ w ∈ (notAcked r p s).power.pmbWaits, w.rail = r) ∧ (notAcked r p s).live = s.live := by
  unfold notAcked
  split
  · next h =>
    obtain ⟨w, hw, heq⟩ := List.any_eq_true.1 h
    simp only [Bool.and_eq_true, beq_iff_eq] at heq
    exact ⟨⟨w, hw, heq.1⟩, rfl⟩
  · exact ⟨⟨⟨r, p, 0⟩, by simp [State.modP], rfl⟩, rfl⟩

/-- A command that finds a transaction of the rail waiting leaves it so, and else leaves one of its own. -/
theorem sclLowTimeout_waits (hs : s.power.standby = true) (hr : reachesRegulator s r = true) :
    ∃ s', exec (.sclLowTimeout r) s = .next s' ∧ (∃ w ∈ s'.power.pmbWaits, w.rail = r) ∧ s'.live = s.live := by
  change ∃ s', execSclLowTimeout r s = .next s' ∧ _
  rw [execSclLowTimeout, ifStandby_on hs]
  refine ⟨_, rfl, ?_⟩
  cases hw : waitsFor s r with
  | true => simpa [hr, hw] using waitsFor_iff.1 hw
  | false => simpa [hr, hw] using notAcked_waits r (abandoned s r) s

theorem alertService_noAck_waits (hs : s.power.standby = true) (hr : reachesRegulator s r = true) :
    ∃ s', exec (.pmbAlertService r .noAck) s = .next s' ∧ (∃ w ∈ s'.power.pmbWaits, w.rail = r) ∧ s'.live = s.live := by
  change ∃ s', execPmbAlertService r .noAck s = .next s' ∧ _
  rw [execPmbAlertService, ifStandby_on hs]
  refine ⟨_, rfl, ?_⟩
  cases hw : waitsFor s r with
  | true => simpa [hr, hw] using waitsFor_iff.1 hw
  | false => simpa [hr, hw] using notAcked_waits r .alert s

/-! ## A serviced alert -/

theorem alertService_reads (hs : s.power.standby = true) (hr : reachesRegulator s r = true)
    (hw : ∀ w ∈ s.power.pmbWaits, w.rail ≠ r) (w : BitVec 16) :
    exec (.pmbAlertService r (.word w)) s = .next (alertRead r w s) := by
  change execPmbAlertService r (.word w) s = _
  rw [execPmbAlertService, ifStandby_on hs]
  simp [hr, waitsFor_eq_false hw]

/-- The alert recorded and its faults cleared. -/
def alertSeen (r : Rail) (w : BitVec 16) (s : State) : State :=
  clearFaults r (raiseEvent { code := 0x1005, arg0 := railAddr r, arg1 := w.toNat } s)

theorem alertRead_on {w : BitVec 16} (h : statusOff w = false) : alertRead r w s = alertSeen r w s := by
  simp [alertRead, h, alertSeen]

theorem alertRead_off {w : BitVec 16} (h : statusOff w = true) (hon : railOn (alertSeen r w s) r = true) :
    alertRead r w s = railLost r w.toNat (alertSeen r w s) := by
  rw [alertSeen] at hon ⊢
  simp [alertRead, h, hon]

/-- The faults cleared at a regulator change what was sent to it alone. -/
theorem alertSeen_steady (r : Rail) (w : BitVec 16) (s : State) : Steady
    (s.modP fun p => { p with sent := (alertSeen r w s).power.sent }) (alertSeen r w s) := by
  have h := (steady_raiseEvent (e := { code := 0x1005, arg0 := railAddr r, arg1 := w.toNat }) (.refl s)).modP
    fun p => { p with sent := (alertSeen r w s).power.sent }
  exact h

/-! ### The loss of a field's rail -/

/-- The field's rail bit, its request and its VSET cleared. -/
def fieldUnpowered (f : FieldId) (s : State) : State :=
  (setFieldRail f.val false (setFieldOn f.val false s)).set pgMpwr (MPWR.VSET_CODE.at f.val) 0

theorem fieldRail_fieldUnpowered (f : FieldId) (s : State) : fieldRail (fieldUnpowered f s) f.val = false := by
  rw [fieldUnpowered, fieldRail_setVset, fieldRail_setFieldRail_same]

theorem word_setVset_other (f : FieldId) (v : Nat) (s : State) {a : Nat} (h : a < 0x4100) :
    (s.set pgMpwr (MPWR.VSET_CODE.at f.val) v).word a = s.word a :=
  word_set_other s v (by
    simp only [Fld.at, MPWR.VSET_CODE, show pgMpwr = 0x4000 from rfl]
    omega)

theorem word_setFieldRail_other (f : Nat) (b : Bool) (s : State) {a : Nat} (h : a ≠ 0x4050) (h' : a ≠ 0x4054) :
    (setFieldRail f b s).word a = s.word a := word_setBit2_other s b h h'

theorem fieldOn_fieldUnpowered (f : FieldId) (s : State) : fieldOn (fieldUnpowered f s) f.val = false := by
  refine Eq.trans (bit2_of_word ?_ ?_) (fieldOn_setFieldOn_same f false s) <;>
    exact (word_setVset_other f 0 _ (by decide)).trans (word_setFieldRail_other _ _ _ (by decide) (by decide))

/-- What stays of the page. -/
theorem word_fieldUnpowered (f : FieldId) (s : State) {a : Nat} (h : a < 0x4044 ∨ 0x4058 ≤ a ∧ a < 0x4100) :
    (fieldUnpowered f s).word a = s.word a :=
  (word_setVset_other f 0 _ (by omega)).trans ((word_setFieldRail_other _ _ _ (by omega) (by omega)).trans
    (word_setFieldOn_other _ _ _ (by omega) (by omega)))

theorem fieldFault_fieldUnpowered (f : FieldId) (s : State) (g : Nat) : fieldFault (fieldUnpowered f s) g = fieldFault s g :=
  bit2_of_word (word_fieldUnpowered f s (by decide)) (word_fieldUnpowered f s (by decide))

/-- The mark of a lost rail: its fault and its event, and the field without power. -/
def railGone (f : FieldId) (w : Nat) (s : State) : State :=
  fieldUnpowered f (powerAlert 0x1006 (railNo (.field f)) w (railFault (.field f) s))

theorem railLost_field (f : FieldId) (w : Nat) (hstep : s.power.railStep = none) : railLost (.field f) w s =
    if pwrState s = 1 ∨ pwrState s = 2 then
      onRoster (removeField f.val 5 0 true) ((railGone f w s).modP fun p => { p with leaving := p.leaving.erase f.val })
    else railGone f w s := by
  unfold railLost railGone fieldUnpowered
  by_cases h : pwrState s = 1 ∨ pwrState s = 2
  · have h' : (pwrState s == 1 || pwrState s == 2) = true := by simpa using h
    have hst : ((setFault (.field f) s).power).railStep = none := (congrArg PowerSt.railStep setBit2_power).trans hstep
    have hrf : (railFault (.field f) s).power.railStep = none := (congrArg PowerSt.railStep (steady_railFault _ s).power).trans hst
    simp [h', h, hrf]
  · have h' : (pwrState s == 1 || pwrState s == 2) = false := by simpa using h
    simp [h', h]

theorem railGone_field (f : FieldId) (w : Nat) (s : State) : fieldOn (railGone f w s) f.val = false ∧
    fieldRail (railGone f w s) f.val = false ∧ fieldFault (railGone f w s) f.val = true := by
  refine ⟨fieldOn_fieldUnpowered f _, fieldRail_fieldUnpowered f _, ?_⟩
  rw [railGone, fieldFault_fieldUnpowered, (steady_powerAlert (steady_railFault _ s)).fieldFault, fieldFault_setFault]

/-- A field whose rail is lost is off, with its fault set, and in an awake wafer its entry shows it. -/
theorem railLost_field_off (f : FieldId) (w : Nat) (hstep : s.power.railStep = none) :
    fieldOn (railLost (.field f) w s) f.val = false ∧ fieldRail (railLost (.field f) w s) f.val = false ∧
    (awake s = true → fieldState (railLost (.field f) w s) f.val = 5) ∧ fieldFault (railLost (.field f) w s) f.val = true := by
  obtain ⟨hon, hrail, hfault⟩ := railGone_field f w s
  rw [railLost_field f w hstep]
  split
  · have h : Steady ((railGone f w s).modP fun p => { p with leaving := p.leaving.erase f.val })
        (onRoster (removeField f.val 5 0 true) ((railGone f w s).modP fun p => { p with leaving := p.leaving.erase f.val })) :=
      steady_onRoster steady_removeField (.refl _)
    rw [h.fieldOn, h.fieldRail, h.fieldFault, onRoster, fieldState_settle, fieldState_removeField f (by decide)]
    exact ⟨hon, hrail, fun _ => rfl, hfault⟩
  · next hup => exact ⟨hon, hrail, fun ha => absurd (.inr (pwrState_of_awake ha)) hup, hfault⟩

/-- A word with OFF for a field that is on. -/
theorem alertService_loses {f : FieldId} (hs : s.power.standby = true) (hr : reachesRegulator s (.field f) = true)
    (hw : ∀ w ∈ s.power.pmbWaits, w.rail ≠ .field f) {w : BitVec 16} (hoff : statusOff w = true) (hon : fieldRail s f.val = true)
    (hstep : s.power.railStep = none) :
    ∃ s', exec (.pmbAlertService (.field f) (.word w)) s = .next s' ∧ fieldOn s' f.val = false ∧ fieldRail s' f.val = false ∧
      (awake s = true → fieldState s' f.val = 5) ∧ fieldFault s' f.val = true := by
  have h := alertSeen_steady (.field f) w s
  have hlost := railLost_field_off (s := alertSeen (.field f) w s) f w.toNat (by rw [h.power]; exact hstep)
  have hrail : railOn (alertSeen (.field f) w s) (.field f) = true := by
    simp only [railOn, h.fieldRail]
    exact Bool.or_eq_true_iff.2 (.inr hon)
  rw [h.awake] at hlost
  exact ⟨_, alertService_reads hs hr hw w, by rw [alertRead_off hoff hrail]; exact hlost⟩

/-! ### The obligation -/

/-- Settles O46: each row of the sideband is one transaction; what a failure leaves is its mark, its fault and its alert, and what an
acknowledgement leaves is its write. -/
theorem sidebandTransactions : Obligations.SidebandTransactions := by
  intro s hs
  refine ⟨fun w rest probe hw hx => ⟨pmbusRetry_counts probe hs hx hw, fun f hph hq hm ho hr => ?_⟩, sdaLowIdle_freed hs,
    sdaLowIdle_fails hs, sidebandRetry_answered hs, fun r hr => ⟨sclLowTimeout_waits hs hr, alertService_noAck_waits hs hr, fun hw =>
      ⟨fun w hoff => ?_, ?_⟩⟩⟩
  · have hquiet : Quiet s := ⟨hph, hq, hm, ho⟩
    refine ⟨fun ht hp => third_retry_of_field probe hs hx hw ht hquiet hr hp, fun reply hreply hreach =>
      ⟨fun hp hon => ?_, fun hp => ?_⟩⟩
    · exact ⟨_, visit_retried probe hs hx hw hquiet hr hreply hp hon, rfl, visit_vset f _⟩
    · refine ⟨_, off_retried probe hs hx hw hquiet hr hreply hp, pmbWaits_railOff _ _ _, ?_, ?_⟩
      · simp [fieldRail_railOff]
      · exact lookup_operation_railOff (r := .field f) 0xFF _ hreach
  · rw [alertService_reads hs hr hw, alertRead_on hoff]
    rfl
  · rintro w f hoff rfl hon hstep
    exact alertService_loses hs hr hw hoff hon hstep

end Sys2Proof.Machine
end

section
namespace Sys2Proof.Machine
open Sys2Proof

variable {P : State → Prop} {s s0 t u : State} {f : FieldId}

/-! ## The field loop -/

theorem atLoop_on {f : Nat} (g : State → State) (ha : awake s = true) (hl : loopRuns s f = true) : atLoop f g s = .next (g s) := by
  rw [atLoop, ifAwake_on ha, if_pos hl]

theorem loopRuns_iff {f : Nat} : loopRuns s f = true ↔ fieldRail s f = true ∧
    (fieldState s f = 1 ∨ fieldState s f = 2 ∨ fieldState s f = 3 ∨ fieldState s f = 8) := by
  simp [loopRuns, or_assoc]

/-- A field of a page written with a value that fits. -/
theorem get_set_fits {p v : Nat} {F : Fld} (hF : F.lo + F.width ≤ 32) (hv : v < 2 ^ F.width) (s : State) :
    (s.set p F v).get p F = v := (get_set_same _ _ _ _ hF).trans (Nat.mod_eq_of_lt hv)

/-- A field of the same page's other word. -/
theorem get_set_word {p v : Nat} {F G : Fld} (h : G.off ≠ F.off) (s : State) : (s.set p F v).get p G = s.get p G :=
  get_set_other s v (by omega)

theorem get_set_beside {p v : Nat} {F G : Fld} (h : G.off = F.off) (hG : G.lo + G.width ≤ 32)
    (hd : F.lo + F.width ≤ G.lo ∨ G.lo + G.width ≤ F.lo) (s : State) : (s.set p F v).get p G = s.get p G :=
  get_set_disjoint s v (congrArg (p + ·) h) hG hd

theorem get_of_live {p : Nat} {F : Fld} (h : t.live = s.live) : t.get p F = s.get p F := by
  rw [State.get, State.get, State.word, State.word, h]

theorem on_of_live {p : Nat} {F : Fld} (h : t.live = s.live) : t.on p F = s.on p F := by
  rw [State.on, State.on, get_of_live h]

theorem on_set_bit {p : Nat} {F : Fld} {b : Bool} (hF : F.lo + F.width ≤ 32) (hw : F.width = 1) (s : State) :
    (s.set p F (bit b)).on p F = b := by
  rw [State.on, get_set_same _ _ _ _ hF, hw]
  cases b <;> rfl

/-! ### The allowance -/

/-- What the cap allows. -/
theorem capAllow_spec (watts : List Nat) (cap n : Nat) : 1 ≤ capAllow watts cap n ∧ capAllow watts cap n ≤ max 1 n ∧
    (1 < capAllow watts cap n → watts.getD (capAllow watts cap n - 1) 0 ≤ cap) ∧
    ∀ b, capAllow watts cap n < b → b ≤ n → cap < watts.getD (b - 1) 0 := by
  induction n with
  | zero => exact ⟨le_rfl, le_rfl, fun h => absurd h (lt_irrefl 1), fun b h h' => by simp only [capAllow] at h; omega⟩
  | succ n ih =>
    unfold capAllow
    split
    · next h => exact ⟨by omega, by omega, fun _ => h, fun b hb hb' => by omega⟩
    · next h =>
      obtain ⟨h1, h2, h3, h4⟩ := ih
      refine ⟨h1, by omega, h3, fun b hb hb' => ?_⟩
      obtain rfl | hlt := Nat.eq_or_lt_of_le hb'
      · exact Nat.lt_of_not_le h
      · exact h4 b hb (by omega)

/-- The allowance that a recomputation leaves. -/
def newAllowance (f margin : Nat) (watts : List Nat) (s : State) : Nat :=
  if s.on (pgFpwr f) FPWR.LOOP_STATUS_DROOP_HOLD then 1 else max 1 (min (min 15 margin) (capAllow watts (capW s f) 15))

theorem newAllowance_lt (f margin : Nat) (watts : List Nat) (s : State) : newAllowance f margin watts s < 16 := by
  unfold newAllowance
  split <;> omega

theorem recompute_allowance (f margin : Nat) (watts : List Nat) (s : State) :
    (recompute f margin watts s).get (pgFpwr f) FPWR.LOOP_STATUS_ALLOWANCE = newAllowance f margin watts s :=
  (get_set_beside (F := FPWR.LOOP_STATUS_CAP_UNMET) (G := FPWR.LOOP_STATUS_ALLOWANCE) rfl (by decide) (by decide) _).trans
    ((get_set_word (F := FPWR.POWER_EST_WATTS) (by decide) _).trans
      (get_set_fits (v := newAllowance f margin watts s) (F := FPWR.LOOP_STATUS_ALLOWANCE) (by decide)
        (newAllowance_lt f margin watts s) s))

theorem recompute_capUnmet (f margin : Nat) (watts : List Nat) (s : State) :
    (recompute f margin watts s).on (pgFpwr f) FPWR.LOOP_STATUS_CAP_UNMET = decide (capW s f < watts.getD 0 0) :=
  on_set_bit (by decide) rfl _

/-- A recomputation of the allowance. -/
theorem allowance_recomputed (ha : awake s = true) (hl : loopRuns s f.val = true) (margin : Nat) (watts : List Nat) :
    ∃ s', exec (.allowanceRecompute f margin watts) s = .next s' ∧
      (s.on (pgFpwr f.val) FPWR.LOOP_STATUS_DROOP_HOLD = true → s'.get (pgFpwr f.val) FPWR.LOOP_STATUS_ALLOWANCE = 1) ∧
      (s.on (pgFpwr f.val) FPWR.LOOP_STATUS_DROOP_HOLD = false → ∃ c, 1 ≤ c ∧ c ≤ 15 ∧
        (1 < c → watts.getD (c - 1) 0 ≤ capW s f.val) ∧ (∀ b, c < b → b ≤ 15 → capW s f.val < watts.getD (b - 1) 0) ∧
        s'.get (pgFpwr f.val) FPWR.LOOP_STATUS_ALLOWANCE = max 1 (min margin c)) ∧
      (s'.on (pgFpwr f.val) FPWR.LOOP_STATUS_CAP_UNMET = true ↔ capW s f.val < watts.getD 0 0) := by
  obtain ⟨h1, h2, h3, h4⟩ := capAllow_spec watts (capW s f.val) 15
  refine ⟨_, atLoop_on _ ha hl, fun hold => ?_, fun hold => ⟨_, h1, h2, h3, h4, ?_⟩, ?_⟩
  · rw [recompute_allowance, newAllowance, if_pos hold]
  · rw [recompute_allowance, newAllowance, if_neg (by simp [hold])]
    omega
  · rw [recompute_capUnmet, decide_eq_true_iff]

/-! ### A droop hold -/

/-- LOOP_STATUS of a field that a droop monitor has tripped. -/
def droopMarked (f : Nat) (s : State) : State :=
  (s.set (pgFpwr f) FPWR.LOOP_STATUS_ALLOWANCE 1).set (pgFpwr f) FPWR.LOOP_STATUS_DROOP_HOLD 1

theorem live_droopTrip (f : Nat) (s : State) :
    (droopTrip f s).live = ((droopMarked f s).bumpSat (pgFpwr f) FPWR.DROOP_COUNT_COUNT).live := rfl

theorem droopUntil_droopTrip (f : Nat) (s : State) : lookup 0 (droopTrip f s).m.droopUntil f = s.m.wtime + 1024 := by
  unfold droopTrip
  dsimp only
  rw [lookup_insert_same]
  simp only [bumpSat_m, set_m]

theorem droopTrip_holds (f : Nat) (s : State) : (droopTrip f s).get (pgFpwr f) FPWR.LOOP_STATUS_ALLOWANCE = 1 ∧
    (droopTrip f s).on (pgFpwr f) FPWR.LOOP_STATUS_DROOP_HOLD = true ∧
    (droopTrip f s).get (pgFpwr f) FPWR.DROOP_COUNT_COUNT = min (s.get (pgFpwr f) FPWR.DROOP_COUNT_COUNT + 1) (2 ^ 32 - 1) ∧
    lookup 0 (droopTrip f s).m.droopUntil f = s.m.wtime + 1024 := by
  have hlive := live_droopTrip f s
  have hcount : (droopMarked f s).get (pgFpwr f) FPWR.DROOP_COUNT_COUNT = s.get (pgFpwr f) FPWR.DROOP_COUNT_COUNT :=
    (get_set_word (by decide) _).trans (get_set_word (by decide) s)
  have hhold : (droopMarked f s).on (pgFpwr f) FPWR.LOOP_STATUS_DROOP_HOLD = true := on_set_one _ (by decide) (by decide)
  have hallow : (droopMarked f s).get (pgFpwr f) FPWR.LOOP_STATUS_ALLOWANCE = 1 :=
    (get_set_beside (F := FPWR.LOOP_STATUS_DROOP_HOLD) (G := FPWR.LOOP_STATUS_ALLOWANCE) rfl (by decide) (by decide) _).trans
      (get_set_fits (by decide) (by decide) s)
  rw [get_of_live hlive, on_of_live hlive, get_of_live hlive, State.bumpSat, hcount]
  generalize droopMarked f s = u at hhold hallow
  refine ⟨(get_set_word (by decide) u).trans hallow, ?_, get_set_fits (by decide) ?_ u, droopUntil_droopTrip f s⟩
  · rw [State.on, get_set_word (by decide)]
    exact hhold
  · simp only [FPWR.DROOP_COUNT_COUNT]
    omega

/-- WTIME at the end of a droop hold. -/
def droopFreed (f w : Nat) (s : State) : State :=
  { s with m := { s.m with wtime := w, droopUntil := erase f s.m.droopUntil } }

theorem live_droopFreed (f w : Nat) (s : State) : (droopFreed f w s).live = s.live := rfl

theorem droopEnd_of_held {f : Nat} (h : s.on (pgFpwr f) FPWR.LOOP_STATUS_DROOP_HOLD = true) :
    droopEnd f s = droopFreed f (max s.m.wtime (lookup 0 s.m.droopUntil f)) (s.set (pgFpwr f) FPWR.LOOP_STATUS_DROOP_HOLD 0) := by
  rw [droopEnd, if_pos h, droopFreed]

theorem droopEnd_clears {f : Nat} (h : s.on (pgFpwr f) FPWR.LOOP_STATUS_DROOP_HOLD = true) :
    (droopEnd f s).on (pgFpwr f) FPWR.LOOP_STATUS_DROOP_HOLD = false ∧ lookup 0 s.m.droopUntil f ≤ (droopEnd f s).m.wtime := by
  rw [droopEnd_of_held h]
  refine ⟨?_, Nat.le_max_right s.m.wtime (lookup 0 s.m.droopUntil f)⟩
  rw [on_of_live (live_droopFreed _ _ _)]
  exact on_set_zero s _ _ (by decide)

/-! ### The voltage -/

theorem vdemand_recomputed (ha : awake s = true) (hl : loopRuns s f.val = true) (code : Nat) :
    ∃ s', exec (.vdemandRecompute f code) s = .next s' ∧ s'.get (pgFpwr f.val) FPWR.LOOP_STATUS_VDEMAND =
      max 4 (min code (max 20 (min 36 (s.get (pgFpwr f.val) FPWR.VCEIL_CODE)))) := by
  change ∃ s', execVdemandRecompute f code s = .next s' ∧ _
  rw [execVdemandRecompute, atLoop_on _ ha hl]
  refine ⟨_, rfl, get_set_fits (by decide) ?_ s⟩
  simp only [vceil, FPWR.LOOP_STATUS_VDEMAND]
  omega

theorem mastVisit_visits (ha : awake s = true) (hl : loopRuns s f.val = true) (hr : reachesRegulator s (.field f) = true)
    (hw : ∀ w ∈ s.power.pmbWaits, w.rail ≠ .field f) : exec (.mastVisit f true) s = .next (visit f.val s) := by
  change execMastVisit f true s = _
  rw [execMastVisit, atLoop_on _ ha hl]
  simp [hr, waitsFor_eq_false hw]

/-! ## The damage guard -/

/-- A fold of which one step alone does something. -/
theorem foldl_range_single {g : State → Nat → State} {k n : Nat} (hk : k < n) (h : ∀ t i, i ≠ k → g t i = t) (s : State) :
    (List.range n).foldl g s = g s k := by
  have hid : ∀ m, m ≤ k → (List.range m).foldl g s = s := fun m hm =>
    keeps_foldl (P := (· = s)) (fun t i hi ht => (h t i (by have := List.mem_range.1 hi; omega)).trans ht) rfl
  induction n with
  | zero => omega
  | succ n ih =>
    rw [List.range_succ, List.foldl_append, List.foldl_cons, List.foldl_nil]
    obtain rfl | hlt := Nat.eq_or_lt_of_le (Nat.le_of_lt_succ hk)
    · rw [hid k le_rfl]
    · rw [ih hlt, h _ _ (by omega)]

theorem sampleAll_single (f : FieldId) (l : List Nat) (un : List FieldId) (s : State) :
    sampleAll [(f, l)] un s = sampleField un f l s := by
  refine (foldl_range_single f.isLt (fun t i hi => ?_) s).trans ?_
  · simp [Ne.symm hi]
  · simp

theorem guardSample_single (ha : awake s = true) (l : List Nat) :
    exec (.damageGuardSample [(f, l)] []) s = .next (onRoster (sampleField [] f l) s) := by
  change execDamageGuardSample [(f, l)] [] s = _
  rw [execDamageGuardSample, ifStandby_on (standby_of_awake ha), if_pos (.inr (pwrState_of_awake ha)), onRoster, sampleAll_single]
  rfl

/-! ### No sensor trips -/

theorem hotSensor_none {l : List Nat} (h : ∀ x ∈ l, x ≤ 420) : hotSensor l = none := by
  simp only [hotSensor, Option.map_eq_none_iff, List.find?_eq_none, decide_eq_true_eq, Nat.not_lt]
  exact fun p hp => h p.1 (List.fst_mem_of_mem_zipIdx hp)

theorem hotSensor_some {l : List Nat} (h : ∃ x ∈ l, 420 < x) : ∃ p, hotSensor l = some p := by
  obtain ⟨x, hx, hhot⟩ := h
  obtain ⟨i, hi, rfl⟩ := List.getElem_of_mem hx
  refine Option.ne_none_iff_exists'.1 fun hn => ?_
  simp only [hotSensor, Option.map_eq_none_iff, List.find?_eq_none, decide_eq_true_eq, Nat.not_lt] at hn
  have := hn (l[i], i) (by simp [List.mem_zipIdx_iff_getElem?])
  omega

theorem foldl_max_lt {l : List Nat} {b n : Nat} (hn : n < b) (h : ∀ x ∈ l, x < b) : l.foldl max n < b := by
  induction l generalizing n with
  | nil => exact hn
  | cons x l ih => exact ih (by have := h x List.mem_cons_self; omega) fun y hy => h y (List.mem_cons_of_mem _ hy)

/-- The reading recorded in TJ_MAX. -/
def showReading (f : FieldId) (l : List Nat) (s : State) : State := s.set (pgFpwr f.val) FPWR.TJ_TJ_MAX (min 1023 (l.foldl max 0))

/-- The word of a field's readings. -/
theorem pgFpwr_mod (f : Nat) : pgFpwr f % 4096 = 0 := by
  simp only [pgFpwr, pageAddr]
  omega

theorem steady_showReading (l : List Nat) (h : Steady s0 s) : Steady s0 (showReading f l s) := steady_setMain (pgFpwr_main f.val) h

theorem fieldState_showReading (l : List Nat) (s : State) : fieldState (showReading f l s) f.val = fieldState s f.val := by
  refine get_set_other s _ fun h => ?_
  have h' := congrArg (· % 4096) h
  have hp := pgFpwr_mod f.val
  have hr := pgRostf_add_mod f.val (off := 0x40) (by decide)
  simp only [ROSTF.FIELD_STATE_STATE, FPWR.TJ_TJ_MAX] at h'
  omega

theorem tjMax_settle (r s : State) : (settle r s).get (pgFpwr f.val) FPWR.TJ_TJ_MAX = s.get (pgFpwr f.val) FPWR.TJ_TJ_MAX := by
  have hp := pgFpwr_mod f.val
  have hm := pgFpwr_main f.val
  refine (leaves_settle (B := (· = pgFpwr f.val + 0x50)) r ?_ ?_ (.refl s)).get _ _ rfl
  · rintro _ rfl
    exact Nat.le_trans hm (Nat.le_add_right _ _)
  · rintro _ rfl
    have hf : 0x11000 ≤ pgFpwr f.val := by
      simp only [pgFpwr, pageAddr]
      omega
    exact .inr ⟨by omega, .inr (by omega)⟩

theorem sampleField_cool {l : List Nat} (hr : fieldRail s f.val = true) (h : ∀ x ∈ l, x ≤ 420) :
    sampleField [] f l s = showReading f l s := by
  simp [sampleField, hr, hotSensor_none h, showReading]

/-! ### A sensor trips -/

/-- The field out of the roster with its request cleared and its trip recorded. -/
def tripMarked (f : FieldId) (s : State) : State :=
  (setFieldOn f.val false (removeField f.val 6 0 true (s.modP fun p => { p with leaving := p.leaving.erase f.val }))).setBit2 pgMpwr
    MPWR.FIELD_TRIP_LO_TRIP MPWR.FIELD_TRIP_HI_TRIP f.val true

/-- The trip's event. -/
def tripLogged (f : FieldId) (i x : Nat) (s : State) : State :=
  raiseEvent { code := 0x1007, field := f.val, arg0 := x, arg1 := i, alert := some acPower } (tripMarked f s)

theorem tripField_eq {i x : Nat} (hst : fieldState s f.val ≠ 7) : tripField f.val i x true s =
    if reachesRegulator (tripLogged f i x s) (.field f) then fieldOff f.val 0x00 (tripLogged f i x s)
    else railKept f.val (tripLogged f i x s) := by
  unfold tripField tripLogged tripMarked
  dsimp only
  rw [if_neg hst, railAt_field]
  generalize raiseEvent _ _ = u
  cases reachesRegulator u (.field f) <;> simp only [Bool.not_true, Bool.not_false, Bool.false_eq_true, if_true, if_false]

theorem fieldState_railKept (f : FieldId) (g : Nat) (s : State) : fieldState (railKept g s) f.val = fieldState s f.val := by
  have h := fieldState_raiseEvent { code := 0x1008, field := g } s f
  exact keeps_ite (P := fun u => fieldState u f.val = fieldState s f.val) (fun _ => (get_of_live rfl).trans h) fun _ => h

/-- The trip bit of a field. -/
abbrev fieldTripped (s : State) (f : Nat) : Bool := s.bit2 pgMpwr MPWR.FIELD_TRIP_LO_TRIP MPWR.FIELD_TRIP_HI_TRIP f

/-- What a trip shows of a field. -/
structure Tripped (f : FieldId) (s : State) : Prop where
  state : fieldState s f.val = 6
  request : fieldOn s f.val = false
  trip : fieldTripped s f.val = true

theorem tripped_steady (h : Tripped f s) (hs : Steady s t) (hf : fieldState t f.val = fieldState s f.val) : Tripped f t :=
  ⟨hf.trans h.state, (hs.fieldOn _).trans h.request, (hs.bit2 (by decide) (by decide) _).trans h.trip⟩

theorem tripped_offs (h : Tripped f s) (hs : Offs s t) : Tripped f t :=
  ⟨(fieldState_of_offs hs).trans h.state, (hs.fieldOn _).trans h.request,
    (bit2_of_word (hs.word _ (.inr (.inl (by decide)))) (hs.word _ (.inr (.inl (by decide))))).trans h.trip⟩

theorem word_tripMarked (f : FieldId) (s : State) {a : Nat} (ha : 0x4000 ≤ a) (hb : a < 0x5000) (hn : a ≠ 0x4044 ∧ a ≠ 0x4048)
    (ht : a ≠ 0x4058 ∧ a ≠ 0x405C) : (tripMarked f s).word a = s.word a :=
  (word_setBit2_other _ true ht.1 ht.2).trans ((word_setFieldOn_other _ _ _ hn.1 hn.2).trans ((steady_removeField (.refl _)).word a ha hb))

theorem tripMarked_tripped (f : FieldId) (s : State) : Tripped f (tripMarked f s) := by
  have hm := pgRostf_main f.val
  refine ⟨?_, ?_, bit2_setBit2_same fieldSet_trip _ f.isLt true⟩
  · refine (get_of_word (word_setBit2_other _ true ?_ ?_)).trans
      ((fieldState_setFieldOn _ _ _ _).trans (fieldState_removeField f (by decide) 0 true _)) <;>
      simp only [ROSTF.FIELD_STATE_STATE, MPWR.FIELD_TRIP_LO_TRIP, MPWR.FIELD_TRIP_HI_TRIP, show pgMpwr = 0x4000 from rfl] <;> omega
  · exact (bit2_of_word (word_setBit2_other _ true (by decide) (by decide)) (word_setBit2_other _ true (by decide) (by decide))).trans
      (fieldOn_setFieldOn_same f false _)

theorem power_tripMarked (f : FieldId) (s : State) :
    (tripMarked f s).power = { s.power with leaving := s.power.leaving.erase f.val } := by
  have h := (steady_removeField (f := f.val) (v := 6) (w := 0) (lost := true)
    (.refl (s.modP fun p => { p with leaving := p.leaving.erase f.val }))).power
  exact setBit2_power.trans (setBit2_power.trans h)

theorem tap_tripMarked (f : FieldId) (s : State) : (tripMarked f s).tap = s.tap :=
  setBit2_tap.trans (setBit2_tap.trans (steady_removeField (.refl _)).tap)

theorem reaches_tripMarked (f : FieldId) (s : State) (r : Rail) : reachesRegulator (tripMarked f s) r = reachesRegulator s r := by
  have hw : (tripMarked f s).on pgMpwr MPWR.SIDEBAND_SIDEBAND_ABSENT = s.on pgMpwr MPWR.SIDEBAND_SIDEBAND_ABSENT :=
    on_of_word (word_tripMarked f s (by decide) (by decide) (by decide) (by decide))
  rw [reachesRegulator, reachesRegulator, sidebandAbsent, sidebandAbsent, hw, power_tripMarked, tap_tripMarked]

/-- A trip, with its rail off where its regulator switches it off at once. -/
theorem tripField_trips {i x : Nat} (hst : fieldState s f.val ≠ 7) : Tripped f (tripField f.val i x true s) ∧
    (reachesRegulator s (.field f) = true → (∀ w ∈ s.power.pmbWaits, w.rail ≠ .field f) →
      fieldRail (tripField f.val i x true s) f.val = false ∧ lookup 0xFF (tripField f.val i x true s).power.operation f.val = 0) := by
  have hlog : Steady (tripMarked f s) (tripLogged f i x s) := steady_raiseEvent (.refl _)
  have htrip : Tripped f (tripLogged f i x s) := tripped_steady (tripMarked_tripped f s) hlog (fieldState_raiseEvent _ _ f)
  have hreach : reachesRegulator (tripLogged f i x s) (.field f) = reachesRegulator s (.field f) :=
    (hlog.reaches _).trans (reaches_tripMarked f s _)
  rw [tripField_eq hst, hreach]
  cases hr : reachesRegulator s (.field f) with
  | true =>
    rw [if_pos rfl]
    refine ⟨tripped_offs htrip (offs_fieldOff f 0 _), fun _ hw => fieldOff_off 0 0xFF (hreach.trans hr) (waitsFor_eq_false ?_)⟩
    rw [hlog.power, power_tripMarked]
    exact hw
  | false =>
    rw [if_neg Bool.false_ne_true]
    exact ⟨tripped_steady htrip (steady_railKept (.refl _)) (fieldState_railKept f f.val _), nofun⟩

theorem sampleField_hot {l : List Nat} {p : Nat × Nat} (hr : fieldRail s f.val = true) (hst : fieldState s f.val ≠ 6)
    (h : hotSensor l = some p) :
    sampleField [] f l s = showReading f l (tripField f.val p.1 p.2 true (showReading f l s)) := by
  simp [sampleField, hr, hst, h, showReading]

/-- The damage guard's sample of one field. -/
theorem guard_samples (ha : awake s = true) (hl : loopRuns s f.val = true) {l : List Nat} (hlt : ∀ x ∈ l, x < 1024) :
    ∃ s', exec (.damageGuardSample [(f, l)] []) s = .next s' ∧
      ((∀ x ∈ l, x ≤ 420) → s'.get (pgFpwr f.val) FPWR.TJ_TJ_MAX = l.foldl max 0 ∧ fieldState s' f.val = fieldState s f.val) ∧
      ((∃ x ∈ l, 420 < x) → fieldState s' f.val = 6 ∧ fieldOn s' f.val = false ∧ fieldTripped s' f.val = true ∧
        (reachesRegulator s (.field f) = true → (∀ w ∈ s.power.pmbWaits, w.rail ≠ .field f) →
          fieldRail s' f.val = false ∧ lookup 0xFF s'.power.operation f.val = 0)) := by
  obtain ⟨hrail, hstate⟩ := loopRuns_iff.1 hl
  refine ⟨_, guardSample_single ha l, fun hcool => ?_, fun hhot => ?_⟩
  · have hmax := foldl_max_lt (n := 0) (b := 1024) (by decide) hlt
    rw [onRoster, sampleField_cool hrail hcool, tjMax_settle, fieldState_settle, fieldState_showReading]
    refine ⟨(get_set_fits (by decide) ?_ s).trans (by omega), rfl⟩
    simp only [FPWR.TJ_TJ_MAX]
    omega
  · obtain ⟨p, hp⟩ := hotSensor_some hhot
    have hfirst : Steady s (showReading f l s) := steady_showReading l (.refl s)
    obtain ⟨htrip, hoff⟩ := tripField_trips (s := showReading f l s) (f := f) (i := p.1) (x := p.2)
      (by rw [fieldState_showReading]; omega)
    rw [hfirst.reaches, hfirst.power] at hoff
    have hlast : Steady (tripField f.val p.1 p.2 true (showReading f l s)) (onRoster (sampleField [] f l) s) := by
      rw [onRoster, sampleField_hot hrail (by omega) hp]
      exact steady_settle (steady_showReading l (.refl _))
    have hend := tripped_steady htrip hlast (by
      rw [onRoster, fieldState_settle, sampleField_hot hrail (by omega) hp, fieldState_showReading])
    refine ⟨hend.state, hend.request, hend.trip, ?_⟩
    rw [hlast.fieldRail, hlast.power]
    exact hoff

/-! ### The obligation -/

/-- Settles O48: each command of the loop writes its field of LOOP_STATUS, and a sample of the damage guard trips on the first hot
sensor. -/
theorem fieldLoopAndGuard : Obligations.FieldLoopAndGuard := by
  intro s f ha hl
  refine ⟨allowance_recomputed ha hl, ⟨_, atLoop_on _ ha hl, droopTrip_holds f.val s⟩,
    fun h => ⟨_, atLoop_on _ ha hl, droopEnd_clears h⟩, vdemand_recomputed ha hl,
    fun hr hw => ⟨_, mastVisit_visits ha hl hr hw, visit_vset f s⟩, fun l => guard_samples ha hl⟩

end Sys2Proof.Machine
end

section
namespace Sys2Proof.Machine
open Sys2Proof

variable {P : State → Prop} {s s0 t u : State} {r : Rail} {n : Nat}

/-! ## What an event writes -/

/-- A property that writes of the MAST and LOGB pages and changes of the logbook keep. -/
structure Unlogged (P : State → Prop) : Prop where
  write : ∀ a v s, a < 0x1000 ∨ 0xC000 ≤ a ∧ a < 0xD000 → P s → P (s.setWord a v)
  log : ∀ (l : LogSt) s, P s → P { s with log := l }

section
variable (hP : Unlogged P)
include hP

theorem unlogged_set {p : Nat} {F : Fld} (v : Nat) (ha : p + F.off < 0x1000 ∨ 0xC000 ≤ p + F.off ∧ p + F.off < 0xD000) (hs : P s) :
    P (s.set p F v) := hP.write _ _ _ ha hs

theorem unlogged_alert (c : Nat) (hs : P s) : P (alert c s) := unlogged_set hP _ (by decide) hs

theorem unlogged_pageEvent (p : Nat) (hs : P s) : P (pageEvent p s) :=
  keeps_ite (fun _ => unlogged_alert hP _ (keeps_ite (fun _ => hs) fun _ => unlogged_set hP _ (by decide)
    (unlogged_set hP _ (by decide) (unlogged_set hP _ (by decide) hs)))) fun _ => hs

theorem unlogged_logAlert (n : Nat) (hs : P s) : P (logAlert n s) := by
  have h1 : ∀ v, P ((alert acLogbook s).setWord (pgLogb + 0x00C) v) := fun v =>
    hP.write _ v _ (by decide) (unlogged_alert hP _ hs)
  exact keeps_ite (fun _ => unlogged_pageEvent hP _ (h1 _)) fun _ => h1 _

theorem unlogged_numberEvent (e : Event) (hs : P s) : P (numberEvent e s) := by
  have h0 : P (s.set pgLogb LOGB.NEXT_SEQ_SEQ (s.get pgLogb LOGB.NEXT_SEQ_SEQ + 1)) := unlogged_set hP _ (by decide) hs
  have h1 := keeps_ite (P := P) (c := unsaved (s.set pgLogb LOGB.NEXT_SEQ_SEQ (s.get pgLogb LOGB.NEXT_SEQ_SEQ + 1)) =
    alertLevel (s.set pgLogb LOGB.NEXT_SEQ_SEQ (s.get pgLogb LOGB.NEXT_SEQ_SEQ + 1))) (fun _ => unlogged_logAlert hP 16 h0) fun _ => h0
  exact keeps_ite (fun _ => hP.log _ _ h1) fun _ => keeps_ite (fun _ => unlogged_set hP _ (by decide) h1)
    fun _ => unlogged_logAlert hP _ (unlogged_set hP _ (by decide) h1)

theorem unlogged_flushRepeat (hs : P s) : P (flushRepeat s) :=
  keeps_ite (fun _ => hs) fun _ => unlogged_numberEvent hP _ (unlogged_set hP _ (by decide) hs)

theorem unlogged_raiseEvent (e : Event) (hs : P s) : P (raiseEvent e s) := by
  unfold raiseEvent
  extract_lets s1
  have h1 : P s1 := by
    unfold s1
    split
    · exact unlogged_alert hP _ hs
    · exact hs
  exact keeps_ite (fun _ => unlogged_set hP _ (by decide) h1) fun _ => unlogged_numberEvent hP _ (unlogged_flushRepeat hP h1)

end

theorem unlogged_word {a : Nat} (ha : 0x1000 ≤ a) (hb : a < 0xC000 ∨ 0xD000 ≤ a) (v : Word) : Unlogged fun u => u.word a = v where
  write b w u hw hu := (word_setWord_other u w (by omega)).trans hu
  log _ _ hu := hu

/-- Words outside the standby domain's pages. -/
theorem standbyPage_low {b : Nat} (hb : b / 4096 = 0 ∨ b / 4096 = 4 ∨ b / 4096 = 8 ∨ b / 4096 = 12) : standbyPage b = true := by
  have hcls : clsOf b = 0 := by
    simp only [clsOf, bits]
    omega
  have hfield : fieldOf b = 0 := by
    simp only [fieldOf, bits]
    omega
  have htile : tileOf b = 0 := by
    simp only [tileOf, bits]
    omega
  have hpage : pageNoOf b = b / 4096 := by
    simp only [pageNoOf, bits]
    omega
  simp only [standbyPage, kindOf, hcls, hfield, htile, hpage]
  obtain h | h | h | h := hb <;> rw [h] <;> rfl

theorem unlogged_outside {a : Nat} (ha : standbyPage a = false) (v : Word) : Unlogged fun u => u.word a = v where
  write b w u hw hu := by
    refine (word_setWord_other u w ?_).trans hu
    rintro rfl
    rw [standbyPage_low (by omega)] at ha
    exact absurd ha (by decide)
  log _ _ hu := hu

theorem lingers_shadow (x : List (Nat × Word)) : Lingers fun s => s.shadow = x :=
  ⟨fun _ _ h => h, fun _ _ _ _ _ h => h, fun _ _ h => h⟩

/-! ## A RESET event that waits for its point -/

theorem keeps_resetLogged (hP : ∀ (x : Option Bool) s, P s → P (s.modP fun p => { p with resetDue := x }))
    (hE : ∀ e s, P s → P (raiseEvent e s)) (hs : P s) : P (resetLogged s) := by
  unfold resetLogged
  split
  · exact hs
  · exact hE _ _ (hP _ _ hs)

theorem resetLogged_m (s : State) : (resetLogged s).m = s.m :=
  keeps_resetLogged (P := fun u => u.m = s.m) (fun _ _ h => h) (fun _ _ h => (raiseEvent_m _ _).trans h) rfl

theorem word_resetLogged {a : Nat} (hP : ∀ v, Unlogged fun u => u.word a = v) (s : State) : (resetLogged s).word a = s.word a :=
  keeps_resetLogged (P := fun u => u.word a = s.word a) (fun _ _ h => h) (fun e _ h => unlogged_raiseEvent (hP _) e h) rfl

/-! ## The main domain lost -/

/-- The register words of the standby domain alone, and the main domain as at reset. -/
def mainGone (s : State) : State :=
  { s with live := keep standbyPage s.live, shadow := keep standbyPage s.shadow, m := MainSt.reset }

theorem word_mainGone_standby (s : State) {a : Nat} (ha : standbyPage a = true) : (mainGone s).word a = s.word a :=
  lookup_keep_of_kept _ _ ha

theorem word_mainGone_outside (s : State) {a : Nat} (ha : standbyPage a = false) : (mainGone s).word a = resetWord a :=
  lookup_keep_of_not_kept _ _ ha

theorem shadow_mainGone_outside (s : State) {a : Nat} (ha : standbyPage a = false) : (mainGone s).shadowWord a = resetWord a :=
  lookup_keep_of_not_kept _ _ ha

/-! ## A wake that fails -/

/-- The power state of a wake that has failed. -/
def failedPower (p : PowerSt) : PowerSt :=
  { p with phase := .none, railStep := none, railQueue := [], probeAt := none
           pmbWaits := p.pmbWaits.filter PmbWait.off, moorPending := none }

/-- The wafer as a failed wake leaves it, before a RESET event that waits. -/
def wakeFailed (s : State) : State :=
  (mainGone ((stopFlash (s.modP failedPower)).set pgMpwr MPWR.PLL_STATUS_LOCKED 0)).set pgMpwr MPWR.PWR_STATE_STATE 0

theorem wakeFails_eq (s : State) : wakeFails s = resetLogged (wakeFailed s) := rfl

theorem wakeFails_m (s : State) : (wakeFails s).m = MainSt.reset := resetLogged_m _

theorem word_wakeFailed (s : State) {a : Nat} (ha : standbyPage a = true) (hp : a ≠ 0x4040) (hl : a ≠ 0x408C) :
    (wakeFailed s).word a = s.word a := by
  rw [wakeFailed, word_set_other _ _ hp, word_mainGone_standby _ ha, word_set_other _ _ hl]
  rw [State.word, (stopFlash_frame _).1]
  rfl

theorem word_wakeFails (s : State) {a : Nat} (h1 : 0x4000 ≤ a) (h2 : a < 0x5000 ∨ 0x8000 ≤ a ∧ a < 0x9000) (hp : a ≠ 0x4040)
    (hl : a ≠ 0x408C) : (wakeFails s).word a = s.word a := by
  rw [wakeFails_eq, word_resetLogged fun v => unlogged_word (by omega) (by omega) v]
  exact word_wakeFailed s (standbyPage_low (by omega)) hp hl

theorem pwrState_wakeFails (s : State) : pwrState (wakeFails s) = 0 := by
  rw [wakeFails_eq, (steady_resetLogged _).pwrState]
  exact pwrState_set 0 (by decide) _

theorem word_operation (r : Rail) (v : Nat) (s : State) (a : Nat) : (operation r v s).word a = s.word a := by
  unfold operation
  split <;> rfl

end Sys2Proof.Machine
end

section
namespace Sys2Proof.Machine
open Sys2Proof

variable {P : State → Prop} {s s0 t u : State} {r : Rail} {n : Nat} {w : BitVec 16} {deskew : Bool}

/-! ## The end of a rail step -/

/-- The faults that a poll shows are cleared at the regulator. -/
def pollSeen (r : Rail) (w : BitVec 16) (s : State) : State := if showsFault w then clearFaults r s else s

theorem pollSeen_frame (r : Rail) (w : BitVec 16) (s : State) :
    pollSeen r w s = s.modP fun p => { p with sent := (pollSeen r w s).power.sent } := by
  unfold pollSeen
  split <;> rfl

theorem pollSeen_count (r : Rail) (w : BitVec 16) (s : State) : lookup 0 (pollSeen r w s).power.sent (256 * railIx r + 0x03) =
    lookup 0 s.power.sent (256 * railIx r + 0x03) + bit (showsFault w) := by
  unfold pollSeen
  split
  · next h =>
    rw [h]
    exact lookup_insert_same _ _ _ _
  · next h =>
    rw [Bool.eq_false_iff.2 h]
    rfl

/-- A rail step is over. -/
def stepDone (s : State) : State := s.modP fun p => { p with railStep := none }

theorem railStatusPoll_good (hs : s.power.standby = true) (hstep : s.power.railStep = some r)
    (hw : ∀ x ∈ s.power.pmbWaits, x.rail ≠ r) (hoff : statusOff w = false) (hgood : statusGood w = true) :
    exec (.railStatusPoll (.word w) deskew) s = .next (railGood r deskew (pollSeen r w s)) := by
  change execRailStatusPoll (.word w) deskew s = _
  rw [execRailStatusPoll, ifStandby_on hs]
  simp [hstep, waitsFor_eq_false hw, polled, hoff, hgood, pollSeen]

/-- The main rail is good: PLL lock follows. -/
theorem main_good (hm : s.power.moorPending = none) : railGood .main deskew s =
    s.modP fun p => { p with railStep := none, phase := .pll } := by
  simp [railGood, moorIfPending, State.modP, hm]

theorem poll_main (hs : s.power.standby = true) (hm : s.power.moorPending = none) (hstep : s.power.railStep = some .main)
    (hw : ∀ x ∈ s.power.pmbWaits, x.rail ≠ .main) (hoff : statusOff w = false) (hgood : statusGood w = true) :
    ∃ s', exec (.railStatusPoll (.word w) deskew) s = .next s' ∧ s' = { s with power := s'.power } ∧
      s'.power.railStep = none ∧ s'.power.phase = .pll ∧
      lookup 0 s'.power.sent (256 * 68 + 0x03) = lookup 0 s.power.sent (256 * 68 + 0x03) + bit (showsFault w) := by
  have hf := pollSeen_frame .main w s
  refine ⟨_, railStatusPoll_good hs hstep hw hoff hgood, ?_⟩
  rw [main_good (by rw [hf]; exact hm)]
  refine ⟨?_, rfl, rfl, pollSeen_count .main w s⟩
  rw [hf]
  rfl

/-! ### A landing -/

/-- A landing whose rail is good, before its edge. -/
def landingUp (k : Nat) (s : State) : State :=
  if 8 ≤ k then resetPorts k (setLandingRail k true (stepDone s)) else setLandingRail k true (stepDone s)

theorem steady_landingUp (k : Nat) (s : State) : Steady (setLandingRail k true (stepDone s)) (landingUp k s) :=
  steady_ite (fun _ => steady_resetPorts (.refl _)) fun _ => .refl _

theorem landingOn_setLandingRail (k j : Nat) (b : Bool) (s : State) : landingOn (setLandingRail k b s) j = landingOn s j :=
  congrArg (bitAt · j) (get_of_word (F := MPWR.LANDING_ON_ON) (word_set_other (F := MPWR.LANDING_STATUS_LANDING_RAIL) s _ (by decide)))

theorem landing_good {k : LandingId} (hon : landingOn s k.val = true) :
    railGood (.landing k) deskew s = nextRail (onRoster id (landingUp k.val s)) := by
  have hon' : landingOn (landingUp k.val s) k.val = true := by
    rw [(steady_landingUp k.val s).landingOn, landingOn_setLandingRail]
    exact hon
  have hedge : onRoster (fun s => if landingOn s k.val then s else switchOff (.landing k) 0x40 s) (landingUp k.val s) =
      onRoster id (landingUp k.val s) := by
    rw [onRoster, if_pos hon', onRoster]
    rfl
  exact congrArg nextRail hedge

theorem poll_landing {k : LandingId} (hs : s.power.standby = true) (hm : s.power.moorPending = none)
    (hstep : s.power.railStep = some (.landing k)) (hw : ∀ x ∈ s.power.pmbWaits, x.rail ≠ .landing k) (hoff : statusOff w = false)
    (hgood : statusGood w = true) (hq : s.power.railQueue = []) (hph : s.power.phase = .none) (hon : landingOn s k.val = true) :
    ∃ s', exec (.railStatusPoll (.word w) deskew) s = .next s' ∧ landingRail s' k.val = true ∧ s'.power.railStep = none := by
  have hf := pollSeen_frame (.landing k) w s
  have hon' : landingOn (pollSeen (.landing k) w s) k.val = true := by rw [hf]; exact hon
  have h : Steady _ (onRoster id (landingUp k.val (pollSeen (.landing k) w s))) :=
    (steady_landingUp k.val (pollSeen (.landing k) w s)).trans (steady_onRoster_id _)
  have hpow : (onRoster id (landingUp k.val (pollSeen (.landing k) w s))).power =
      { s.power with sent := (pollSeen (.landing k) w s).power.sent, railStep := none } := by
    rw [h.power, hf]
    rfl
  refine ⟨_, railStatusPoll_good hs hstep hw hoff hgood, ?_⟩
  rw [landing_good hon', nextRail_idle (by rw [hpow]; exact hm) (by rw [hpow]; exact hq) (by rw [hpow]; exact hph), h.landingRail, hpow]
  exact ⟨landingRail_setLandingRail_same k true _, rfl⟩

/-! ### A field -/

/-- The Mast's own part of a field whose rail is good. -/
def fieldPowered (f : FieldId) (s : State) : State :=
  (setFieldRail f.val true (stepDone s)).set pgMpwr (MPWR.VSET_CODE.at f.val) 20

/-- A field whose rail is good, before its edge: its FPWR page at its reset values and no hold of a trip or a droop. -/
def fieldUp (f : FieldId) (s : State) : State :=
  let s := fieldPowered f s
  { s with m := { s.m with tripHeld := s.m.tripHeld.filter (· != f.val), droopUntil := erase f.val s.m.droopUntil }
           live := keep (fun a => pageOf a != pgFpwr f.val) s.live }

theorem steady_fieldUp (f : FieldId) (s : State) : Steady (fieldPowered f s) (fieldUp f s) where
  word a _ hb := by
    have hm := pgFpwr_main f.val
    have hne : (pageOf a != pgFpwr f.val) = true := by
      simp only [bne_iff_ne, pageOf]
      omega
    exact lookup_keep_of_kept (p := fun a => pageOf a != pgFpwr f.val) (resetWord a) (fieldPowered f s).live hne
  power := rfl
  tap := rfl
  pins := rfl
  port := rfl

theorem word_fieldPowered (f : FieldId) (s : State) {a : Nat} (ha : a < 0x4050 ∨ 0x4058 ≤ a ∧ a < 0x4100) :
    (fieldPowered f s).word a = s.word a :=
  (word_setVset_other f 20 _ (by omega)).trans (word_setFieldRail_other f.val true _ (by omega) (by omega))

theorem fieldRail_fieldPowered (f : FieldId) (s : State) : fieldRail (fieldPowered f s) f.val = true := by
  rw [fieldPowered, fieldRail_setVset, fieldRail_setFieldRail_same]

theorem power_fieldPowered (f : FieldId) (s : State) : (fieldPowered f s).power = (stepDone s).power := setBit2_power

theorem retiredRecs_rosterField (f v : Nat) (s : State) : retiredRecs (rosterField f v s) = retiredRecs s := by
  have h : recsA (setFieldState f v s) = recsA s := rfl
  change recsA (settle s (setFieldState f v s)) ++ (settle s (setFieldState f v s)).m.unrecorded = _
  rw [recsA_settle_of_same h, settle_m]
  rfl

theorem retiredRecs_fieldUp (f : FieldId) (s : State) : retiredRecs (fieldUp f s) = retiredRecs s := by
  have hmap : (fieldPowered f s).map = s.map := setBit2_map
  have hm : (fieldPowered f s).m = s.m := setBit2_m
  have hu : (fieldUp f s).m.unrecorded = s.m.unrecorded := by
    change (fieldPowered f s).m.unrecorded = _
    rw [hm]
  rw [retiredRecs, retiredRecs, recsA_of_map (u := fieldUp f s) (s := s) hmap, hu]

/-- A field whose rail is good joins an awake wafer with its self-test. -/
theorem field_good {f : FieldId} (hon : fieldOn s f.val = true) (hc : clocked s = true) :
    railGood (.field f) true s =
      nextRail (onRoster (fun u => finishBist f.val (startBist f.val u)) (rosterField f.val 1 (fieldUp f s))) := by
  have hst : Steady (fieldPowered f s) (rosterField f.val 1 (fieldUp f s)) := steady_rosterField (steady_fieldUp f s)
  have hon' : fieldOn (rosterField f.val 1 (fieldUp f s)) f.val = true := by
    rw [hst.fieldOn]
    exact (bit2_of_word (word_fieldPowered f s (by decide)) (word_fieldPowered f s (by decide))).trans hon
  have hc' : clocked (rosterField f.val 1 (fieldUp f s)) = true := by
    rw [hst.clocked]
    exact (on_of_word (word_fieldPowered f s (by decide))).trans hc
  have h : railGood (.field f) true s = nextRail (if !fieldOn (rosterField f.val 1 (fieldUp f s)) f.val then
      fieldOff f.val 0x40 (rosterField f.val 0 (rosterField f.val 1 (fieldUp f s)))
    else if !clocked (rosterField f.val 1 (fieldUp f s)) then rosterField f.val 1 (fieldUp f s)
    else onRoster (fun u => finishBist f.val (startBist f.val u)) (rosterField f.val 1 (fieldUp f s))) := rfl
  rw [h, hon', hc']
  rfl

/-! #### Its self-test -/

/-- The roster's entries of a field under test. -/
def testMarked (f : Nat) (s : State) : State :=
  (((setAllTiles f 1 (setFieldState f 2 s)).set (pgRostf f) ROSTF.BIST_RESULT_PASSED 0).set (pgRostf f) ROSTF.BIST_RESULT_FAILED 0).set
    (pgRostf f) ROSTF.BIST_CYCLES_CYCLES 0

theorem setAllTiles_frame (f v : Nat) (s : State) : (setAllTiles f v s).map = s.map ∧ (setAllTiles f v s).m = s.m :=
  keeps_foldl (P := fun u => u.map = s.map ∧ u.m = s.m) (fun _ _ _ h => h) ⟨rfl, rfl⟩

theorem retiredRecs_testMarked (f : Nat) (s : State) : retiredRecs (testMarked f s) = retiredRecs s := by
  have hframe := setAllTiles_frame f 1 (setFieldState f 2 s)
  have hmap : (testMarked f s).map = s.map := by simpa only [testMarked, setFieldState, set_map] using hframe.1
  have hm : (testMarked f s).m = s.m := by simpa only [testMarked, setFieldState, set_m] using hframe.2
  rw [retiredRecs, retiredRecs, recsA_of_map hmap, hm]

/-- Nothing of the field is retired: every tile is under test. -/
theorem startBist_live {f : Nat} (h : ∀ x ∈ retiredRecs s, x.field ≠ f) : (startBist f s).live = (testMarked f s).live := by
  unfold startBist
  change (List.foldl _ (testMarked f s) (retiredRecs (testMarked f s))).live = _
  refine congrArg State.live (keeps_foldl (P := (· = testMarked f s)) (s := testMarked f s) (l := retiredRecs (testMarked f s))
    (fun u x hx hu => ?_) rfl)
  rw [retiredRecs_testMarked] at hx
  exact (if_pos (h x hx)).trans hu

theorem tileState_setAllTiles_one {f t : Nat} (ht : t < 468) (s : State) : tileState (setAllTiles f 1 s) f t = 1 := by
  rw [tileState, get_setAllTiles (by omega)]
  have h8 := Nat.mod_lt t (show 0 < 8 by decide)
  split
  · next h =>
    have h4 : t % 8 < 4 := by omega
    generalize t % 8 = i at *
    interval_cases i <;> rfl
  · generalize t % 8 = i at *
    interval_cases i <;> rfl

theorem word_testMarked (f : Nat) (s : State) {a : Nat} (h : a ≠ pgRostf f + 0x44) (h' : a ≠ pgRostf f + 0x48) :
    (testMarked f s).word a = (setAllTiles f 1 (setFieldState f 2 s)).word a :=
  (word_set_other _ _ h').trans ((word_set_other _ _ h).trans (word_set_other _ _ h))

theorem testMarked_states (f : FieldId) (s : State) :
    fieldState (testMarked f.val s) f.val = 2 ∧ ∀ t : TileId, tileState (testMarked f.val s) f.val t.val = 1 := by
  refine ⟨?_, fun t => ?_⟩
  · refine (get_of_word (word_testMarked f.val s (by simp [ROSTF.FIELD_STATE_STATE]) (by simp [ROSTF.FIELD_STATE_STATE]))).trans ?_
    exact (fieldState_setAllTiles f 1 _).trans (fieldState_setFieldState (by decide) s)
  · refine (tileState_congr (word_testMarked f.val s ?_ ?_)).trans (tileState_setAllTiles_one t.isLt _)
    · exact (ne_tileWord t.isLt (by rw [pgRostf_add_mod _ (by decide)]; decide)).symm
    · exact (ne_tileWord t.isLt (by rw [pgRostf_add_mod _ (by decide)]; decide)).symm

/-- The end of an edge leaves the entries of the field's tiles. -/
theorem tileState_settle (q : State) (f : FieldId) (t : TileId) (s : State) :
    tileState (settle q s) f.val t.val = tileState s f.val t.val := by
  refine tileState_congr ((leaves_settle (B := (· = tileWord f.val t.val)) q ?_ ?_ (.refl s)).word _ rfl)
  · rintro _ rfl
    have := pgRostf_main f.val
    simp only [MainPlace, tileWord]
    omega
  · rintro _ rfl
    have := tileWord_eq f.val t.val
    have := t.isLt
    exact .inr ⟨by omega, .inr (by omega)⟩

theorem startBist_states {f : FieldId} (h : ∀ x ∈ retiredRecs s, x.field ≠ f.val) :
    fieldState (startBist f.val s) f.val = 2 ∧ ∀ t : TileId, tileState (startBist f.val s) f.val t.val = 1 := by
  have hword : ∀ a, (startBist f.val s).word a = (testMarked f.val s).word a := fun a => by
    rw [State.word, State.word, startBist_live h]
  obtain ⟨hf, ht⟩ := testMarked_states f s
  exact ⟨(get_of_word (hword _)).trans hf, fun t => (tileState_congr (hword _)).trans (ht t)⟩

/-- A field that joins an awake wafer. -/
def fieldJoined (f : FieldId) (s : State) : State :=
  onRoster (fun u => finishBist f.val (startBist f.val u)) (rosterField f.val 1 (fieldUp f s))

theorem fieldJoined_states {f : FieldId} (h : ∀ x ∈ retiredRecs s, x.field ≠ f.val) : Steady (fieldPowered f s) (fieldJoined f s) ∧
    fieldState (fieldJoined f s) f.val = 2 ∧ ∀ t : TileId, tileState (fieldJoined f s) f.val t.val = 1 := by
  have hrecs : ∀ x ∈ retiredRecs (rosterField f.val 1 (fieldUp f s)), x.field ≠ f.val := by
    rw [retiredRecs_rosterField, retiredRecs_fieldUp]
    exact h
  obtain ⟨hfs, hts⟩ := startBist_states hrecs
  have hfinish : finishBist f.val (startBist f.val (rosterField f.val 1 (fieldUp f s))) =
      startBist f.val (rosterField f.val 1 (fieldUp f s)) := finishBist_of_tile f.isLt (t := 0) (by decide) (hts 0)
  rw [fieldJoined, onRoster, hfinish, fieldState_settle]
  exact ⟨steady_settle (steady_startBist (steady_rosterField (steady_fieldUp f s))), hfs,
    fun t => (tileState_settle _ f t _).trans (hts t)⟩

theorem poll_field {f : FieldId} (hs : s.power.standby = true) (hm : s.power.moorPending = none)
    (hstep : s.power.railStep = some (.field f)) (hw : ∀ x ∈ s.power.pmbWaits, x.rail ≠ .field f) (hoff : statusOff w = false)
    (hgood : statusGood w = true) (hq : s.power.railQueue = []) (hph : s.power.phase = .none) (hon : fieldOn s f.val = true)
    (hc : clocked s = true) (hret : ∀ x ∈ retiredRecs s, x.field ≠ f.val) :
    ∃ s', exec (.railStatusPoll (.word w) true) s = .next s' ∧ fieldRail s' f.val = true ∧ fieldState s' f.val = 2 ∧
      ∀ t : TileId, tileState s' f.val t.val = 1 := by
  have hf := pollSeen_frame (.field f) w s
  have hon' : fieldOn (pollSeen (.field f) w s) f.val = true := by rw [hf]; exact hon
  have hc' : clocked (pollSeen (.field f) w s) = true := by rw [hf]; exact hc
  obtain ⟨hend, hfs, hts⟩ := fieldJoined_states (s := pollSeen (.field f) w s) (f := f) (by rw [hf]; exact hret)
  have hpow : (fieldJoined f (pollSeen (.field f) w s)).power =
      { s.power with sent := (pollSeen (.field f) w s).power.sent, railStep := none } := by
    rw [hend.power, power_fieldPowered, hf]
    rfl
  have hnext := nextRail_idle (s := fieldJoined f (pollSeen (.field f) w s)) (by rw [hpow]; exact hm) (by rw [hpow]; exact hq)
    (by rw [hpow]; exact hph)
  refine ⟨_, railStatusPoll_good hs hstep hw hoff hgood, ?_⟩
  rw [(field_good hon' hc').trans hnext, hend.fieldRail]
  exact ⟨fieldRail_fieldPowered f _, hfs, hts⟩

/-! ### Power good that does not come -/

/-- The rail's regulator is switched off, with its fault and its alert. -/
def timedOutRail (r : Rail) (s : State) : State := powerAlert 0x1001 (railNo r) 0 (setFault r (operation r 0x00 s))

theorem powerGoodTimeout_fails (hs : s.power.standby = true) (hstep : s.power.railStep = some r)
    (hw : ∀ x ∈ s.power.pmbWaits, x.rail ≠ r) : exec .powerGoodTimeout s = .next (stepFailed r (timedOutRail r s)) := by
  change execPowerGoodTimeout s = _
  rw [execPowerGoodTimeout, ifStandby_on hs]
  simp [hstep, waitsFor_eq_false hw, timedOutRail]

theorem operation_power (r : Rail) (v : Nat) (s : State) :
    (operation r v s).power = { s.power with operation := (operation r v s).power.operation } := by
  unfold operation
  split <;> rfl

theorem alertSet_setFieldState {c : Nat} (f v : Nat) (hs : AlertSet c s) : AlertSet c (setFieldState f v s) := by
  have hm := pgRostf_main f
  exact alertSet_congr (word_set_other s v (by omega)) hs

/-- A field whose rail step has failed. -/
def fieldFailed (f : FieldId) (s : State) : State := rosterField f.val 5 (stepDone (timedOutRail (.field f) s))

theorem steady_fieldFailed (f : FieldId) (s : State) :
    Steady (stepDone (setFault (.field f) (operation (.field f) 0 s))) (fieldFailed f s) :=
  steady_rosterField ((steady_powerAlert (.refl _)).modP _)

theorem power_fieldFailed (f : FieldId) (s : State) :
    (fieldFailed f s).power = { s.power with operation := (operation (.field f) 0 s).power.operation, railStep := none } := by
  rw [(steady_fieldFailed f s).power]
  exact (congrArg (fun p : PowerSt => { p with railStep := none }) setBit2_power).trans
    (congrArg (fun p : PowerSt => { p with railStep := none }) (operation_power (.field f) 0 s))

theorem fieldState_fieldFailed (f : FieldId) (s : State) : fieldState (fieldFailed f s) f.val = 5 := by
  rw [fieldFailed, rosterField, onRoster, fieldState_settle]
  exact fieldState_setFieldState (by decide) _

theorem alertSet_fieldFailed (f : FieldId) (s : State) : AlertSet acPower (fieldFailed f s) := by
  have h : AlertSet acPower (stepDone (timedOutRail (.field f) s)) :=
    alertSet_powerAlert 0x1001 (railNo (.field f)) 0 (setFault (.field f) (operation (.field f) 0x00 s))
  exact alertSet_settle (by decide) _ (alertSet_setFieldState f.val 5 h)

theorem timeout_field {f : FieldId} (hs : s.power.standby = true) (hm : s.power.moorPending = none)
    (hstep : s.power.railStep = some (.field f)) (hw : ∀ x ∈ s.power.pmbWaits, x.rail ≠ .field f) (hq : s.power.railQueue = [])
    (hph : s.power.phase = .none) : ∃ s', exec .powerGoodTimeout s = .next s' ∧
      fieldState s' f.val = 5 ∧ fieldFault s' f.val = true ∧ AlertSet acPower s' ∧ s'.power.railStep = none ∧
      (reachesRegulator s (.field f) = true → lookup 0xFF s'.power.operation f.val = 0) := by
  have hpow := power_fieldFailed f s
  have hend : stepFailed (.field f) (timedOutRail (.field f) s) = fieldFailed f s :=
    nextRail_idle (s := fieldFailed f s) (by rw [hpow]; exact hm) (by rw [hpow]; exact hq) (by rw [hpow]; exact hph)
  refine ⟨_, powerGoodTimeout_fails hs hstep hw, ?_⟩
  rw [hend, (steady_fieldFailed f s).fieldFault, hpow]
  refine ⟨fieldState_fieldFailed f s, fieldFault_setFault f _, alertSet_fieldFailed f s, rfl, fun hr => ?_⟩
  rw [operation, if_pos hr]
  exact lookup_insert_same _ _ _ _

/-! ## PLL lock -/

theorem pllLocked_reconciles (hs : s.power.standby = true) (hph : s.power.phase = .pll) (fl : FlashProbe) :
    ∃ s', exec (.pllLocked fl) s = .next s' ∧ s'.power.phase = .reconciling ∧ s'.on pgMpwr MPWR.PLL_STATUS_LOCKED = true := by
  have hexec : exec (.pllLocked fl) s = .next (probeFlash true fl.meets fl.jedec
      ((s.set pgMpwr MPWR.PLL_STATUS_LOCKED 1).modP fun p => { p with phase := .reconciling })) := by
    change execPllLocked fl s = _
    rw [execPllLocked, ifStandby_on hs]
    simp [hph]
  have h := steady_probeFlash (wake := true) (meets := fl.meets) (jedec := fl.jedec)
    (.refl ((s.set pgMpwr MPWR.PLL_STATUS_LOCKED 1).modP fun p => { p with phase := .reconciling }))
  refine ⟨_, hexec, ?_⟩
  rw [h.power, h.on (by decide)]
  exact ⟨rfl, on_set_one s (by decide) (by decide)⟩

theorem pllNoLock_moors (hs : s.power.standby = true) (hph : s.power.phase = .pll) :
    ∃ s', exec .pllNoLock s = .next s' ∧ pwrState s' = 0 ∧ s'.on pgMpwr MPWR.SIDEBAND_PLL_NO_LOCK = true ∧ s'.m = MainSt.reset := by
  have hexec : exec .pllNoLock s =
      .next (wakeFails (operation .main 0x40 (powerAlert 0x1009 0 0 (s.set pgMpwr MPWR.SIDEBAND_PLL_NO_LOCK 1)))) := by
    change execPllNoLock s = _
    rw [execPllNoLock, ifStandby_on hs]
    simp [hph]
  refine ⟨_, hexec, pwrState_wakeFails _, ?_, wakeFails_m _⟩
  rw [on_of_word (word_wakeFails _ (by decide) (by decide) (by decide) (by decide)), on_of_word (word_operation _ _ _ _),
    (steady_powerAlert (.refl _)).on (by decide)]
  exact on_set_one s (by decide) (by decide)

/-! ## Reconciliation -/

theorem reconciled_lost (hs : s.power.standby = true) (hph : s.power.phase = .reconciling) (hr : reconcile s = none) :
    ∃ s', exec .reconciled s = .next s' ∧ pwrState s' = 0 ∧ s'.on pgDmap DMAP.MAP_STATUS_MAP_LOST = true := by
  have hexec : exec .reconciled s = .next (wakeFails (operation .main 0x40
      (raiseEvent { code := 0x3005, alert := some acMap } (s.set pgDmap DMAP.MAP_STATUS_MAP_LOST 1)))) := by
    change execReconciled s = _
    rw [execReconciled, ifStandby_on hs]
    simp [hph, hr]
  refine ⟨_, hexec, pwrState_wakeFails _, ?_⟩
  have hevent := unlogged_raiseEvent (unlogged_word (a := pgDmap + 0x48) (by decide) (by decide) _)
    { code := 0x3005, alert := some acMap } (s := s.set pgDmap DMAP.MAP_STATUS_MAP_LOST 1) rfl
  rw [on_of_word (word_wakeFails _ (by decide) (by decide) (by decide) (by decide)), on_of_word (word_operation _ _ _ _), on_of_word hevent]
  exact on_set_one s (by decide) (by decide)

/-- No rail is asked for. -/
structure Unasked (s : State) : Prop where
  fields : ∀ f : FieldId, fieldOn s f.val = false
  landings : ∀ k : LandingId, landingOn s k.val = false

theorem Unasked.steady (h : Unasked s) (hs : Steady s t) : Unasked t :=
  ⟨fun f => (hs.fieldOn _).trans (h.fields f), fun k => (hs.landingOn _).trans (h.landings k)⟩

theorem Unasked.mayPower (h : Unasked s) (r : Rail) : mayPower s r = false := by
  cases r with
  | field f => simp [Machine.mayPower, h.fields f]
  | landing k => simp [Machine.mayPower, h.landings k]
  | main => simp [Machine.mayPower]

/-- The wake's queue with no rail asked for ends in WCLK's distribution. -/
theorem pumpRails_unasked (q : List Rail) (h : Unasked s) (hstep : s.power.railStep = none) (hw : s.power.pmbWaits = [])
    (hph : s.power.phase = .rails) (hm : s.power.moorPending = none) (hq : s.power.railQueue = q) :
    pumpRails (q.length + 1) s = wclkStart (s.modP fun p => { p with railQueue := [] }) := by
  induction q generalizing s with
  | nil =>
    have hempty : (s.modP fun p => { p with railQueue := [] }) = s := by rw [State.modP, ← hq]
    rw [hempty]
    simp [pumpRails, hstep, hq, hph, moorIfPending, hm]
  | cons r q ih =>
    have hoff : offWaits s r = false := offWaits_eq_false (by simp [hw])
    have hpop := ih (s := s.modP fun p => { p with railQueue := q }) ⟨h.fields, h.landings⟩ hstep hw hph hm rfl
    have hmay : mayPower (s.modP fun p => { p with railQueue := q }) r = false := (mayPower_queue q).trans (h.mayPower r)
    refine Eq.trans ?_ hpop
    rw [List.length_cons, pumpRails]
    simp only [hstep, hq, hoff, hmay, Option.isSome_none, Bool.false_and, Bool.false_eq_true, if_false]
    cases r with
    | field f =>
      have hon : fieldOn (s.modP fun p => { p with railQueue := q }) f.val = false := h.fields f
      simp only [hon, Bool.false_and, Bool.false_eq_true, if_false]
    | landing k => rfl
    | main => rfl

/-! ### WCLK's distribution -/

/-- The wafer is awake with WCLK distributed. -/
def Clocked (s : State) : Prop := s.power.standby = true ∧ pwrState s = 2 ∧ clocked s = true

theorem Clocked.steady (h : Clocked s) (hs : Steady s t) : Clocked t := by
  obtain ⟨h1, h2, h3⟩ := h
  exact ⟨by rw [hs.power, h1], hs.pwrState.trans h2, hs.clocked.trans h3⟩

theorem Clocked.offs (h : Clocked s) (hs : Offs s t) : Clocked t := by
  obtain ⟨h1, h2, h3⟩ := h
  exact ⟨by rw [hs.rest]; exact h1, (get_of_word (hs.word _ (by decide))).trans h2, (on_of_word (hs.word _ (by decide))).trans h3⟩

theorem clocked_fieldOff {f v : Nat} (h : Clocked s) : Clocked (fieldOff f v s) := h.offs (offs_switchOff _ v s)

theorem clocked_finishBist {f : Nat} (h : Clocked s) : Clocked (finishBist f s) := by
  unfold finishBist
  dsimp only
  have hb : Clocked (bistCycles f s) := h.steady (steady_bistCycles (.refl s))
  refine keeps_ite (P := Clocked) (fun _ => h) fun _ =>
    keeps_ite (P := Clocked) (fun _ => clocked_fieldOff (hb.steady ?_)) fun _ => hb.steady ?_
  · exact steady_clearField (steady_setFieldState (steady_raiseEvent (.refl _)))
  · exact steady_startRoutes (steady_startEnds (steady_dropDead (steady_setFieldState (.refl _))))

theorem wtime_startBist (f : Nat) (s : State) : (startBist f s).m.wtime = s.m.wtime := by
  have hstart : ∀ u : State, ({ u with m := { u.m with bistStart := insert f u.m.wtime u.m.bistStart } } : State).m.wtime = u.m.wtime :=
    fun _ => rfl
  have h2 : (testMarked f s).m.wtime = s.m.wtime := congrArg (fun m : MainSt => m.wtime) (by
    simpa only [testMarked, setFieldState, set_m] using (setAllTiles_frame f 1 (setFieldState f 2 s)).2)
  unfold startBist
  extract_lets s1 s2 s3
  refine (hstart s3).trans (keeps_foldl (P := fun u => u.m.wtime = s.m.wtime) (fun u x _ hu => ?_) h2)
  refine keeps_ite (P := fun u => u.m.wtime = s.m.wtime) (fun _ => hu) fun _ => ?_
  split <;> simpa only [setTileState, set_m, setBit_m] using hu

/-- What starts with WCLK: the self-test of every powered field. -/
def testsStart (s : State) : State :=
  (List.range 56).foldl (fun s f => finishBist f s) ((List.range 56).foldl (fun s f => if fieldState s f = 1 then startBist f s else s) s)

theorem clocked_testsStart (h : Clocked s) : Clocked (testsStart s) :=
  keeps_foldl (P := Clocked) (fun _ _ _ hu => clocked_finishBist hu)
    (keeps_foldl (P := Clocked) (fun _ _ _ hu => keeps_ite (P := Clocked) (fun _ => hu.steady (steady_startBist (.refl _))) fun _ => hu) h)

theorem wtime_testsStart (s : State) : (testsStart s).m.wtime = s.m.wtime :=
  keeps_foldl (P := fun u => u.m.wtime = s.m.wtime)
    (fun _ f _ hu => closing_finishBist (f := 0) (t := 0) (by decide) (by decide) (closing_wtime 0 0 _) f hu)
    (keeps_foldl (P := fun u => u.m.wtime = s.m.wtime)
      (fun u f _ hu => keeps_ite (P := fun u => u.m.wtime = s.m.wtime) (fun _ => (wtime_startBist f u).trans hu) fun _ => hu) rfl)

/-- The state in which WCLK starts. -/
def wclkOn (s : State) : State :=
  { (s.set pgMpwr MPWR.PLL_STATUS_DISTRIBUTING 1).set pgMpwr MPWR.PWR_STATE_STATE 2 with
    m := { s.m with wtime := 0 }, power := { s.power with phase := .none } }

theorem clocked_wclkOn (hs : s.power.standby = true) : Clocked (wclkOn s) := by
  refine ⟨hs, pwrState_set 2 (by decide) _, ?_⟩
  change ((s.set pgMpwr MPWR.PLL_STATUS_DISTRIBUTING 1).set pgMpwr MPWR.PWR_STATE_STATE 2).on pgMpwr MPWR.PLL_STATUS_DISTRIBUTING = true
  rw [on_of_word (word_set_other _ _ (by decide))]
  exact on_set_one s (by decide) (by decide)

theorem wclkStart_awake (hs : s.power.standby = true) :
    awake (wclkStart s) = true ∧ clocked (wclkStart s) = true ∧ (wclkStart s).m.wtime = 0 := by
  have heq : wclkStart s = onRoster testsStart (wclkOn s) := rfl
  have hc : Clocked (wclkStart s) := by
    rw [heq]
    exact (clocked_testsStart (clocked_wclkOn hs)).steady (steady_settle (.refl _))
  obtain ⟨h1, h2, h3⟩ := hc
  refine ⟨by simp [awake, h1, h2], h3, ?_⟩
  rw [heq, onRoster, settle_m]
  exact wtime_testsStart (wclkOn s)

theorem steady_showRetired (s : State) : Steady s (showRetired s) := steady_foldl (fun _ h => steady_rosterField h) _ (.refl s)

/-- Every rail in the order of a wake. -/
def railOrder (s : State) : State := s.modP fun p => { p with phase := .rails, railQueue := (List.range 68).map railAt }

theorem reconciled_wakes (hs : s.power.standby = true) (hph : s.power.phase = .reconciling) (hm : s.power.moorPending = none) {s1 : State}
    (hr : reconcile s = some s1) (hstep : s.power.railStep = none) (hw : s.power.pmbWaits = []) (h : Unasked s) :
    ∃ s', exec .reconciled s = .next s' ∧ awake s' = true ∧ clocked s' = true ∧ s'.m.wtime = 0 := by
  have h1 : Steady s s1 := steady_of_reconcile hr (.refl s)
  have hexec : exec .reconciled s = .next (pumpRails 69 (showRetired (railOrder s1))) := by
    change execReconciled s = _
    rw [execReconciled, ifStandby_on hs]
    simp [hph, hr, moorIfPending, h1.power, hm, railOrder]
  have h2 : Steady (railOrder s1) (showRetired (railOrder s1)) := steady_showRetired _
  have hpow : (showRetired (railOrder s1)).power = { s.power with phase := .rails, railQueue := (List.range 68).map railAt } := by
    rw [h2.power, ← h1.power]
    rfl
  have hask : Unasked (showRetired (railOrder s1)) :=
    Unasked.steady (s := railOrder s1) ⟨(h.steady h1).fields, (h.steady h1).landings⟩ h2
  have hpump := pumpRails_unasked ((List.range 68).map railAt) hask (by rw [hpow]; exact hstep) (by rw [hpow]; exact hw) (by rw [hpow])
    (by rw [hpow]; exact hm) (by rw [hpow])
  rw [List.length_map, List.length_range] at hpump
  refine ⟨_, hexec, ?_⟩
  rw [hpump]
  exact wclkStart_awake (s := (showRetired (railOrder s1)).modP fun p => { p with railQueue := [] }) (by rw [State.modP, hpow]; exact hs)

/-! ### The obligation -/

/-- Settles O45: the end of each phase as its own lemma, for the rail that steps and for PLL lock and reconciliation. -/
theorem wakePhasesEnd : Obligations.WakePhasesEnd := by
  intro s w deskew hs hm
  refine ⟨fun r hstep hw => ⟨fun hoff hgood => ⟨?_, fun hq hph => ⟨?_, ?_⟩⟩, ?_⟩,
    fun hph => ⟨pllLocked_reconciles hs hph, pllNoLock_moors hs hph⟩,
    fun hph => ⟨reconciled_lost hs hph, fun s1 hr hstep hw hf hk => reconciled_wakes hs hph hm hr hstep hw ⟨hf, hk⟩⟩⟩
  · rintro rfl
    exact poll_main hs hm hstep hw hoff hgood
  · rintro k rfl hon
    exact poll_landing hs hm hstep hw hoff hgood hq hph hon
  · rintro f rfl hon hc rfl hret
    exact poll_field hs hm hstep hw hoff hgood hq hph hon hc hret
  · rintro f rfl hq hph
    exact timeout_field hs hm hstep hw hq hph

end Sys2Proof.Machine
end

section
namespace Sys2Proof.Machine
open Sys2Proof

variable {P : State → Prop} {s s0 t u : State} {r : Rail} {n : Nat}

/-! ## The sources of a wake -/

theorem word_setCauses (l : List WakeSource) (s : State) {a : Nat} (h : a ≠ 0x4080) : (setCauses l s).word a = s.word a :=
  keeps_foldl (P := fun u => u.word a = s.word a)
    (fun u w _ hu => (word_set_other u 1 (by cases w <;> exact h)).trans hu) rfl

theorem setCauses_frame (l : List WakeSource) (s : State) : setCauses l s = { s with live := (setCauses l s).live } :=
  keeps_foldl (P := fun u => u = { s with live := u.live })
    (fun u w _ hu => by
      rw [hu]
      rfl) rfl

theorem causeField_place (w : WakeSource) : (causeField w).off = 0x80 ∧ (causeField w).width = 1 ∧ (causeField w).lo < 3 := by
  cases w <;> exact ⟨rfl, rfl, by decide⟩

theorem causeField_injective {w q : WakeSource} (h : (causeField w).lo = (causeField q).lo) : w = q := by
  revert h
  cases w <;> cases q <;> decide

theorem on_set_cause (w q : WakeSource) (s : State) (h : s.on pgMpwr (causeField w) = true) :
    (s.set pgMpwr (causeField q) 1).on pgMpwr (causeField w) = true := by
  obtain ⟨ho, hw, hl⟩ := causeField_place w
  obtain ⟨ho', hw', hl'⟩ := causeField_place q
  by_cases heq : (causeField w).lo = (causeField q).lo
  · rw [causeField_injective heq]
    exact on_set_one s (by omega) (by omega)
  · exact (on_set_disjoint s 1 (ho.trans ho'.symm) (by omega) (by omega)).trans h

/-- Every source is recorded. -/
theorem on_setCauses {l : List WakeSource} {w : WakeSource} (hw : w ∈ l) (s : State) :
    (setCauses l s).on pgMpwr (causeField w) = true := by
  obtain ⟨-, hwidth, hlo⟩ := causeField_place w
  exact foldl_establishes (P := fun u => u.on pgMpwr (causeField w) = true) (Q := fun _ => True) hw
    (fun u _ => on_set_one u (by omega) (by omega)) (fun _ _ _ h => h) (fun u q _ h => on_set_cause w q u h) trivial

/-! ## A wake that starts -/

/-- A probe of a wake whose regulators all answer goes on to the Mast main rail. -/
theorem startProbe_wakes (hph : s.power.phase = .probing) (hm : s.power.moorPending = none) : startProbe [] s =
    startStep .main (((List.range' 0 69).foldl probeOne (beginProbe s)).modP fun p => { p with probeAt := none, phase := .mainRail }) := by
  have hf := probed_frame (List.range' 0 69) (beginProbe s)
  have hacked := probeAcked_probed (beginProbe s)
  rw [startProbe, probeFrom_answered (s := beginProbe s) hm]
  generalize (List.range' 0 69).foldl probeOne (beginProbe s) = v at hf hacked ⊢
  have hph' : v.power.phase = .probing := by rw [hf]; exact hph
  have hm' : v.power.moorPending = none := by rw [hf]; exact hm
  have hbad : v.power.badRails = [] := by rw [hf]; rfl
  have hsilent : v.power.silentRails = [] := by rw [hf]; rfl
  simp [endProbe, State.modP, hph', hm', hacked, hbad, hsilent, moorIfPending]

/-- The power state and the faults that a wake judges again. -/
def wakeMarked (s : State) : State :=
  ((s.set pgMpwr MPWR.PWR_STATE_STATE 1).set pgMpwr MPWR.SIDEBAND_PLL_NO_LOCK 0).set pgMpwr MPWR.SIDEBAND_MAIN_RAIL_FAULT 0

/-- The marks of the flash cleared. -/
def flashUnmarked (s : State) : State := clearFlashFault { s with map := { s.map with flashStopped := false } }

theorem steady_flashUnmarked (s : State) : Steady s (flashUnmarked s) := by
  unfold flashUnmarked clearFlashFault
  exact steady_setDmap (steady_frame (.refl s) rfl)

/-- A wake begun, with its event. -/
def wakeBegun (s : State) : State :=
  raiseEvent { code := 0x100A, arg0 := ((flashUnmarked (wakeMarked s)).word (pgMpwr + 0x080)).toNat % 8 } (flashUnmarked (wakeMarked s))

theorem steady_wakeBegun (s : State) : Steady (wakeMarked s) (wakeBegun s) := steady_raiseEvent (steady_flashUnmarked _)

/-- The sources recorded, none held any longer. -/
def causesSet (l : List WakeSource) (s : State) : State := setCauses l (s.modP fun p => { p with heldWakes := [] })

theorem startWake_lost {l : List WakeSource} (probe : ProbeAnswers) (h : s.on pgDmap DMAP.MAP_STATUS_MAP_LOST = true) :
    startWake l probe s = causesSet l s := by
  have h' : (causesSet l s).on pgDmap DMAP.MAP_STATUS_MAP_LOST = true := (on_of_word (word_setCauses l _ (by decide))).trans h
  unfold startWake
  exact if_pos h'

theorem startWake_wakes {l : List WakeSource} (probe : ProbeAnswers) (h : s.on pgDmap DMAP.MAP_STATUS_MAP_LOST = false) :
    startWake l probe s = startProbe probe ((wakeBegun (causesSet l s)).modP fun p => { p with phase := .probing }) := by
  have h' : (causesSet l s).on pgDmap DMAP.MAP_STATUS_MAP_LOST = false := (on_of_word (word_setCauses l _ (by decide))).trans h
  unfold startWake
  exact if_neg (Bool.eq_false_iff.1 h')

theorem power_causesSet (l : List WakeSource) (s : State) : (causesSet l s).power = { s.power with heldWakes := [] } := by
  rw [causesSet, setCauses_frame]
  rfl

/-- A wafer that a wake has left with the Mast main rail's step begun, or moored with its map lost. -/
structure Woken (l : List WakeSource) (s t : State) : Prop where
  causes : ∀ w ∈ l, t.on pgMpwr (causeField w) = true
  lost : s.on pgDmap DMAP.MAP_STATUS_MAP_LOST = true → pwrState t = 0 ∧
    t.power.operation = s.power.operation ∧ t.power.vout = s.power.vout
  wakes : s.on pgDmap DMAP.MAP_STATUS_MAP_LOST = false → pwrState t = 1 ∧ t.power.railStep = some .main ∧
    t.power.phase = .mainRail ∧ lookup 0 t.power.operation 68 = 0x80 ∧ lookup 0 t.power.vout 68 = voutWord t .main 800
  port : t.port = s.port
  pins : t.pins = s.pins
  held : t.power.heldWakes = []
  alarm : t.power.alarmDue = s.power.alarmDue

theorem woken_lost {l : List WakeSource} (hp : pwrState s = 0) (h : s.on pgDmap DMAP.MAP_STATUS_MAP_LOST = true) :
    Woken l s (startWake l [] s) := by
  rw [startWake_lost [] h]
  have hf := setCauses_frame l (s.modP fun p => { p with heldWakes := [] })
  have hpow := power_causesSet l s
  refine ⟨fun w hw => on_setCauses hw _, fun _ => ⟨?_, ?_, ?_⟩, fun h' => absurd h (by simp [h']), ?_, ?_, ?_, ?_⟩
  · exact (get_of_word (word_setCauses l _ (by decide))).trans hp
  · rw [hpow]
  · rw [hpow]
  · rw [causesSet, hf]; rfl
  · rw [causesSet, hf]; rfl
  · rw [hpow]
  · rw [hpow]

/-- The main rail's step of a wake, from the state that its probe leaves. -/
theorem main_step (hr : reachesRegulator s .main = true) : lookup 0 (startStep .main s).power.operation 68 = 0x80 ∧
    lookup 0 (startStep .main s).power.vout 68 = voutWord (startStep .main s) .main 800 := by
  refine ⟨?_, ?_⟩
  · simp only [startStep, operation, State.modP, show reachesRegulator (voutCommand .main (nominal .main) s) .main = true from hr, if_true]
    exact lookup_insert_same _ _ _ _
  · rw [startStep_frame]
    exact lookup_insert_same _ _ _ _

/-- A probe of a wake that ends with the main rail's step begun. -/
structure MainStepped (s t : State) : Prop where
  live : t.live = (beginProbe s).live
  port : t.port = s.port
  pins : t.pins = s.pins
  held : t.power.heldWakes = s.power.heldWakes
  alarm : t.power.alarmDue = s.power.alarmDue
  step : t.power.railStep = some .main
  phase : t.power.phase = .mainRail
  on : lookup 0 t.power.operation 68 = 0x80
  vout : lookup 0 t.power.vout 68 = voutWord t .main 800

theorem mainStepped_startProbe (hph : s.power.phase = .probing) (hm : s.power.moorPending = none) (hx : s.tap.extest = false) :
    MainStepped s (startProbe [] s) := by
  rw [startProbe_wakes hph hm]
  have hf := probed_frame (List.range' 0 69) (beginProbe s)
  obtain ⟨-, habsent⟩ := beginProbe_bits s
  generalize (List.range' 0 69).foldl probeOne (beginProbe s) = v at hf ⊢
  have hlive : v.live = (beginProbe s).live := by rw [hf]
  have hreach : reachesRegulator (v.modP fun p => { p with probeAt := none, phase := .mainRail }) .main = true := by
    have hab : sidebandAbsent v = false := (on_of_live hlive).trans habsent
    have hsi : v.power.silentRails = [] := by rw [hf]; rfl
    have htap : v.tap.extest = false := by rw [hf]; exact hx
    change (!sidebandAbsent v && !v.power.silentRails.contains .main && !v.tap.extest) = true
    simp [hab, hsi, htap]
  obtain ⟨hop, hvout⟩ := main_step hreach
  have hend := startStep_frame .main (v.modP fun p => { p with probeAt := none, phase := .mainRail })
  refine ⟨(startStep_live _ _).trans hlive, ?_, ?_, ?_, ?_, ?_, ?_, hop, hvout⟩
  · rw [hend, State.modP, hf]; rfl
  · rw [hend, State.modP, hf]; rfl
  · rw [hend, State.modP, hf]; rfl
  · rw [hend, State.modP, hf]; rfl
  · rw [hend]
  · rw [hend]; rfl

/-- The wafer when its wake's probe begins. -/
structure Begun (l : List WakeSource) (s t : State) : Prop where
  pwr : pwrState t = 1
  causes : ∀ w ∈ l, t.on pgMpwr (causeField w) = true
  power : t.power = { s.power with heldWakes := [] }
  tap : t.tap = s.tap
  port : t.port = s.port
  pins : t.pins = s.pins

theorem begun_wakeBegun (l : List WakeSource) (s : State) : Begun l s (wakeBegun (causesSet l s)) := by
  have h := steady_wakeBegun (causesSet l s)
  have hcauses := setCauses_frame l (s.modP fun p => { p with heldWakes := [] })
  refine ⟨h.pwrState.trans ?_, fun w hw => ?_, h.power.trans (power_causesSet l s), h.tap.trans ?_, h.port.trans ?_, h.pins.trans ?_⟩
  · exact (get_of_word (word_set_other _ _ (by decide))).trans
      ((get_of_word (word_set_other _ _ (by decide))).trans (pwrState_set 1 (by decide) _))
  · have hoff : pgMpwr + (causeField w).off = 0x4080 := by rw [(causeField_place w).1]; rfl
    refine (on_of_word (s := causesSet l s) ?_).trans (on_setCauses hw _)
    rw [hoff, h.word _ (by decide) (by decide)]
    exact (word_set_other _ _ (by decide)).trans ((word_set_other _ _ (by decide)).trans (word_set_other _ _ (by decide)))
  all_goals
    rw [wakeMarked, causesSet, hcauses]
    rfl

theorem woken_wakes {l : List WakeSource} (hx : s.tap.extest = false) (hm : s.power.moorPending = none)
    (h : s.on pgDmap DMAP.MAP_STATUS_MAP_LOST = false) : Woken l s (startWake l [] s) := by
  obtain ⟨hpwr, hcauses, hpow, htap, hport, hpins⟩ := begun_wakeBegun l s
  rw [startWake_wakes [] h]
  generalize wakeBegun (causesSet l s) = b at *
  have hend := mainStepped_startProbe (s := b.modP fun p => { p with phase := .probing }) rfl
    (by rw [State.modP, hpow]; exact hm) (by rw [State.modP, htap]; exact hx)
  generalize startProbe [] (b.modP fun p => { p with phase := .probing }) = t at hend ⊢
  have hword : ∀ a, a ≠ 0x406C → t.word a = b.word a := fun a ha => by
    rw [State.word, hend.live]
    exact (word_set_other _ _ ha).trans (word_set_other _ _ ha)
  refine ⟨fun w hw => (on_of_word (hword _ ?_)).trans (hcauses w hw), fun h' => absurd h' (by simp [h]),
    fun _ => ⟨(get_of_word (hword _ (by decide))).trans hpwr, hend.step, hend.phase, hend.on, hend.vout⟩,
    hend.port.trans hport, hend.pins.trans hpins, hend.held.trans ?_, hend.alarm.trans ?_⟩
  · rw [(causeField_place w).1]
    decide
  · rw [State.modP, hpow]
  · rw [State.modP, hpow]

/-- A wake of a moored wafer whose regulators all answer. -/
theorem startWake_woken (l : List WakeSource) (hp : pwrState s = 0) (hx : s.tap.extest = false) (hm : s.power.moorPending = none) :
    Woken l s (startWake l [] s) := by
  cases h : s.on pgDmap DMAP.MAP_STATUS_MAP_LOST with
  | true => exact woken_lost hp h
  | false => exact woken_wakes hx hm h

theorem wakeArrives_moored (w : WakeSource) (probe : ProbeAnswers) (hp : pwrState s = 0) (hr : s.pins.resetN = true)
    (hx : s.tap.extest = false) : wakeArrives w probe s = startWake [w] probe s := by
  unfold wakeArrives
  simp only [hp, hr, hx, Bool.not_true, Bool.or_self, Bool.false_eq_true, if_false]

/-! ### The obligation -/

theorem wakeN_wakes (hmo : moored s = true) (hx : s.tap.extest = false) (hm : s.power.moorPending = none) (hr : s.pins.resetN = true) :
    ∃ s', exec (.wakeN []) s = .next s' ∧ Woken [.pin] { s with pins := { s.pins with wakeN := false } } s' := by
  have hexec : exec (.wakeN []) s = .next (startWake [.pin] [] { s with pins := { s.pins with wakeN := false } }) := by
    change execWakeN [] s = _
    rw [execWakeN, ifStandby_on (standby_of_moored hmo), if_neg (by simp [hx])]
    exact congrArg _ (wakeArrives_moored .pin [] (pwrState_of_moored hmo) hr hx)
  exact ⟨_, hexec, startWake_woken _ (pwrState_of_moored hmo) hx hm⟩

theorem wakeFrame_wakes (tag : Byte) (hmo : moored s = true) (hx : s.tap.extest = false) (hm : s.power.moorPending = none)
    (hr : s.pins.resetN = true) (hc : s.port.cmd = none) :
    ∃ s', exec (.wake tag []) s = .next s' ∧ Woken [.spi] (takeCommand tag (.answer 0) 4 s) s' := by
  have hexec : exec (.wake tag []) s = .next (startWake [.spi] [] (takeCommand tag (.answer 0) 4 s)) := by
    change execWake tag [] s = _
    rw [execWake, ifFree, portOpen, standby_of_moored hmo, hx, hc]
    exact congrArg Host.Outcome.next (wakeArrives_moored (s := takeCommand tag (.answer 0) 4 s) .spi [] (pwrState_of_moored hmo) hr hx)
  exact ⟨_, hexec, startWake_woken (s := takeCommand tag (.answer 0) 4 s) _ (pwrState_of_moored hmo) hx hm⟩

/-- The fired alarm is taken. -/
abbrev alarmTaken (s : State) : State := s.modP fun p => { p with alarmDue := false }

theorem rtcAlarm_wakes (hmo : moored s = true) (hx : s.tap.extest = false) (hm : s.power.moorPending = none)
    (hr : s.pins.resetN = true) (ha : s.power.alarmDue = true) :
    ∃ s', exec (.rtcAlarm []) s = .next s' ∧ Woken [.rtc] (alarmTaken s) s' := by
  have hexec : exec (.rtcAlarm []) s = .next (startWake [.rtc] [] (alarmTaken s)) := by
    change execRtcAlarm [] s = _
    rw [execRtcAlarm, ifStandby_on (standby_of_moored hmo), if_pos ha]
    exact congrArg Host.Outcome.next (wakeArrives_moored (s := alarmTaken s) .rtc [] (pwrState_of_moored hmo) hr hx)
  exact ⟨_, hexec, startWake_woken (s := alarmTaken s) _ (pwrState_of_moored hmo) hx hm⟩

theorem rtcAlarm_idle (hs : s.power.standby = true) (ha : s.power.alarmDue = false) (probe : ProbeAnswers) :
    exec (.rtcAlarm probe) s = .next s := by
  change execRtcAlarm probe s = _
  rw [execRtcAlarm, ifStandby_on hs, if_neg (by simp [ha])]

theorem resetNRise_wakes (hmo : moored s = true) (hx : s.tap.extest = false) (hm : s.power.moorPending = none)
    (hh : s.power.heldWakes ≠ []) : ∃ s', exec (.resetNRise []) s = .next s' ∧
      Woken s.power.heldWakes { s with pins := { s.pins with resetN := true } } s' := by
  have hexec : exec (.resetNRise []) s = .next (startWake s.power.heldWakes [] { s with pins := { s.pins with resetN := true } }) := by
    change execResetNRise [] s = _
    rw [execResetNRise, ifStandby_on (standby_of_moored hmo), actHeld]
    refine congrArg Host.Outcome.next (if_pos ?_)
    have hmo' : moored { s with pins := { s.pins with resetN := true } } = true := hmo
    simp [hmo', hx, hh]
  exact ⟨_, hexec, startWake_woken (s := { s with pins := { s.pins with resetN := true } }) _ (pwrState_of_moored hmo) hx hm⟩

/-- Settles O44: every source of a moored wafer comes to one function, which records it and starts the wake unless the map is lost. -/
theorem wakeSourcesStartAWake : Obligations.WakeSourcesStartAWake := by
  intro s tag hmo hx hm
  refine ⟨fun hr => ⟨?_, fun hc => ?_, fun ha => ?_, rtcAlarm_idle (standby_of_moored hmo)⟩, fun hh => ?_⟩
  · obtain ⟨s', he, hw⟩ := wakeN_wakes hmo hx hm hr
    exact ⟨s', he, hw.causes, hw.lost, hw.wakes⟩
  · obtain ⟨s', he, hw⟩ := wakeFrame_wakes tag hmo hx hm hr hc
    exact ⟨s', he, ⟨hw.causes, hw.lost, hw.wakes⟩, by rw [hw.port]; rfl, by rw [hw.port]; rfl⟩
  · obtain ⟨s', he, hw⟩ := rtcAlarm_wakes hmo hx hm hr ha
    exact ⟨s', he, ⟨hw.causes, hw.lost, hw.wakes⟩, hw.alarm⟩
  · obtain ⟨s', he, hw⟩ := resetNRise_wakes hmo hx hm hh
    exact ⟨s', he, ⟨hw.causes, hw.lost, hw.wakes⟩, by rw [hw.pins], hw.held⟩

end Sys2Proof.Machine
end

section
namespace Sys2Proof.Machine
open Sys2Proof

variable {P : State → Prop} {s s0 t u : State} {q r : Rail} {n : Nat}

/-! ## The rails of a mooring -/

/-- The register that shows a rail on; the Mast main rail has none and is switched off in any case. -/
def shownOn (s : State) : Rail → Bool
  | .field f => fieldRail s f.val
  | .landing k => landingRail s k.val
  | .main => true

/-- One rail's part of a mooring. -/
def offStep (s : State) (r : Rail) : State :=
  if shownOn s r || s.power.railStep == some r then switchOff r 0x40 s else s

/-- The rails in the order of R136. -/
def moorOrder : List Rail :=
  ((List.range 12).map fun i => railAt (56 + (11 - i))) ++ (((List.range 56).map fun i => railAt (55 - i)) ++ [.main])

theorem foldl_congr_mem {α : Type} {g g' : State → α → State} {l : List α} (h : ∀ t, ∀ a ∈ l, g t a = g' t a) (s : State) :
    l.foldl g s = l.foldl g' s := by
  induction l generalizing s with
  | nil => rfl
  | cons a l ih =>
    rw [List.foldl_cons, List.foldl_cons, h s a List.mem_cons_self]
    exact ih (fun t b hb => h t b (List.mem_cons_of_mem _ hb)) _

theorem shownOn_railAt_landing {k : Nat} (hk : k < 12) (s : State) : shownOn s (railAt (56 + k)) = landingRail s k := by
  rw [railAt_landing ⟨k, hk⟩]
  rfl

theorem shownOn_railAt_field {f : Nat} (hf : f < 56) (s : State) : shownOn s (railAt f) = fieldRail s f := by
  rw [railAt_field ⟨f, hf⟩]
  rfl

theorem railsOff_eq (s : State) : railsOff s = moorOrder.foldl offStep s := by
  rw [moorOrder, List.foldl_append, List.foldl_append, List.foldl_map, List.foldl_map]
  have hl : ∀ u : State, (List.range 12).foldl (fun t i => offStep t (railAt (56 + (11 - i)))) u = (List.range 12).foldl (fun s i =>
      if landingRail s (11 - i) || s.power.railStep == some (railAt (56 + (11 - i))) then switchOff (railAt (56 + (11 - i))) 0x40 s
      else s) u := foldl_congr_mem fun t i _ => by rw [offStep, shownOn_railAt_landing (by omega)]
  have hf : ∀ u : State, (List.range 56).foldl (fun t i => offStep t (railAt (55 - i))) u = (List.range 56).foldl (fun s i =>
      if fieldRail s (55 - i) || s.power.railStep == some (railAt (55 - i)) then switchOff (railAt (55 - i)) 0x40 s else s) u :=
    foldl_congr_mem fun t i _ => by rw [offStep, shownOn_railAt_field (by omega)]
  rw [hl, hf]
  rfl

theorem mem_moorOrder (r : Rail) : r ∈ moorOrder := by
  simp only [moorOrder, List.mem_append, List.mem_map, List.mem_range, List.mem_singleton]
  cases r with
  | field f => exact .inr (.inl ⟨55 - f.val, by omega, by rw [show 55 - (55 - f.val) = f.val by omega, railAt_field]⟩)
  | landing k => exact .inl ⟨11 - k.val, by omega, by rw [show 11 - (11 - k.val) = k.val by omega, railAt_landing]⟩
  | main => exact .inr (.inr rfl)

/-! ### What the writes leave -/

theorem offs_offStep (s : State) (r : Rail) : Offs s (offStep s r) := by
  unfold offStep
  split
  · exact offs_switchOff r _ s
  · exact .refl s

theorem offs_railsOff (s : State) : Offs s (railsOff s) := by
  rw [railsOff_eq]
  exact keeps_foldl (P := Offs s) (fun u r _ hu => hu.trans (offs_offStep u r)) (.refl s)

/-- With nothing waiting, a rail's part of a mooring is its write or nothing. -/
theorem offStep_of_free (hw : s.power.pmbWaits = []) (r : Rail) :
    offStep s r = if (shownOn s r || s.power.railStep == some r) && reachesRegulator s r then railOff r 0x40 s else s := by
  have hwait : waitsFor s r = false := by simp [waitsFor, hw]
  unfold offStep
  cases hr : reachesRegulator s r with
  | true => rw [Bool.and_true, switchOff_of_reached 0x40 hr hwait]
  | false => simp [switchOff_of_unreached 0x40 hr]

theorem pmbWaits_offStep (hw : s.power.pmbWaits = []) (r : Rail) : (offStep s r).power.pmbWaits = [] := by
  rw [offStep_of_free hw]
  split
  · rw [pmbWaits_railOff, hw]
  · exact hw

theorem shownOn_railOff (q : Rail) (s : State) (hr : r ≠ .main) : shownOn (railOff q 0x40 s) r = (shownOn s r && !decide (q = r)) := by
  cases r with
  | field f => exact fieldRail_railOff q 0x40 s f
  | landing k => exact landingRail_railOff q 0x40 s k
  | main => exact absurd rfl hr

theorem shownOn_offStep (hw : s.power.pmbWaits = []) (hr : r ≠ .main) (q : Rail) :
    shownOn (offStep s q) r = (shownOn s r && !(decide (q = r) && reachesRegulator s r)) := by
  rw [offStep_of_free hw]
  by_cases hq : q = r
  · subst hq
    split
    · next h =>
      obtain ⟨-, hreach⟩ := Bool.and_eq_true_iff.1 h
      simp [shownOn_railOff q s hr, hreach]
    · next h =>
      cases hon : shownOn s q <;> cases hreach : reachesRegulator s q <;> simp [hon, hreach] at h ⊢
  · split
    · simp [shownOn_railOff q s hr, hq]
    · simp [hq]

/-- With nothing waiting, the rails that stay on are those whose regulator is sent nothing. -/
theorem shownOn_offSteps {l : List Rail} (hw : s.power.pmbWaits = []) (hr : r ≠ .main) :
    shownOn (l.foldl offStep s) r = (shownOn s r && !(decide (r ∈ l) && reachesRegulator s r)) := by
  induction l generalizing s with
  | nil => simp
  | cons q l ih =>
    rw [List.foldl_cons, ih (pmbWaits_offStep hw q), shownOn_offStep hw hr, (offs_offStep s q).reaches]
    by_cases hq : q = r
    · subst hq
      cases reachesRegulator s q <;> simp
    · simp [hq, Ne.symm hq]

theorem pmbWaits_railsOff (hw : s.power.pmbWaits = []) : (railsOff s).power.pmbWaits = [] := by
  rw [railsOff_eq]
  exact keeps_foldl (P := fun u => u.power.pmbWaits = []) (fun u r _ hu => pmbWaits_offStep hu r) hw

theorem shownOn_railsOff (hw : s.power.pmbWaits = []) (hr : r ≠ .main) :
    shownOn (railsOff s) r = (shownOn s r && !reachesRegulator s r) := by
  rw [railsOff_eq, shownOn_offSteps hw hr]
  simp [mem_moorOrder r]

/-! ### What was written -/

/-- The last write of OPERATION to a rail's regulator. -/
def written (s : State) (r : Rail) : Nat := lookup 0 s.power.operation (railIx r)

theorem written_railOff (q : Rail) (s : State) (hq : reachesRegulator s q = true) :
    written (railOff q 0x40 s) r = if q = r then 0x40 else written s r := by
  split
  · next h =>
    subst h
    exact lookup_operation_railOff 0 0x40 hq
  · next h =>
    have hop : (railOff q 0x40 s).power.operation = insert (railIx q) 0x40 s.power.operation := by
      have hstep : (operation q 0x40 s).power.operation = insert (railIx q) 0x40 s.power.operation := by
        rw [operation, if_pos hq]
        rfl
      cases q with
      | field f => exact (congrArg PowerSt.operation setBit2_power).trans hstep
      | landing k => exact hstep
      | main => exact hstep
    rw [written, hop]
    exact lookup_insert_other _ _ _ fun hix => h (railIx_injective hix.symm)

/-- A rail that is on, or has been switched off, while nothing waits and its regulator is reached. -/
structure OnOrOff (r : Rail) (s : State) : Prop where
  free : s.power.pmbWaits = []
  reached : reachesRegulator s r = true
  state : shownOn s r = true ∨ written s r = 0x40

/-- A rail that has been switched off. -/
structure WrittenOff (r : Rail) (s : State) : Prop where
  free : s.power.pmbWaits = []
  reached : reachesRegulator s r = true
  off : written s r = 0x40

theorem writtenOff_offStep (h : WrittenOff r s) (q : Rail) : WrittenOff r (offStep s q) := by
  refine ⟨pmbWaits_offStep h.free q, ((offs_offStep s q).reaches r).trans h.reached, ?_⟩
  rw [offStep_of_free h.free]
  split
  · next hq =>
    rw [written_railOff q s (Bool.and_eq_true_iff.1 hq).2]
    split
    · rfl
    · exact h.off
  · exact h.off

theorem writtenOff_offStep_same (h : OnOrOff r s) : WrittenOff r (offStep s r) := by
  obtain hoff | hon := h.state.symm
  · exact writtenOff_offStep ⟨h.free, h.reached, hoff⟩ r
  · refine ⟨pmbWaits_offStep h.free r, ((offs_offStep s r).reaches r).trans h.reached, ?_⟩
    rw [offStep_of_free h.free, hon, h.reached]
    exact (written_railOff r s h.reached).trans (if_pos rfl)

theorem onOrOff_offStep (h : OnOrOff r s) (q : Rail) : OnOrOff r (offStep s q) := by
  refine ⟨pmbWaits_offStep h.free q, ((offs_offStep s q).reaches r).trans h.reached, ?_⟩
  by_cases hq : q = r
  · exact .inr (hq ▸ (writtenOff_offStep_same h).off)
  · obtain hoff | hon := h.state.symm
    · exact .inr (writtenOff_offStep ⟨h.free, h.reached, hoff⟩ q).off
    · refine .inl ?_
      cases r with
      | main => rfl
      | field f => rw [shownOn_offStep h.free (by simp), hon, decide_eq_false hq]; rfl
      | landing k => rw [shownOn_offStep h.free (by simp), hon, decide_eq_false hq]; rfl

theorem written_railsOff (hw : s.power.pmbWaits = []) (hr : reachesRegulator s r = true) (hon : shownOn s r = true) :
    written (railsOff s) r = 0x40 := by
  rw [railsOff_eq]
  exact (foldl_establishes (P := WrittenOff r) (Q := OnOrOff r) (mem_moorOrder r) (fun u hu => writtenOff_offStep_same hu)
    (fun u q _ hu => onOrOff_offStep hu q) (fun u q _ hu => writtenOff_offStep hu q) ⟨hw, hr, .inl hon⟩).off

end Sys2Proof.Machine
end

section
namespace Sys2Proof.Machine
open Sys2Proof

variable {P : State → Prop} {s s0 t u : State} {r : Rail} {c : MoorCause}

/-! ## Mooring -/

/-- The rails written off by a mooring. -/
def moorSwitched (s : State) : State := railsOff (stopFlash (s.set pgMpwr MPWR.PWR_STATE_STATE 3))

/-- The power state of a mooring whose writes may still wait. -/
def mooringPower (c : MoorCause) (lost : Bool) (p : PowerSt) : PowerSt :=
  { p with phase := .none, railStep := none, railQueue := [], probeAt := none, moorPending := none
           leaving := [], pmbWaits := p.pmbWaits.filter PmbWait.off, mooring := some (c, lost) }

/-- The clock stopped. -/
def clockStopped (s : State) : State := (s.set pgMpwr MPWR.PLL_STATUS_LOCKED 0).set pgMpwr MPWR.PLL_STATUS_DISTRIBUTING 0

/-- The map's registers of a wafer that moors. -/
def mapShown (s : State) : State := mapRegs (s.set pgDmap DMAP.SERVICE_EOS_NOW (s.get pgDmap DMAP.MAP_STATUS_MAP_FULL))

/-- The wafer as a mooring leaves it before its end. -/
def moorLeft (c : MoorCause) (lost : Bool) (s : State) : State :=
  mapShown (mainGone (clockStopped ((moorSwitched s).modP (mooringPower c lost))))

theorem moorNow_eq (c : MoorCause) (s : State) : moorNow c s = moorEnd (moorLeft c (awake s && !cseqStopped s) s) := rfl

/-! ### The rails written off -/

theorem word_stopFlash (s : State) (a : Nat) : (stopFlash s).word a = s.word a := by rw [State.word, State.word, (stopFlash_frame s).1]

theorem stopFlash_rest (s : State) : (stopFlash s).power = s.power ∧ (stopFlash s).tap = s.tap ∧ (stopFlash s).port = s.port ∧
    (stopFlash s).pins = s.pins := by
  have h : stopFlash s = { s with map := (stopFlash s).map } := onlyMap_stopFlash s
  rw [h]
  exact ⟨rfl, rfl, rfl, rfl⟩

/-- The wafer when its rails are written off. -/
abbrev moorBegun (s : State) : State := stopFlash (s.set pgMpwr MPWR.PWR_STATE_STATE 3)

theorem word_moorBegun (s : State) {a : Nat} (h : a ≠ 0x4040) : (moorBegun s).word a = s.word a :=
  (word_stopFlash _ a).trans (word_set_other s 3 h)

theorem power_moorBegun (s : State) : (moorBegun s).power = s.power := (stopFlash_rest _).1

theorem reaches_moorBegun (s : State) (r : Rail) : reachesRegulator (moorBegun s) r = reachesRegulator s r :=
  reaches_of_word (word_moorBegun s (by decide)) (power_moorBegun s) (stopFlash_rest _).2.1 r

theorem shownOn_of_words {r : Rail} (h : ∀ a, 0x4050 ≤ a → a < 0x406C → t.word a = s.word a) : shownOn t r = shownOn s r := by
  cases r with
  | field f => exact bit2_of_word (h _ (by decide) (by decide)) (h _ (by decide) (by decide))
  | landing k => exact congrArg (bitAt · k.val) (get_of_word (h _ (by decide) (by decide)))
  | main => rfl

theorem shownOn_moorBegun (s : State) (r : Rail) : shownOn (moorBegun s) r = shownOn s r :=
  shownOn_of_words fun a h _ => word_moorBegun s (by omega)

theorem pwrState_moorSwitched (s : State) : pwrState (moorSwitched s) = 3 :=
  (get_of_word ((offs_railsOff _).word _ (by decide))).trans
    ((get_of_word (word_stopFlash _ _)).trans (pwrState_set 3 (by decide) s))

theorem moorSwitched_rest (s : State) : (moorSwitched s).port = s.port ∧ (moorSwitched s).pins = s.pins := by
  obtain ⟨-, -, hport, hpins⟩ := stopFlash_rest (s.set pgMpwr MPWR.PWR_STATE_STATE 3)
  have h : moorSwitched s = _ := (offs_railsOff (moorBegun s)).rest
  rw [h]
  exact ⟨hport, hpins⟩

/-! ### What a mooring leaves before its end -/

theorem steady_mapShown (s : State) : Steady s (mapShown s) := steady_mapRegs (steady_setDmap (.refl s))

theorem mapShown_rest (s : State) : (mapShown s).m = s.m ∧ (mapShown s).shadow = s.shadow := by
  unfold mapShown mapRegs showRecord
  exact ⟨rfl, rfl⟩

theorem word_mapShown_outside {a : Nat} (ha : standbyPage a = false) (s : State) : (mapShown s).word a = s.word a := by
  have hne : ∀ F : Fld, F.off < 0x1000 → a ≠ pgDmap + F.off := fun F hF h => by
    have hp : pgDmap = 0x8000 := rfl
    rw [standbyPage_low (by omega)] at ha
    exact absurd ha (by decide)
  unfold mapShown mapRegs showRecord
  iterate 8 rw [word_set_other _ _ (hne _ (by decide))]

theorem power_moorLeft (c : MoorCause) (lost : Bool) (s : State) : (moorLeft c lost s).power = mooringPower c lost (moorSwitched s).power :=
  (steady_mapShown _).power

theorem m_moorLeft (c : MoorCause) (lost : Bool) (s : State) : (moorLeft c lost s).m = MainSt.reset := (mapShown_rest _).1

theorem moorLeft_outside (c : MoorCause) (lost : Bool) (s : State) {a : Nat} (ha : standbyPage a = false) :
    (moorLeft c lost s).word a = resetWord a ∧ (moorLeft c lost s).shadowWord a = resetWord a := by
  refine ⟨(word_mapShown_outside ha _).trans (word_mainGone_outside _ ha), ?_⟩
  rw [State.shadowWord, moorLeft, (mapShown_rest _).2]
  exact shadow_mainGone_outside _ ha

theorem word_moorLeft (c : MoorCause) (lost : Bool) (s : State) {a : Nat} (h : 0x4000 ≤ a) (h' : a < 0x5000) :
    (moorLeft c lost s).word a = (clockStopped ((moorSwitched s).modP (mooringPower c lost))).word a :=
  ((steady_mapShown _).word a h h').trans (word_mainGone_standby _ (standbyPage_low (by omega)))

theorem word_moorLeft_other (c : MoorCause) (lost : Bool) (s : State) {a : Nat} (h : 0x4000 ≤ a) (h' : a < 0x5000) (hne : a ≠ 0x408C) :
    (moorLeft c lost s).word a = (moorSwitched s).word a :=
  (word_moorLeft c lost s h h').trans ((word_set_other _ _ hne).trans (word_set_other _ _ hne))

theorem clocked_moorLeft (c : MoorCause) (lost : Bool) (s : State) : clocked (moorLeft c lost s) = false :=
  (on_of_word (word_moorLeft c lost s (by decide) (by decide))).trans (on_set_zero _ _ _ (by decide))

theorem moorLeft_rest (c : MoorCause) (lost : Bool) (s : State) :
    (moorLeft c lost s).port = s.port ∧ (moorLeft c lost s).pins = s.pins := by
  obtain ⟨hport, hpins⟩ := moorSwitched_rest s
  exact ⟨(steady_mapShown _).port.trans hport, (steady_mapShown _).pins.trans hpins⟩

/-! ### The end of a mooring -/

/-- A step at the end of a mooring: events, and what the power state remembers of it. -/
structure Ended (s t : State) : Prop where
  word : ∀ a, 0x4000 ≤ a → a < 0x5000 → a ≠ 0x4040 → t.word a = s.word a
  outside : ∀ a, standbyPage a = false → t.word a = s.word a
  shadow : t.shadow = s.shadow
  m : t.m = s.m
  port : t.port = s.port
  pins : t.pins = s.pins
  operation : t.power.operation = s.power.operation

theorem Ended.refl (s : State) : Ended s s := ⟨fun _ _ _ _ => rfl, fun _ _ => rfl, rfl, rfl, rfl, rfl, rfl⟩

theorem Ended.trans (h : Ended s t) (g : Ended t u) : Ended s u :=
  ⟨fun a h1 h2 h3 => (g.word a h1 h2 h3).trans (h.word a h1 h2 h3), fun a ha => (g.outside a ha).trans (h.outside a ha),
    g.shadow.trans h.shadow, g.m.trans h.m, g.port.trans h.port, g.pins.trans h.pins, g.operation.trans h.operation⟩

theorem ended_raiseEvent (e : Event) (s : State) : Ended s (raiseEvent e s) := by
  have h : Steady s (raiseEvent e s) := steady_raiseEvent (.refl s)
  exact ⟨fun a h1 h2 _ => h.word a h1 h2, fun a ha => unlogged_raiseEvent (unlogged_outside ha _) e rfl,
    lingers_raiseEvent (lingers_shadow _) e (.inl rfl), raiseEvent_m e s, h.port, h.pins, by rw [h.power]⟩

theorem ended_flushRepeat (s : State) : Ended s (flushRepeat s) := by
  have h : Steady s (flushRepeat s) := steady_flushRepeat (.refl s)
  exact ⟨fun a h1 h2 _ => h.word a h1 h2, fun a ha => unlogged_flushRepeat (unlogged_outside ha _) rfl,
    lingers_flushRepeat (lingers_shadow _) rfl, lingers_flushRepeat (lingers_m _) rfl, h.port, h.pins, by rw [h.power]⟩

theorem ended_resetLogged (s : State) : Ended s (resetLogged s) :=
  keeps_resetLogged (P := Ended s) (fun _ _ h => h.trans ⟨fun _ _ _ _ => rfl, fun _ _ => rfl, rfl, rfl, rfl, rfl, rfl⟩)
    (fun e u h => h.trans (ended_raiseEvent e u)) (.refl s)

theorem ended_moorDone (c : MoorCause) (lost : Bool) (s : State) : Ended s (moorDone c lost s) := by
  have h1 : Ended s (s.modP fun p => { p with mooring := none }) := ⟨fun _ _ _ _ => rfl, fun _ _ => rfl, rfl, rfl, rfl, rfl, rfl⟩
  refine ((h1.trans (ended_raiseEvent _ _)).trans (ended_flushRepeat _)).trans
    ⟨fun a _ _ hne => word_set_other _ _ hne, fun a ha => word_set_other _ _ ?_, rfl, rfl, rfl, rfl, rfl⟩
  rintro rfl
  exact absurd ha (by rw [standbyPage_low (by decide)]; decide)

theorem ended_moorEnd (s : State) : Ended s (moorEnd s) := by
  by_cases hw : s.power.pmbWaits = []
  · cases hm : s.power.mooring with
    | none => rw [moorEnd_none hm]; exact .refl s
    | some x =>
      rw [moorEnd_some hm hw]
      exact (ended_moorDone x.1 x.2 s).trans (ended_resetLogged _)
  · rw [moorEnd_waiting hw]
    exact .refl s

theorem pwrState_moorEnd {x : MoorCause × Bool} (hm : s.power.mooring = some x) (hw : s.power.pmbWaits = []) :
    pwrState (moorEnd s) = 0 := by
  rw [moorEnd_some hm hw, (steady_resetLogged _).pwrState]
  exact pwrState_set 0 (by decide) _

/-! ### A mooring as a whole -/

/-- The wafer moored, or mooring while an off command waits. -/
structure MooredFrom (s t : State) : Prop where
  clock : clocked t = false
  m : t.m = MainSt.reset
  outside : ∀ a, standbyPage a = false → t.word a = resetWord a ∧ t.shadowWord a = resetWord a
  free : s.power.pmbWaits = [] → pwrState t = 0 ∧
    (∀ r : Rail, r ≠ .main → shownOn t r = (shownOn s r && !reachesRegulator s r)) ∧
    ∀ r : Rail, shownOn s r = true → reachesRegulator s r = true → written t r = 0x40
  waiting : (∃ w ∈ s.power.pmbWaits, w.off = true) → pwrState t = 3

theorem shownOn_moorNow (c : MoorCause) (s : State) (r : Rail) : shownOn (moorNow c s) r = shownOn (moorSwitched s) r := by
  rw [moorNow_eq]
  exact shownOn_of_words fun a h h' => ((ended_moorEnd _).word a (by omega) (by omega) (by omega)).trans
    (word_moorLeft_other _ _ s (by omega) (by omega) (by omega))

theorem written_moorNow (c : MoorCause) (s : State) (r : Rail) : written (moorNow c s) r = written (moorSwitched s) r := by
  rw [moorNow_eq, written, (ended_moorEnd _).operation, power_moorLeft]
  rfl

theorem mooredFrom_moorNow (c : MoorCause) (s : State) : MooredFrom s (moorNow c s) := by
  have hend := ended_moorEnd (moorLeft c (awake s && !cseqStopped s) s)
  have hpow := power_moorLeft c (awake s && !cseqStopped s) s
  rw [← moorNow_eq] at hend
  refine ⟨?_, hend.m.trans (m_moorLeft _ _ _), fun a ha => ?_, fun hw => ⟨?_, fun r hr => ?_, fun r hon hreach => ?_⟩,
    fun ⟨w, hw, hoff⟩ => ?_⟩
  · exact (on_of_word (hend.word _ (by decide) (by decide) (by decide))).trans (clocked_moorLeft _ _ s)
  · obtain ⟨h1, h2⟩ := moorLeft_outside c (awake s && !cseqStopped s) s ha
    exact ⟨(hend.outside a ha).trans h1, by rw [State.shadowWord, hend.shadow]; exact h2⟩
  · have hfree : (moorSwitched s).power.pmbWaits = [] := pmbWaits_railsOff (by rw [power_moorBegun]; exact hw)
    rw [moorNow_eq]
    exact pwrState_moorEnd (by rw [hpow]; rfl) (by rw [hpow, mooringPower, hfree]; rfl)
  · rw [shownOn_moorNow, moorSwitched, shownOn_railsOff (by rw [power_moorBegun]; exact hw) hr, shownOn_moorBegun, reaches_moorBegun]
  · rw [written_moorNow]
    exact written_railsOff (by rw [power_moorBegun]; exact hw) ((reaches_moorBegun s r).trans hreach) ((shownOn_moorBegun s r).trans hon)
  · have hmem : w ∈ (moorSwitched s).power.pmbWaits := (offs_railsOff (moorBegun s)).waits (by rw [power_moorBegun]; exact hw)
    have hwaits : (moorLeft c (awake s && !cseqStopped s) s).power.pmbWaits ≠ [] := by
      rw [hpow]
      exact List.ne_nil_of_mem (List.mem_filter.2 ⟨hmem, hoff⟩)
    rw [moorNow_eq, moorEnd_waiting hwaits]
    exact (get_of_word (word_moorLeft_other _ _ s (by decide) (by decide) (by decide))).trans (pwrState_moorSwitched s)

theorem moorNow_rest (c : MoorCause) (s : State) : (moorNow c s).port = s.port ∧ (moorNow c s).pins = s.pins := by
  obtain ⟨hport, hpins⟩ := moorLeft_rest c (awake s && !cseqStopped s) s
  rw [moorNow_eq]
  exact ⟨(ended_moorEnd _).port.trans hport, (ended_moorEnd _).pins.trans hpins⟩

/-- The RESET event that may follow changes none of it. -/
theorem MooredFrom.resetLogged (h : MooredFrom s t) : MooredFrom s (resetLogged t) := by
  have hend := ended_resetLogged t
  have hst := steady_resetLogged t
  have hshown : ∀ r, shownOn (Machine.resetLogged t) r = shownOn t r := fun r =>
    shownOn_of_words fun a h1 h2 => hend.word a (by omega) (by omega) (by omega)
  refine ⟨hst.clocked.trans h.clock, hend.m.trans h.m, fun a ha => ?_, fun hw => ?_, fun hw => hst.pwrState.trans (h.waiting hw)⟩
  · obtain ⟨h1, h2⟩ := h.outside a ha
    exact ⟨(hend.outside a ha).trans h1, by rw [State.shadowWord, hend.shadow]; exact h2⟩
  · obtain ⟨h1, h2, h3⟩ := h.free hw
    refine ⟨hst.pwrState.trans h1, fun r hr => (hshown r).trans (h2 r hr), fun r hon hreach => ?_⟩
    rw [written, hend.operation]
    exact h3 r hon hreach

/-- A mooring from a state that shows the same of its rails. -/
theorem MooredFrom.congr {v : State} (h : MooredFrom v t) (hw : ∀ a, 0x4000 ≤ a → a < 0x5000 → v.word a = s.word a)
    (hwaits : v.power.pmbWaits = s.power.pmbWaits) (hreach : ∀ r, reachesRegulator v r = reachesRegulator s r) : MooredFrom s t := by
  have hshown : ∀ r, shownOn v r = shownOn s r := fun r => shownOn_of_words fun a h1 h2 => hw a (by omega) (by omega)
  refine ⟨h.clock, h.m, h.outside, fun hfree => ?_, fun hx => h.waiting (hwaits ▸ hx)⟩
  obtain ⟨h1, h2, h3⟩ := h.free (hwaits.trans hfree)
  exact ⟨h1, fun r hr => by rw [h2 r hr, hshown, hreach], fun r hon hr => h3 r ((hshown r).trans hon) ((hreach r).trans hr)⟩

/-! ## The three requests -/

theorem requestMoor_awake (c : MoorCause) (hp : pwrState s = 2) : requestMoor c s = moorNow c s := by
  simp only [requestMoor, hp]

theorem moorReq_moors (ha : awake s = true) : exec .moorReq s = .next (moorNow .request s) := by
  change execMoorReq s = _
  rw [execMoorReq, ifStandby_on (standby_of_awake ha), requestMoor_awake _ (pwrState_of_awake ha)]

theorem moorFrame_moors (tag : Byte) (ha : awake s = true) (hx : s.tap.extest = false) (hc : s.port.cmd = none) :
    exec (.moor tag) s = .next (moorNow .request (takeCommand tag (.answer 0) 4 s)) := by
  change execMoor tag s = _
  rw [execMoor, ifFree, portOpen, standby_of_awake ha, hx, hc]
  exact congrArg Host.Outcome.next (requestMoor_awake (s := takeCommand tag (.answer 0) 4 s) .request (pwrState_of_awake ha))

/-- RESET_N seen low, with the frame that it discards. -/
def resetSeen (frame : Option Frame) (s : State) : State :=
  let s := { s with pins := { s.pins with resetN := false } }
  match frame with
  | some f => rejectFrame f 6 s
  | none => s

theorem word_resetSeen (frame : Option Frame) (s : State) {a : Nat} (h : 0x4000 ≤ a) : (resetSeen frame s).word a = s.word a := by
  unfold resetSeen
  split
  · refine word_set_other _ _ (Nat.ne_of_gt (Nat.lt_of_lt_of_le ?_ h))
    decide
  · rfl

theorem resetSeen_rest (frame : Option Frame) (s : State) : (resetSeen frame s).power = s.power ∧ (resetSeen frame s).tap = s.tap ∧
    (resetSeen frame s).pins.resetN = false := by
  unfold resetSeen
  split <;> exact ⟨rfl, rfl, rfl⟩

/-- Its event still due. -/
def resetAsked (frame : Option Frame) (s : State) : State := (resetSeen frame s).modP fun p => { p with resetDue := some frame.isSome }

theorem reaches_resetAsked (frame : Option Frame) (s : State) (r : Rail) :
    reachesRegulator (resetAsked frame s) r = reachesRegulator s r := by
  obtain ⟨hpow, htap, -⟩ := resetSeen_rest frame s
  have hword : sidebandAbsent (resetAsked frame s) = sidebandAbsent s := on_of_word (word_resetSeen frame s (by decide))
  rw [reachesRegulator, reachesRegulator, hword]
  change (!sidebandAbsent s && !(resetSeen frame s).power.silentRails.contains r && !(resetSeen frame s).tap.extest) = _
  rw [hpow, htap]

theorem pmbWaits_resetAsked (frame : Option Frame) (s : State) : (resetAsked frame s).power.pmbWaits = s.power.pmbWaits := by
  change (resetSeen frame s).power.pmbWaits = _
  rw [(resetSeen_rest frame s).1]

theorem pwrState_resetAsked (frame : Option Frame) (s : State) : pwrState (resetAsked frame s) = pwrState s :=
  get_of_word (word_resetSeen frame s (by decide))

theorem resetN_moors (frame : Option Frame) (ha : awake s = true) (hx : s.tap.extest = false) : exec (.resetN frame) s =
    .next (if moored (moorNow .reset (resetAsked frame s)) then resetLogged (moorNow .reset (resetAsked frame s))
      else moorNow .reset (resetAsked frame s)) := by
  rw [← requestMoor_awake .reset ((pwrState_resetAsked frame s).trans (pwrState_of_awake ha))]
  change execResetN frame s = _
  rw [execResetN, ifStandby_on (standby_of_awake ha), if_neg (by simp [hx])]
  rfl

/-- What all three leave. -/
theorem moorings (tag : Byte) (frame : Option Frame) (ha : awake s = true) (hx : s.tap.extest = false) {i : Instr}
    (hi : i ∈ [Instr.moorReq, .moor tag, .resetN frame]) (hc : i = .moor tag → s.port.cmd = none) :
    ∃ s', exec i s = .next s' ∧ MooredFrom s s' ∧
      (i = .moor tag → s'.port.cmd = some (.answer 0) ∧ s'.port.lastTag = tag ∧ s'.port.lastResult = 1) ∧
      (i = .resetN frame → s'.pins.resetN = false) := by
  simp only [List.mem_cons, List.not_mem_nil, or_false] at hi
  obtain rfl | rfl | rfl := hi
  · exact ⟨_, moorReq_moors ha, mooredFrom_moorNow _ s, nofun, nofun⟩
  · refine ⟨_, moorFrame_moors tag ha hx (hc rfl), ?_, fun _ => ?_, nofun⟩
    · exact (mooredFrom_moorNow .request (takeCommand tag (.answer 0) 4 s)).congr (fun _ _ _ => rfl) rfl fun _ => rfl
    · rw [(moorNow_rest _ _).1]
      exact ⟨rfl, rfl, rfl⟩
  · have hmoor : MooredFrom s (moorNow .reset (resetAsked frame s)) := (mooredFrom_moorNow .reset (resetAsked frame s)).congr
      (fun a h _ => word_resetSeen frame s h) (pmbWaits_resetAsked frame s) (reaches_resetAsked frame s)
    have hpin : (moorNow .reset (resetAsked frame s)).pins.resetN = false := by
      rw [(moorNow_rest _ _).2]
      exact (resetSeen_rest frame s).2.2
    refine ⟨_, resetN_moors frame ha hx, ?_, nofun, fun _ => ?_⟩
    · exact keeps_ite (P := MooredFrom s) (fun _ => hmoor.resetLogged) fun _ => hmoor
    · exact keeps_ite (P := fun u => u.pins.resetN = false) (fun _ => by rw [(ended_resetLogged _).pins, hpin]) fun _ => hpin

/-- Settles O43: the three requests of an awake wafer come to one mooring, whose writes are followed rail by rail. -/
theorem mooringLeavesTheStandbyDomain : Obligations.MooringLeavesTheStandbyDomain := by
  intro s tag frame i ha hx hi hc
  obtain ⟨s', hexec, h, hframe, hpin⟩ := moorings tag frame ha hx hi hc
  refine ⟨s', hexec, h.clock, h.m, h.outside, fun hw => ?_, h.waiting, hframe, hpin⟩
  obtain ⟨hp, hon, hoff⟩ := h.free hw
  refine ⟨hp, fun f => hon (.field f) (by simp), fun k => hon (.landing k) (by simp), fun r hr hreach => hoff r ?_ hreach⟩
  cases r with
  | field f => exact hr
  | landing k => exact hr
  | main => rfl

end Sys2Proof.Machine
end

section
namespace Sys2Proof.Machine
open Sys2Proof

/-! PROOFS. The training of a Hawser link (O58). First what a channel end keeps while other ends and the roster change (`kept_f`); then
what each step of a training attempt leaves at its end; then the commands. -/

variable {h e h' e' : Nat} {s0 s t u : State}

/-! ## What a channel end keeps -/

/-- The words of an end's page that show its link, its sequence numbers, its flow state and its counters. -/
def EndPlace (h e a : Nat) : Prop := ∃ off < 4096, (off = 0x040 ∨ 0x064 ≤ off) ∧ a = pgEnd h e + off

theorem pgEnd_mod (h e : Nat) : pgEnd h e % 4096 = 0 := by
  simp only [pgEnd, pgHaws, pageAddr]
  split <;> omega

theorem pgEnd_above (h e : Nat) : 0x4000080000 ≤ pgEnd h e := by
  simp only [pgEnd, pgHaws, pageAddr]
  split <;> omega

theorem endPlace_main (h e : Nat) : EndPlace h e ≤ MainPlace := by
  rintro _ ⟨off, -, -, rfl⟩
  exact Nat.le_add_right_of_le (pgEnd_main h e)

theorem endPlace_noSummary (h e : Nat) : EndPlace h e ≤ NoSummaryPlace := by
  rintro _ ⟨off, hlt, hoff, rfl⟩
  have hmod := pgEnd_mod h e
  have hlow := pgEnd_above h e
  refine .inr ⟨?_, .inr ?_⟩ <;> omega

theorem endPlace_noChan (h e : Nat) : EndPlace h e ≤ NoChanPlace := by
  rintro _ ⟨off, hlt, hoff, rfl⟩
  have hmod := pgEnd_mod h e
  unfold NoChanPlace
  omega

/-- A word of another page, or one of the first words of the end's page, is none of them. -/
theorem ne_of_endPlace {a p off : Nat} (hp : p % 4096 = 0) (hoff : off < 4096) (hne : pgEnd h e ≠ p ∨ off < 0x040)
    (ha : EndPlace h e a) : a ≠ p + off := by
  obtain ⟨off', hlt, hoff', rfl⟩ := ha
  have hmod := pgEnd_mod h e
  omega

/-- An end keeps those words and its state, and the clock stands. -/
structure EndKept (h e : Nat) (s t : State) : Prop where
  regs : Leaves (EndPlace h e) s t
  haw : t.haw h e = s.haw h e

theorem EndKept.refl (s : State) : EndKept h e s s := ⟨.refl s, rfl⟩

theorem EndKept.trans (h1 : EndKept h e s t) (h2 : EndKept h e t u) : EndKept h e s u :=
  ⟨h1.regs.trans h2.regs, h2.haw.trans h1.haw⟩

theorem EndKept.wtime (hk : EndKept h e s t) : t.m.wtime = s.m.wtime := hk.regs.wtime

theorem get_of_endPlace (hk : Leaves (EndPlace h e) s t) (F : Fld) (hF : F.off = 0x040 ∨ 0x064 ≤ F.off) (hlt : F.off < 4096) :
    t.get (pgEnd h e) F = s.get (pgEnd h e) F := hk.get _ F ⟨F.off, hlt, hF, rfl⟩

theorem linkState_of_endPlace (hk : Leaves (EndPlace h e) s t) : linkState t h e = linkState s h e :=
  get_of_endPlace hk _ (.inl rfl) (by decide)

theorem EndKept.link (hk : EndKept h e s t) : linkState t h e = linkState s h e := linkState_of_endPlace hk.regs

theorem EndKept.attempts (hk : EndKept h e s t) :
    t.get (pgEnd h e) HAWS.CNT_LINK_ATTEMPTS = s.get (pgEnd h e) HAWS.CNT_LINK_ATTEMPTS :=
  get_of_endPlace hk.regs _ (.inr (by decide)) (by decide)

/-! ### Another end -/

/-- Two ends with pages and states of their own. -/
structure Apart (h e h' e' : Nat) : Prop where
  page : pgEnd h e ≠ pgEnd h' e'
  key : endKey h e ≠ endKey h' e'

theorem apart_of_ne (hh : h < 68) (he : e < 96) (hh' : h' < 68) (he' : e' < 96) (hne : h ≠ h' ∨ e ≠ e') : Apart h e h' e' where
  page := by
    simp only [pgEnd, pgHaws, pageAddr]
    split <;> split <;> omega
  key := by
    simp only [endKey]
    omega

theorem stayPartner_other : ∀ f < 56, ∀ i < 4, stayPartner f i < 56 ∧ f ≠ stayPartner f i := by decide

theorem landingOf_lt : ∀ f < 56, ∀ x ∈ landingOf f, x.1 < 12 ∧ x.2 < 2 := by decide

theorem attachFields_lt : ∀ k < 12, (attachFields k).1 < 56 ∧ (attachFields k).2 < 56 := by decide

/-- An end that exists is not its own partner. -/
theorem apart_partner {h : HostId} {e : EndId} (hex : endExists h.val e.val = true) :
    Apart h.val e.val (partnerEnd h.val e.val).1 (partnerEnd h.val e.val).2 := by
  obtain ⟨h, hh⟩ := h
  obtain ⟨e, he⟩ := e
  dsimp only at hex ⊢
  suffices hp : (partnerEnd h e).1 < 68 ∧ (partnerEnd h e).2 < 96 ∧ (h ≠ (partnerEnd h e).1 ∨ e ≠ (partnerEnd h e).2) from
    apart_of_ne hh he hp.1 hp.2.1 hp.2.2
  by_cases hland : 56 ≤ h
  · have hatt := attachFields_lt (h - 56) (by omega)
    have h8 : e < 8 := by simp_all [endExists]
    simp only [partnerEnd, hland, if_true]
    split <;> dsimp only <;> omega
  · have hf : h < 56 := by omega
    simp only [partnerEnd, hland, if_false]
    split_ifs
    · dsimp only; omega
    · dsimp only; omega
    · dsimp only; omega
    · dsimp only; omega
    · have hstay := stayPartner_other h hf (e - 88) (by omega)
      dsimp only
      omega
    · cases hl : landingOf h with
      | none => simp_all [endExists]
      | some x =>
        have hx := landingOf_lt h hf x hl
        dsimp only
        omega

section Other
variable (ha : Apart h e h' e')
include ha

theorem kept_modHaw_other (g : HawEnd → HawEnd) (hs : EndKept h e s0 s) : EndKept h e s0 (s.modHaw h' e' g) :=
  hs.trans ⟨leaves_frame (.refl s) rfl rfl, haw_setHaw_other s h' e' h e _ ha.key⟩

theorem kept_setEnd_other {F : Fld} (v : Nat) (hF : F.off < 4096) (hs : EndKept h e s0 s) : EndKept h e s0 (s.set (pgEnd h' e') F v) :=
  hs.trans ⟨leaves_set v (fun _ hb => ne_of_endPlace (pgEnd_mod h' e') hF (.inl ha.page) hb) (.refl s), haw_set ..⟩

theorem kept_showHeld_other (hs : EndKept h e s0 s) : EndKept h e s0 (showHeld h' e' s) :=
  kept_setEnd_other ha _ (by decide) (kept_setEnd_other ha _ (by decide) hs)

theorem kept_sendNew_other (v : Nat) (hs : EndKept h e s0 s) : EndKept h e s0 (sendNew h' e' v s) := by
  have hnext : (nextField v).off < 4096 := by
    unfold nextField
    split <;> decide
  unfold sendNew
  split
  · exact hs
  · exact kept_showHeld_other ha (kept_modHaw_other ha _ (kept_setEnd_other ha _ (by decide)
      (kept_setEnd_other ha _ hnext (kept_modHaw_other ha _ hs))))

theorem kept_pump_other (n : Nat) (hs : EndKept h e s0 s) : EndKept h e s0 (pump h' e' n s) := by
  induction n generalizing s with
  | zero => exact hs
  | succ n ih =>
    unfold pump
    split
    · exact hs
    · exact ih (kept_sendNew_other ha _ hs)

theorem kept_replayed_other (v n : Nat) (hs : EndKept h e s0 s) : EndKept h e s0 (replayed h' e' v n s) := by
  unfold replayed
  extract_lets _ m s1
  have h1 : EndKept h e s0 s1 := keeps_ite (P := EndKept h e s0) (fun _ => hs) fun _ => kept_setEnd_other ha _ (by decide) hs
  exact kept_modHaw_other ha _ h1

theorem kept_settleEnd_other (hs : EndKept h e s0 s) : EndKept h e s0 (settleEnd h' e' s) :=
  keeps_ite (P := EndKept h e s0)
    (fun _ => kept_pump_other ha _ (kept_replayed_other ha _ _ (kept_replayed_other ha _ _ hs))) fun _ => hs

end Other

/-! ### The roster and the routes -/

theorem pgEnd_ne_pgFtopo (f : Nat) (he : e < 96) : pgEnd h e ≠ pgFtopo f := by
  simp only [pgEnd, pgHaws, pgFtopo, pageAddr]
  split <;> omega

theorem pgFtopo_mod (f : Nat) : pgFtopo f % 4096 = 0 := by
  simp only [pgFtopo, pageAddr]
  omega

theorem haw_startRoutes (s : State) (h e : Nat) : (startRoutes s).haw h e = s.haw h e := by
  unfold startRoutes
  refine keeps_foldl (P := fun u => u.haw h e = s.haw h e) (fun u f _ hu => ?_) rfl
  split
  · rw [haw_set, hu]
  · exact hu

theorem kept_startRoutes (he : e < 96) (hs : EndKept h e s0 s) : EndKept h e s0 (startRoutes s) := by
  refine hs.trans ⟨?_, haw_startRoutes s h e⟩
  unfold startRoutes
  exact leaves_foldl (fun _ f _ ht => leaves_ite (fun _ => leaves_set _ (fun _ ha => ne_of_endPlace (pgFtopo_mod f) (by decide)
    (.inl (pgEnd_ne_pgFtopo f he)) ha) ht) fun _ => ht) (.refl s)

theorem haw_setChan (k c : Nat) (r f : Bool) (s : State) (h e : Nat) : (setChan k c r f s).haw h e = s.haw h e := by
  unfold setChan
  split
  · rfl
  · split <;> rfl

/-- A channel's entry and the edge of the roster that it makes, with the new routes. -/
theorem kept_reportChan (he : e < 96) (k c : Nat) (r f : Bool) (s : State) :
    EndKept h e s (startRoutes (onRoster (setChan k c r f) s)) := by
  refine kept_startRoutes he ⟨leaves_settle s (endPlace_main h e) (endPlace_noSummary h e)
    (leaves_setChan (endPlace_noChan h e) k c r f (.refl s)), ?_⟩
  rw [← haw_setChan k c r f s h e, State.haw, onRoster, settle_m]
  rfl

/-- A channel that an edge of the roster reports fenced is fenced after it. -/
theorem chanFenced_reportChan (hh : h < 56) (he : e < 92) (s : State) :
    chanFenced (startRoutes (onRoster (setChan h e false true) s)) h e = true := by
  have hP := lasting_fencedAt (hasEntry_recordEnd hh he)
  obtain ⟨hL, hS, -⟩ := chanWord_place (recordEnd_field_lt hh he) (chanFields_off (recordEnd h e).2).2
  exact fencing_startRoutes hP.fencing (hL.trans lowPlace_le_noEndPlace)
    (lasting_settle hP (hL.trans lowPlace_le_mainPlace) hS _ (chanFenced_setChan_same s hh he))

/-! ### The end's own errors and lanes -/

theorem leaves_setError_end (n : Nat) (hs : Leaves (EndPlace h e) s0 s) : Leaves (EndPlace h e) s0 (setError (pgEnd h e) n s) := by
  have hset : ∀ v, Leaves (EndPlace h e) s0 (s.setWord (pgEnd h e + 0x00C) v) := fun v =>
    leaves_setWord v (fun _ ha => ne_of_endPlace (pgEnd_mod h e) (by decide) (.inr (by decide)) ha) hs
  exact leaves_ite (fun _ => leaves_pageEvent (endPlace_main h e) _ (hset _)) fun _ => hset _

theorem leaves_endError (n : Nat) (hs : Leaves (EndPlace h e) s0 s) : Leaves (EndPlace h e) s0 (endError h e n s) :=
  leaves_ite (fun _ => leaves_ite (fun _ => leaves_setError_end n hs) fun _ => leaves_ite (fun _ => leaves_setError_end n hs) fun _ =>
    leaves_pageEvent (endPlace_main h e) _ (leaves_setError_end n hs)) fun _ => hs

theorem endError_m (h e n : Nat) (s : State) : (endError h e n s).m = s.m :=
  keeps_ite (P := fun u => u.m = s.m)
    (fun _ => keeps_ite (P := fun u => u.m = s.m) (fun _ => setError_m _ _ s) fun _ => alertError_m _ _ s) fun _ => rfl

theorem leaves_reportLane (n : Nat) (hs : Leaves (EndPlace h e) s0 s) : Leaves (EndPlace h e) s0 (reportLane h e n s) :=
  leaves_endError _ (leaves_frame hs rfl rfl)

/-! ### What an end transmits -/

theorem linkState_setLink {v : Nat} (hv : v < 8) (s : State) : linkState (setLink h e v s) h e = v := get_set_fits (by decide) hv s

theorem transmit_of_not_up (hl : linkState s h e ≠ 6) : transmit h e s = s := if_neg hl

theorem live_transmit (h e : Nat) (s : State) : (transmit h e s).live = s.live :=
  keeps_ite (P := fun u => u.live = s.live) (fun _ => rfl) fun _ => rfl

theorem sendTrain_out (h e w : Nat) (s : State) :
    ((sendTrain h e w s).haw h e).out = (s.haw h e).out ++ [⟨5, BitVec.ofNat 32 w⟩] := by
  rw [sendTrain, haw_modHaw_same]

theorem linkState_sendTrain (h e w : Nat) (s : State) : linkState (sendTrain h e w s) h e = linkState s h e := rfl

/-- The commands that a run of training commands transmits. -/
theorem sendTrains_spec (w : Nat → Nat) (l : List Nat) (s : State) :
    (l.foldl (fun s i => sendTrain h e (w i) s) s).live = s.live ∧
      (l.foldl (fun s i => sendTrain h e (w i) s) s).m.wtime = s.m.wtime ∧
      ((l.foldl (fun s i => sendTrain h e (w i) s) s).haw h e).out =
        (s.haw h e).out ++ l.map fun i => ⟨5, BitVec.ofNat 32 (w i)⟩ := by
  induction l generalizing s with
  | nil => exact ⟨rfl, rfl, (List.append_nil _).symm⟩
  | cons i l ih =>
    obtain ⟨hlive, htime, hout⟩ := ih (sendTrain h e (w i) s)
    refine ⟨hlive, htime, hout.trans ?_⟩
    rw [sendTrain_out, List.append_assoc]
    rfl

/-! ## Steps of an attempt -/

/-- A failed attempt of an end: in PROBE anew, without a good lane, and counted. -/
structure AttemptFailed (h e : Nat) (s t : State) : Prop where
  link : linkState t h e = 2
  firstGood : (t.haw h e).firstGood = none
  counted : t.get (pgEnd h e) HAWS.CNT_LINK_ATTEMPTS = min (s.get (pgEnd h e) HAWS.CNT_LINK_ATTEMPTS + 1) (2 ^ 16 - 1)

theorem enterProbe_spec (h e : Nat) (s : State) : linkState (enterProbe h e s) h e = 2 ∧
    ((enterProbe h e s).haw h e).firstGood = none ∧ (enterProbe h e s).m.wtime = s.m.wtime := by
  refine ⟨linkState_setLink (by decide) _, ?_, rfl⟩
  unfold enterProbe setLink
  rw [haw_set, haw_modHaw_same]

theorem attemptFailed_failAttempt (h e : Nat) (s : State) : AttemptFailed h e s (failAttempt h e s) where
  link := (enterProbe_spec ..).1
  firstGood := (enterProbe_spec ..).2.1
  counted := by
    have herr := get_of_endPlace (leaves_endError (h := h) (e := e) 18 (.refl (s.bumpSat (pgEnd h e) HAWS.CNT_LINK_ATTEMPTS)))
      HAWS.CNT_LINK_ATTEMPTS (.inr (by decide)) (by decide)
    refine (get_set_word (by decide) _).trans (herr.trans (get_set_fits (by decide) ?_ s))
    exact Nat.lt_of_le_of_lt (Nat.min_le_right _ _) (by decide)

theorem wtime_failAttempt (h e : Nat) (s : State) : (failAttempt h e s).m.wtime = s.m.wtime :=
  (enterProbe_spec ..).2.2.trans (congrArg MainSt.wtime (endError_m h e 18 (s.bumpSat (pgEnd h e) HAWS.CNT_LINK_ATTEMPTS)))

/-- An attempt counted from a state that shows the same count. -/
theorem AttemptFailed.of_count (hs : t.get (pgEnd h e) HAWS.CNT_LINK_ATTEMPTS = s.get (pgEnd h e) HAWS.CNT_LINK_ATTEMPTS)
    (ht : AttemptFailed h e t u) : AttemptFailed h e s u :=
  ⟨ht.link, ht.firstGood, ht.counted.trans (by rw [hs])⟩

theorem AttemptFailed.kept (ht : AttemptFailed h e s t) (hu : EndKept h e t u) : AttemptFailed h e s u :=
  ⟨hu.link.trans ht.link, (congrArg HawEnd.firstGood hu.haw).trans ht.firstGood, hu.attempts.trans ht.counted⟩

theorem AttemptFailed.transmit (ht : AttemptFailed h e s t) : AttemptFailed h e s (transmit h e t) := by
  rw [transmit_of_not_up (by rw [ht.link]; decide)]
  exact ht

/-! ### EXCHANGE -/

/-- The lanes that an end judged good and that are in. -/
def HawEnd.goodSet (x : HawEnd) : Nat := x.good &&& (2 ^ 80 - 1 - x.gone % 2 ^ 80)

theorem enterExchange_spec (h e : Nat) (s : State) : linkState (enterExchange h e s) h e = 3 ∧
    (enterExchange h e s).m.wtime = s.m.wtime ∧ ((enterExchange h e s).haw h e).out = (s.haw h e).out ++
      (List.range (if isStay h e then 4 else 2)).map fun i => ⟨5, BitVec.ofNat 32 (maskW (s.haw h e).goodSet i)⟩ := by
  obtain ⟨hlive, htime, hout⟩ := sendTrains_spec (h := h) (e := e) (maskW (s.haw h e).goodSet)
    (List.range (if isStay h e then 4 else 2)) (setLink h e 3 s)
  exact ⟨(get_of_live hlive).trans (linkState_setLink (by decide) s), htime, hout⟩

/-- Every segment of the partner's masks. -/
def allSegs (h e : Nat) : Nat := if isStay h e then 15 else 3

/-- A segment of the partner's masks taken. -/
def HawEnd.withSegment (x : HawEnd) (w : Nat) : HawEnd :=
  { x with mask := x.mask ||| bits w 4 24 * 2 ^ (24 * bits w 2 2), segs := putBit x.segs (bits w 2 2) true }

theorem maskIn_exchange {w : Nat} (hl : linkState s h e = 3) : maskIn h e w s =
    if ((s.haw h e).withSegment w).segs &&& allSegs h e = allSegs h e then exchanged h e (s.modHaw h e (·.withSegment w))
    else s.modHaw h e (·.withSegment w) := by
  rw [← congrArg HawEnd.segs (haw_modHaw_same s h e (·.withSegment w))]
  simp only [maskIn, hl, show ¬ (3 : Nat) = 2 by decide, if_false, ne_eq, not_true_eq_false]
  rfl

theorem haw_setLane (n v : Nat) (s : State) : (setLane h e n v s).haw h' e' = s.haw h' e' :=
  keeps_ite (P := fun u => u.haw h' e' = s.haw h' e') (fun _ => haw_set ..) fun _ => rfl

theorem haw_setLanes (v : Nat → Nat) (l : List Nat) (s : State) :
    (l.foldl (fun s n => setLane h e n (v n) s) s).haw h' e' = s.haw h' e' :=
  keeps_foldl (P := fun u => u.haw h' e' = s.haw h' e') (fun t n _ ht => (haw_setLane n (v n) t).trans ht) rfl

theorem exchanged_few (hu : (lanesOf (s.haw h e).usableSet).length < 8) : exchanged h e s = failAttempt h e s := if_pos hu

/-- The end before it sends READY: its usable lanes chosen and shown. -/
theorem exchanged_ready (hu : 8 ≤ (lanesOf (s.haw h e).usableSet).length) : ∃ t, (t.haw h e).usable = (s.haw h e).usableSet ∧
    exchanged h e s = sendTrain h e (readyW (s.haw h e).usableSet) (setLink h e 4 t) := by
  refine ⟨_, ?_, if_neg (Nat.not_lt.2 hu)⟩
  rw [showLanes, haw_set, haw_set, haw_set, haw_set, haw_setLanes, haw_setHaw_same]

/-! ### TRAIN READY by the state of the link -/

theorem readyIn_probe {w : Nat} (hl : linkState s h e = 2) : readyIn h e w false s = enterExchange h e s := by
  rw [readyIn, hl]
  rfl

theorem readyIn_readySent {w : Nat} (link : Bool) (hl : linkState s h e = 4) : readyIn h e w link s =
    if w = readyW (s.haw h e).usable then sendTrain h e (readyW (s.haw h e).usable) (setLink h e 5 s) else failAttempt h e s := by
  rw [readyIn, hl]
  rfl

theorem readyIn_upWait {w : Nat} (hl : linkState s h e = 5) : readyIn h e w true s = enterUp h e s := by
  rw [readyIn, hl]
  rfl

/-! ### UP -/

/-- The registers and the state of an end as it comes UP. -/
def upShown (h e : Nat) (s : State) : State :=
  let p := pgEnd h e
  let s := (((s.set p HAWS.SEQ_TX_NEXT0 0).set p HAWS.SEQ_TX_NEXT1 0).set p HAWS.SEQ_RX_EXP0 0).set p HAWS.SEQ_RX_EXP1 0
  let s := ((s.set p HAWS.FLOW_PEER_XOFF 0).set p HAWS.FLOW_OWN_XOFF 0).set p HAWS.FLOW_NAK_SENT 0
  showHeld h e (s.modHaw h e fun x => { x with v0 := .reset, v1 := .reset, turn := 1 })

/-- The lanes that an end reports unusable as it comes UP, and the active ones that it sheds. -/
def upUnusable (h e : Nat) (x : HawEnd) : List Nat :=
  (List.range (laneCount h e)).filter fun n => !bitAt x.gone n && !bitAt x.usable n
def upShed (h e : Nat) (x : HawEnd) : List Nat :=
  (List.range (laneCount h e)).filter fun n => bitAt x.gone n && bitAt x.txActive n

/-- The end UP with its lanes reported and shed. -/
def upLanes (h e : Nat) (s : State) : State :=
  let x := (upShown h e s).haw h e
  (upShed h e x).foldl (fun s n => shedTx h e n s)
    ((upUnusable h e x).foldl (fun s n => reportLane h e n s) (setLink h e 6 (upShown h e s)))

theorem enterUp_eq (h e : Nat) (s : State) : enterUp h e s =
    if bothUp (upLanes h e s) h e then startRoutes (onRoster (setChan h e true false) (upLanes h e s)) else upLanes h e s := rfl

theorem upShed_eq_nil {x : HawEnd} (hx : ∀ n, n < laneCount h e → bitAt x.gone n = false ∨ bitAt x.txActive n = false) :
    upShed h e x = [] := by
  refine List.filter_eq_nil_iff.2 fun n hn => ?_
  obtain hg | ht := hx n (List.mem_range.1 hn)
  · simp [hg]
  · simp [ht]

theorem haw_upShown (h e : Nat) (s : State) : ((upShown h e s).haw h e).gone = (s.haw h e).gone ∧
    ((upShown h e s).haw h e).txActive = (s.haw h e).txActive := by
  unfold upShown showHeld
  simp only [haw_set, haw_modHaw_same, and_self]

/-- Where no active lane has left service, nothing is shed. -/
theorem leaves_upLanes (hx : ∀ n, n < laneCount h e → bitAt (s.haw h e).gone n = false ∨ bitAt (s.haw h e).txActive n = false) :
    Leaves (EndPlace h e) (setLink h e 6 (upShown h e s)) (upLanes h e s) := by
  obtain ⟨hgone, hactive⟩ := haw_upShown h e s
  rw [← hgone, ← hactive] at hx
  simp only [upLanes, upShed_eq_nil hx, List.foldl_nil]
  exact leaves_foldl (fun _ n _ ht => leaves_reportLane n ht) (.refl _)

theorem leaves_enterUp (he : e < 96)
    (hx : ∀ n, n < laneCount h e → bitAt (s.haw h e).gone n = false ∨ bitAt (s.haw h e).txActive n = false) :
    Leaves (EndPlace h e) (setLink h e 6 (upShown h e s)) (enterUp h e s) := by
  rw [enterUp_eq]
  exact leaves_ite (fun _ => (leaves_upLanes hx).trans (kept_reportChan he h e true false _).regs) fun _ => leaves_upLanes hx

/-- An end in UP with its first sequence numbers and no virtual channel in XOFF. -/
structure FreshUp (h e : Nat) (s : State) : Prop where
  link : linkState s h e = 6
  next : ∀ v, v < 2 → s.get (pgEnd h e) (nextField v) = 0
  exp : ∀ v, v < 2 → s.get (pgEnd h e) (expField v) = 0
  xoff : ∀ v, peerXoff s h e v = false

theorem freshUp_upShown (h e : Nat) (s : State) : FreshUp h e (setLink h e 6 (upShown h e s)) where
  link := linkState_setLink (by decide) _
  next v hv := by
    interval_cases v <;>
      simp (disch := decide) only [nextField, upShown, setLink, showHeld, get_modHaw, get_set_word, get_set_beside, get_set_fits,
        if_true, if_false, one_ne_zero]
  exp v hv := by
    interval_cases v <;>
      simp (disch := decide) only [expField, upShown, setLink, showHeld, get_modHaw, get_set_word, get_set_beside, get_set_fits,
        if_true, if_false, one_ne_zero]
  xoff v := by
    simp (disch := decide) only [peerXoff, upShown, setLink, showHeld, get_modHaw, get_set_word, get_set_beside, get_set_fits]
    simp [bitAt]

theorem FreshUp.of_leaves (hs : FreshUp h e s) (ht : Leaves (EndPlace h e) s t) : FreshUp h e t where
  link := (linkState_of_endPlace ht).trans hs.link
  next v hv := by
    refine (get_of_endPlace ht _ (.inr ?_) ?_).trans (hs.next v hv) <;> interval_cases v <;> decide
  exp v hv := by
    refine (get_of_endPlace ht _ (.inr ?_) ?_).trans (hs.exp v hv) <;> interval_cases v <;> decide
  xoff v := by
    rw [peerXoff, get_of_endPlace ht _ (.inr (by decide)) (by decide)]
    exact hs.xoff v

theorem FreshUp.transmit (hs : FreshUp h e s) : FreshUp h e (transmit h e s) :=
  hs.of_leaves (leaves_ite (fun _ => leaves_frame (.refl s) rfl rfl) fun _ => .refl s)

end Sys2Proof.Machine
end

section
namespace Sys2Proof.Machine
open Sys2Proof

/-! ## The commands of training -/

variable {h : HostId} {e : EndId} {s : State}

/-- The state in which a command comes to an end: its partner has sent what it may. -/
abbrev partnerSent (h : HostId) (e : EndId) (s : State) : State :=
  settleEnd (partnerEnd h.val e.val).1 (partnerEnd h.val e.val).2 s

theorem kept_partnerSent (he : endExists h.val e.val = true) : EndKept h.val e.val s (partnerSent h e s) :=
  kept_settleEnd_other (apart_partner he) (.refl s)

/-- A training command taken from the partner's commands in flight. -/
theorem kept_received (he : endExists h.val e.val = true) (w : Word) :
    EndKept h.val e.val s (received h.val e.val 5 w (partnerSent h e s)) :=
  kept_modHaw_other (apart_partner he) (fun x => { x with out := takeOut ⟨5, w⟩ x.out }) (kept_partnerSent he)

section
variable (ha : awake s = true) (he : endExists h.val e.val = true)
include ha he

theorem laneJudgedGood_marks {n : Nat} (hl : linkState s h.val e.val = 2 ∨ linkState s h.val e.val = 3)
    (hn : n < laneCount h.val e.val) (hg : bitAt (s.haw h.val e.val).gone n = false) :
    ∃ s', exec (.laneJudgedGood h e n) s = .next s' ∧ s'.live = (partnerSent h e s).live ∧
      bitAt (s'.haw h.val e.val).good n = true ∧
      (s'.haw h.val e.val).firstGood = some ((s.haw h.val e.val).firstGood.getD s.m.wtime) := by
  have hk := kept_partnerSent (s := s) he
  refine ⟨_, (show exec _ s = execLaneJudgedGood h e n s from rfl).trans (atEnd_on ha he), ?_⟩
  dsimp only
  rw [hk.link, hk.haw, hk.wtime, if_pos ⟨hl, hn, hg⟩, transmit_of_not_up]
  · exact ⟨rfl, by rw [haw_setHaw_same, bitAt_putBit_same], by rw [haw_setHaw_same]⟩
  · change linkState (partnerSent h e s) h.val e.val ≠ 6
    rw [hk.link]
    omega

theorem probeWindowEnd_exchange {t : Nat} (hl : linkState s h.val e.val = 2) (ht : (s.haw h.val e.val).firstGood = some t) :
    ∃ s', exec (.probeWindowEnd h e) s = .next s' ∧ linkState s' h.val e.val = 3 ∧ s'.m.wtime = max s.m.wtime (t + 256) ∧
      ∀ i, i < (if isStay h.val e.val then 4 else 2) →
        (⟨5, BitVec.ofNat 32 (maskW (s.haw h.val e.val).goodSet i)⟩ : HCmd) ∈ (s'.haw h.val e.val).out := by
  have hk := kept_partnerSent (s := s) he
  obtain ⟨hlink, htime, hout⟩ := enterExchange_spec h.val e.val ((partnerSent h e s).atTime (max s.m.wtime (t + 256)))
  have hhaw : ((partnerSent h e s).atTime (max s.m.wtime (t + 256))).haw h.val e.val = s.haw h.val e.val := hk.haw
  refine ⟨_, ((show exec _ s = execProbeWindowEnd h e s from rfl).trans (atEnd_on ha he)).trans ?_, hlink, htime, fun i hi => ?_⟩
  · dsimp only
    rw [hk.haw, ht]
    dsimp only
    rw [hk.link, if_pos hl, hk.wtime]
    exact congrArg Host.Outcome.next (transmit_of_not_up (hlink.trans_ne (by decide)))
  · rw [hout, hhaw]
    exact List.mem_append_right _ (List.mem_map.2 ⟨i, List.mem_range.2 hi, rfl⟩)

/-! ### TRAIN MASK -/

theorem exec_trainMask (w : Word) (hl : linkState s h.val e.val = 3) : exec (.trainMask h e w) s =
    .next (transmit h.val e.val (maskIn h.val e.val w.toNat (received h.val e.val 5 w (partnerSent h e s)))) := by
  refine ((show exec _ s = execTrainMask h e w s from rfl).trans (atEnd_on ha he)).trans ?_
  dsimp only
  rw [(kept_received he w).link, if_neg (by rw [hl]; decide)]

theorem trainMask_adds {w : Word} (hl : linkState s h.val e.val = 3)
    (hseg : ((s.haw h.val e.val).withSegment w.toNat).segs &&& allSegs h.val e.val ≠ allSegs h.val e.val) :
    ∃ s', exec (.trainMask h e w) s = .next s' ∧ linkState s' h.val e.val = 3 ∧
      s'.haw h.val e.val = (s.haw h.val e.val).withSegment w.toNat := by
  have hk := kept_received (s := s) he w
  have hlink : linkState ((received h.val e.val 5 w (partnerSent h e s)).modHaw h.val e.val (·.withSegment w.toNat)) h.val e.val = 3 :=
    hk.link.trans hl
  refine ⟨_, exec_trainMask ha he w hl, ?_⟩
  rw [maskIn_exchange (hk.link.trans hl), hk.haw, if_neg hseg, transmit_of_not_up (by rw [hlink]; decide), haw_modHaw_same, hk.haw]
  exact ⟨hlink, rfl⟩

/-- The last segment ends EXCHANGE. -/
theorem trainMask_last {w : Word} (hl : linkState s h.val e.val = 3)
    (hseg : ((s.haw h.val e.val).withSegment w.toNat).segs &&& allSegs h.val e.val = allSegs h.val e.val) :
    exec (.trainMask h e w) s = .next (transmit h.val e.val (exchanged h.val e.val
      ((received h.val e.val 5 w (partnerSent h e s)).modHaw h.val e.val (·.withSegment w.toNat)))) := by
  have hk := kept_received (s := s) he w
  rw [exec_trainMask ha he w hl, maskIn_exchange (hk.link.trans hl), hk.haw, if_pos hseg]

theorem trainMask_ready {w : Word} (hl : linkState s h.val e.val = 3)
    (hseg : ((s.haw h.val e.val).withSegment w.toNat).segs &&& allSegs h.val e.val = allSegs h.val e.val)
    (hu : 8 ≤ (lanesOf ((s.haw h.val e.val).withSegment w.toNat).usableSet).length) :
    ∃ s', exec (.trainMask h e w) s = .next s' ∧ linkState s' h.val e.val = 4 ∧
      (s'.haw h.val e.val).usable = ((s.haw h.val e.val).withSegment w.toNat).usableSet ∧
      (s'.haw h.val e.val).out.getLast? = some ⟨5, BitVec.ofNat 32 (readyW ((s.haw h.val e.val).withSegment w.toNat).usableSet)⟩ := by
  rw [trainMask_last ha he hl hseg]
  rw [← (kept_received (s := s) he w).haw, ← haw_modHaw_same _ _ _ (·.withSegment w.toNat)] at hu ⊢
  obtain ⟨t, husable, heq⟩ := exchanged_ready hu
  have hlink := linkState_setLink (h := h.val) (e := e.val) (v := 4) (by decide) t
  refine ⟨_, rfl, ?_⟩
  rw [heq, transmit_of_not_up (by rw [linkState_sendTrain, hlink]; decide)]
  refine ⟨hlink, ?_, ?_⟩
  · rw [sendTrain, haw_modHaw_same]
    exact husable
  · rw [sendTrain_out, List.getLast?_concat]

theorem trainMask_fails {w : Word} (hl : linkState s h.val e.val = 3)
    (hseg : ((s.haw h.val e.val).withSegment w.toNat).segs &&& allSegs h.val e.val = allSegs h.val e.val)
    (hu : (lanesOf ((s.haw h.val e.val).withSegment w.toNat).usableSet).length < 8) :
    ∃ s', exec (.trainMask h e w) s = .next s' ∧ AttemptFailed h.val e.val s s' := by
  have hk := kept_received (s := s) he w
  rw [trainMask_last ha he hl hseg]
  rw [← hk.haw, ← haw_modHaw_same _ _ _ (·.withSegment w.toNat)] at hu
  refine ⟨_, rfl, ?_⟩
  rw [exchanged_few hu]
  exact ((attemptFailed_failAttempt _ _ _).of_count ((get_modHaw ..).trans hk.attempts)).transmit

/-! ### TRAIN READY -/

theorem exec_trainReady (w : Word) (link : Bool) : exec (.trainReady h e w link) s =
    .next (transmit h.val e.val (readyIn h.val e.val w.toNat link (received h.val e.val 5 w (partnerSent h e s)))) :=
  (show exec _ s = execTrainReady h e w link s from rfl).trans (atEnd_on ha he)

theorem trainReady_equal {w : Word} (link : Bool) (hl : linkState s h.val e.val = 4)
    (hw : w.toNat = readyW (s.haw h.val e.val).usable) :
    ∃ s', exec (.trainReady h e w link) s = .next s' ∧ linkState s' h.val e.val = 5 := by
  have hk := kept_received (s := s) he w
  have hlink := linkState_setLink (h := h.val) (e := e.val) (v := 5) (by decide) (received h.val e.val 5 w (partnerSent h e s))
  refine ⟨_, exec_trainReady ha he w link, ?_⟩
  rw [readyIn_readySent link (hk.link.trans hl), hk.haw, if_pos hw, transmit_of_not_up (by rw [linkState_sendTrain, hlink]; decide)]
  exact hlink

theorem trainReady_unequal {w : Word} (link : Bool) (hl : linkState s h.val e.val = 4)
    (hw : w.toNat ≠ readyW (s.haw h.val e.val).usable) :
    ∃ s', exec (.trainReady h e w link) s = .next s' ∧ AttemptFailed h.val e.val s s' := by
  have hk := kept_received (s := s) he w
  refine ⟨_, exec_trainReady ha he w link, ?_⟩
  rw [readyIn_readySent link (hk.link.trans hl), hk.haw, if_neg hw]
  exact ((attemptFailed_failAttempt _ _ _).of_count hk.attempts).transmit

theorem trainReady_up (w : Word) (hl : linkState s h.val e.val = 5)
    (hx : ∀ n, n < laneCount h.val e.val →
      bitAt (s.haw h.val e.val).gone n = false ∨ bitAt (s.haw h.val e.val).txActive n = false) :
    ∃ s', exec (.trainReady h e w true) s = .next s' ∧ FreshUp h.val e.val s' := by
  have hk := kept_received (s := s) he w
  refine ⟨_, exec_trainReady ha he w true, ?_⟩
  rw [readyIn_upWait (hk.link.trans hl)]
  rw [← hk.haw] at hx
  exact ((freshUp_upShown _ _ _).of_leaves (leaves_enterUp e.isLt hx)).transmit

theorem trainReady_probe (w : Word) (hl : linkState s h.val e.val = 2) :
    ∃ s', exec (.trainReady h e w false) s = .next s' ∧ linkState s' h.val e.val = 3 := by
  have hk := kept_received (s := s) he w
  obtain ⟨hlink, -, -⟩ := enterExchange_spec h.val e.val (received h.val e.val 5 w (partnerSent h e s))
  refine ⟨_, exec_trainReady ha he w false, ?_⟩
  rw [readyIn_probe (hk.link.trans hl)]
  exact (get_of_live (live_transmit ..)).trans hlink

/-! ### Timers -/

theorem upWaitReadyInterval_sends (hl : linkState s h.val e.val = 5) :
    ∃ s', exec (.upWaitReadyInterval h e) s = .next s' ∧ s'.live = (partnerSent h e s).live ∧
      (s'.haw h.val e.val).out = (s.haw h.val e.val).out ++ [⟨5, BitVec.ofNat 32 (readyW (s.haw h.val e.val).usable)⟩] := by
  have hk := kept_partnerSent (s := s) he
  refine ⟨_, (show exec _ s = execUpWaitReadyInterval h e s from rfl).trans (atEnd_on ha he), ?_⟩
  rw [hk.link, if_pos hl, hk.haw]
  refine ⟨live_transmit .., ?_⟩
  rw [transmit_of_not_up, sendTrain_out, hk.haw]
  change linkState (partnerSent h e s) h.val e.val ≠ 6
  rw [hk.link, hl]
  decide

theorem quietEnd_probe (hl : linkState s h.val e.val = 7) : ∃ s', exec (.quietEnd h e) s = .next s' ∧ linkState s' h.val e.val = 2 ∧
    s'.m.wtime = max s.m.wtime ((s.haw h.val e.val).since + 12000) := by
  have hk := kept_partnerSent (s := s) he
  obtain ⟨hlink, -, htime⟩ := enterProbe_spec h.val e.val
    ((partnerSent h e s).atTime (max s.m.wtime ((s.haw h.val e.val).since + 12000)))
  refine ⟨_, ((show exec _ s = execQuietEnd h e s from rfl).trans (atEnd_on ha he)).trans ?_, hlink, htime⟩
  rw [hk.link, if_pos hl, hk.haw, hk.wtime]
  exact congrArg Host.Outcome.next (transmit_of_not_up (hlink.trans_ne (by decide)))

/-- The attempt of an end failed at its timeout. -/
def timedOutAttempt (h e : Nat) (s : State) : State :=
  failAttempt h e (s.atTime (max s.m.wtime ((s.haw h e).since + 1200000)))

/-- The failed attempt, with its channel reported fenced unless it is so already. -/
theorem exec_trainingAttemptTimeout (hl : 2 ≤ linkState s h.val e.val) (hl' : linkState s h.val e.val ≤ 5) :
    exec (.trainingAttemptTimeout h e) s = .next (transmit h.val e.val
      (let u := timedOutAttempt h.val e.val (partnerSent h e s)
      if h.val < 56 ∧ e.val < 92 ∧ chanFenced u h.val e.val = false then
        startRoutes (onRoster (setChan h.val e.val false true) u) else u)) := by
  refine ((show exec _ s = execTrainingAttemptTimeout h e s from rfl).trans (atEnd_on ha he)).trans ?_
  dsimp only
  rw [(kept_partnerSent he).link, if_pos ⟨hl, hl'⟩]
  rfl

theorem trainingAttemptTimeout_fails (hl : 2 ≤ linkState s h.val e.val) (hl' : linkState s h.val e.val ≤ 5) :
    ∃ s', exec (.trainingAttemptTimeout h e) s = .next s' ∧ AttemptFailed h.val e.val s s' ∧
      s'.m.wtime = max s.m.wtime ((s.haw h.val e.val).since + 1200000) ∧
      (h.val < 56 → e.val < 92 → chanFenced s' h.val e.val = true) := by
  have hk := kept_partnerSent (s := s) he
  refine ⟨_, exec_trainingAttemptTimeout ha he hl hl', ?_⟩
  have hu : AttemptFailed h.val e.val s (timedOutAttempt h.val e.val (partnerSent h e s)) :=
    (attemptFailed_failAttempt _ _ _).of_count ((get_atTime ..).trans hk.attempts)
  have htime : (timedOutAttempt h.val e.val (partnerSent h e s)).m.wtime =
      max s.m.wtime ((s.haw h.val e.val).since + 1200000) := by
    rw [← hk.haw, ← hk.wtime]
    exact wtime_failAttempt ..
  dsimp only
  split
  · next hc =>
    obtain ⟨hh, h92, -⟩ := hc
    have hrep := kept_reportChan (h := h.val) e.isLt h.val e.val false true
      (timedOutAttempt h.val e.val (partnerSent h e s))
    rw [transmit_of_not_up (by rw [hrep.link, hu.link]; decide)]
    exact ⟨hu.kept hrep, hrep.wtime.trans htime, fun _ _ => chanFenced_reportChan hh h92 _⟩
  · next hc =>
    rw [transmit_of_not_up (by rw [hu.link]; decide)]
    exact ⟨hu, htime, fun hh h92 => by simpa [hh, h92] using hc⟩

end

/-- Settles O58: each command finds its end as it was before the row, and each step of the attempt is the one lemma that says what it
leaves at its end. -/
theorem hawserTraining : Obligations.HawserTraining := by
  intro s h e
  dsimp only
  intro ha he
  refine ⟨fun n hl hn hg => laneJudgedGood_marks ha he hl hn hg, fun t hl ht => probeWindowEnd_exchange ha he hl ht,
    fun w hl => ⟨fun hseg => ?_, fun hseg hu => trainMask_ready ha he hl hseg hu, fun hseg hu => ?_⟩,
    fun w link => ⟨fun hl hw => trainReady_equal ha he link hl hw, fun hl hw => ?_, fun hl hlink hx => ?_, fun hl hlink => ?_⟩,
    fun hl => upWaitReadyInterval_sends ha he hl, fun hl => quietEnd_probe ha he hl, fun hl hl' => ?_⟩
  · obtain ⟨s', hexec, hlink, hhaw⟩ := trainMask_adds ha he hl hseg
    exact ⟨s', hexec, hlink, congrArg HawEnd.mask hhaw, congrArg HawEnd.segs hhaw⟩
  · obtain ⟨s', hexec, hf⟩ := trainMask_fails ha he hl hseg hu
    exact ⟨s', hexec, hf.link, hf.firstGood, hf.counted⟩
  · obtain ⟨s', hexec, hf⟩ := trainReady_unequal ha he link hl hw
    exact ⟨s', hexec, hf.link, hf.firstGood, hf.counted⟩
  · subst hlink
    obtain ⟨s', hexec, hup⟩ := trainReady_up ha he w hl hx
    exact ⟨s', hexec, hup.link, fun v hv => ⟨hup.next v hv, hup.exp v hv, hup.xoff v⟩⟩
  · subst hlink
    exact trainReady_probe ha he w hl
  · obtain ⟨s', hexec, hf, htime, hfence⟩ := trainingAttemptTimeout_fails ha he hl hl'
    exact ⟨⟨s', hexec, hf.link, hf.firstGood, hf.counted⟩, s', hexec, htime, hfence⟩

end Sys2Proof.Machine
end

section
namespace Sys2Proof.Machine
open Sys2Proof

/-! PROOFS. The defect map's commands (O51). First what leaves the map and its page as they are: one lemma `mapStays_f` for each
function of the model that a retirement or the end of a test uses, in the order of the model. -/

/-! ## What leaves the defect map -/

/-- The defect map with its two copies, and the words of the DMAP page, stay. -/
structure MapStays (s t : State) : Prop where
  map : t.map = s.map
  word : ∀ a, 0x8000 ≤ a → a < 0x9000 → t.word a = s.word a

variable {s0 s t : State}

theorem MapStays.refl (s : State) : MapStays s s := ⟨rfl, fun _ _ _ => rfl⟩

theorem MapStays.trans {u : State} (h : MapStays s t) (g : MapStays t u) : MapStays s u :=
  ⟨g.map.trans h.map, fun a ha hb => (g.word a ha hb).trans (h.word a ha hb)⟩

/-- A field of the DMAP page reads as before. -/
theorem MapStays.get (h : MapStays s t) {F : Fld} (hF : F.off < 0x1000) : t.get pgDmap F = s.get pgDmap F := by
  have hp : pgDmap = 0x8000 := rfl
  exact get_of_word (h.word _ (by omega) (by omega))

/-! ### Steps of the state -/

/-- A step outside the register words and the map. -/
theorem mapStays_frame (h : MapStays s0 s) (ht : (t.live, t.map) = (s.live, s.map)) : MapStays s0 t := by
  obtain ⟨hl, hm⟩ := Prod.mk.inj ht
  exact h.trans ⟨hm, fun a _ _ => by simp only [State.word, hl]⟩

theorem mapStays_modX {g : XingSt → XingSt} (h : MapStays s0 s) : MapStays s0 (s.modX g) := mapStays_frame h rfl

theorem mapStays_setHaw {f e : Nat} {x : HawEnd} (h : MapStays s0 s) : MapStays s0 (s.setHaw f e x) := mapStays_frame h rfl

theorem mapStays_setShadow {a : Nat} {v : Word} (h : MapStays s0 s) : MapStays s0 (s.setShadow a v) := mapStays_frame h rfl

theorem mapStays_main {m : MainSt} (h : MapStays s0 s) : MapStays s0 { s with m := m } := mapStays_frame h rfl

theorem mapStays_setWord {a : Nat} {v : Word} (ha : a < 0x8000 ∨ 0x9000 ≤ a) (h : MapStays s0 s) : MapStays s0 (s.setWord a v) :=
  h.trans ⟨rfl, fun b _ _ => word_setWord_other s v (by omega)⟩

/-- A write of a page of the main domain. -/
theorem mapStays_set {p v : Nat} {F : Fld} (hp : 0x10000 ≤ p) (h : MapStays s0 s) : MapStays s0 (s.set p F v) :=
  mapStays_setWord (.inr (by omega)) h

/-- A write of a page of a tile. -/
theorem mapStays_setTile {k n v : Nat} {F : Fld} (h : MapStays s0 s) : MapStays s0 (s.set (pgTk k n) F v) :=
  mapStays_set (pgTile_main _ _ n) h

theorem mapStays_ite {c : Prop} [Decidable c] (ht : c → MapStays s0 s) (hu : ¬c → MapStays s0 t) :
    MapStays s0 (if c then s else t) := keeps_ite (P := MapStays s0) ht hu

theorem mapStays_foldl {α : Type} {g : State → α → State} (hg : ∀ {t} b, MapStays s0 t → MapStays s0 (g t b)) (l : List α)
    (h : MapStays s0 s) : MapStays s0 (l.foldl g s) := keeps_foldl (P := MapStays s0) (fun _ b _ ht => hg b ht) h

/-! ### Alerts and events -/

theorem unlogged_dmap {a : Nat} (ha : 0x8000 ≤ a) (hb : a < 0x9000) (v : Word) : Unlogged fun u => u.word a = v :=
  unlogged_word (by omega) (.inl (by omega)) v

theorem mapStays_raiseEvent {e : Event} (h : MapStays s0 s) : MapStays s0 (raiseEvent e s) :=
  h.trans ⟨raiseEvent_map e s, fun _ ha hb => unlogged_raiseEvent (unlogged_dmap ha hb _) e rfl⟩

theorem mapStays_pageEvent {p : Nat} (h : MapStays s0 s) : MapStays s0 (pageEvent p s) :=
  h.trans ⟨lingers_pageEvent (lingers_map _) p rfl, fun _ ha hb => unlogged_pageEvent (unlogged_dmap ha hb _) p rfl⟩

theorem mapStays_setError {p n : Nat} (hp : 0x10000 ≤ p) (h : MapStays s0 s) : MapStays s0 (setError p n s) := by
  have h1 : ∀ v, MapStays s0 (s.setWord (p + 0x00C) v) := fun v => mapStays_setWord (.inr (by omega)) h
  exact mapStays_ite (fun _ => mapStays_pageEvent (h1 _)) fun _ => h1 _

theorem mapStays_alertError {p n : Nat} (hp : 0x10000 ≤ p) (h : MapStays s0 s) : MapStays s0 (alertError p n s) :=
  mapStays_ite (fun _ => mapStays_setError hp h) fun _ => mapStays_pageEvent (mapStays_setError hp h)

/-! ### Berths and packets -/

theorem mapStays_modBerths {p : BerthRun → Bool} {g : BerthRun → BerthRun} (h : MapStays s0 s) : MapStays s0 (modBerths p g s) :=
  mapStays_frame h rfl

theorem mapStays_berthSet {b v : Nat} {F : Fld} (h : MapStays s0 s) : MapStays s0 (berthSet b F v s) :=
  mapStays_set (pgBerth_main b) h

theorem mapStays_suspendBerth {b : Nat} (h : MapStays s0 s) : MapStays s0 (suspendBerth b s) :=
  mapStays_ite (fun _ => h) fun _ => mapStays_raiseEvent (mapStays_modBerths (mapStays_frame (mapStays_berthSet h) rfl))

theorem mapStays_markParty {l : Nat} (h : MapStays s0 s) : MapStays s0 (markParty l s) := by
  unfold markParty
  split
  · exact mapStays_modBerths h
  · split
    · exact mapStays_frame h rfl
    · exact h

theorem mapStays_markParties {l : List Nat} (h : MapStays s0 s) : MapStays s0 (l.foldl (fun s l => markParty l s) s) :=
  mapStays_foldl (fun _ ht => mapStays_markParty ht) _ h

theorem mapStays_loseHolder {l : Nat} (h : MapStays s0 s) : MapStays s0 (loseHolder l s) :=
  mapStays_modBerths (mapStays_frame (mapStays_foldl (fun _ ht => mapStays_berthSet ht) _ h) rfl)

theorem mapStays_suspendGone {l : Nat} (h : MapStays s0 s) : MapStays s0 (suspendGone l s) :=
  mapStays_ite (fun _ => mapStays_foldl (fun _ ht => mapStays_suspendBerth ht) _ h) fun _ => mapStays_frame h rfl

theorem mapStays_markLost {l : Nat} (h : MapStays s0 s) : MapStays s0 (markLost l s) :=
  mapStays_suspendGone (mapStays_loseHolder (mapStays_modBerths (mapStays_markParty h)))

theorem mapStays_loseUse {l : Nat} (h : MapStays s0 s) : MapStays s0 (loseUse l s) :=
  mapStays_suspendGone (mapStays_loseHolder (mapStays_modBerths h))

theorem mapStays_lose {p : Pkt} (h : MapStays s0 s) : MapStays s0 (lose p s) :=
  mapStays_ite (fun _ => h) fun _ => mapStays_ite (fun _ => mapStays_frame h rfl) fun _ => h

/-! ### The roster -/

theorem mapStays_setFieldState {f v : Nat} (h : MapStays s0 s) : MapStays s0 (setFieldState f v s) :=
  mapStays_set (pgRostf_main f) h

theorem mapStays_setTileState {f n v : Nat} (h : MapStays s0 s) : MapStays s0 (setTileState f n v s) :=
  mapStays_set (pgRostf_main f) h

theorem mapStays_setAllTiles {f v : Nat} (h : MapStays s0 s) : MapStays s0 (setAllTiles f v s) :=
  mapStays_foldl (fun _ ht => mapStays_set (pgRostf_main f) ht) _ h

theorem mapStays_setChan1 {p : Nat × Nat} {r f : Bool} (h : MapStays s0 s) : MapStays s0 (setChan1 p r f s) :=
  mapStays_set (pgRostf_main _) (mapStays_set (pgRostf_main _) h)

theorem mapStays_setChan {k e : Nat} {r f : Bool} (h : MapStays s0 s) : MapStays s0 (setChan k e r f s) :=
  mapStays_ite (fun _ => h) fun _ => mapStays_ite (fun _ => mapStays_setChan1 (mapStays_setChan1 h)) fun _ => mapStays_setChan1 h

theorem mapStays_enterPassed {f n : Nat} (h : MapStays s0 s) : MapStays s0 (enterPassed f n s) :=
  have h1 := mapStays_setTileState h
  mapStays_ite (fun _ => h1) fun _ => mapStays_ite (fun _ => h1) fun _ => mapStays_set (pgTile_main _ _ _) h1

theorem mapStays_promote1 {f n : Nat} (h : MapStays s0 s) : MapStays s0 (promote1 f n s) :=
  mapStays_ite (fun _ => mapStays_enterPassed h) fun _ => h

theorem mapStays_counts (h : MapStays s0 s) : MapStays s0 (counts s) := by
  have hset : ∀ {u : State} {F : Fld} {v : Nat}, MapStays s0 u → MapStays s0 (u.set pgRoster F v) := mapStays_set pgRoster_main
  exact hset (hset (hset (hset (mapStays_foldl (fun f ht => mapStays_set (pgRostf_main f) ht) _ (hset (hset h))))))

theorem mapStays_summaries {r : State} (h : MapStays s0 s) : MapStays s0 (summaries r s) := by
  unfold summaries bringup
  iterate 5 refine mapStays_set pgRoster_main ?_
  exact mapStays_counts h

theorem mapStays_doneAlert {r : State} (h : MapStays s0 s) : MapStays s0 (doneAlert r s) :=
  mapStays_ite (fun _ => mapStays_pageEvent h) fun _ => h

theorem mapStays_doneSeen (h : MapStays s0 s) : MapStays s0 (doneSeen s) :=
  mapStays_ite (fun _ => mapStays_frame h rfl) fun _ => h

/-! ### Channel ends -/

theorem mapStays_setEnd {h e v : Nat} {F : Fld} (hs : MapStays s0 s) : MapStays s0 (s.set (pgEnd h e) F v) :=
  mapStays_set (pgEnd_main h e) hs

theorem mapStays_setLink {h e v : Nat} (hs : MapStays s0 s) : MapStays s0 (setLink h e v s) := mapStays_setEnd hs

theorem mapStays_modHaw {h e : Nat} {g : HawEnd → HawEnd} (hs : MapStays s0 s) : MapStays s0 (s.modHaw h e g) :=
  mapStays_frame hs rfl

theorem mapStays_startRoutes (h : MapStays s0 s) : MapStays s0 (startRoutes s) :=
  mapStays_foldl (fun f ht => mapStays_ite (fun _ => mapStays_set (pgFtopo_main f) ht) fun _ => ht) _ h

theorem mapStays_showHeld {h e : Nat} (hs : MapStays s0 s) : MapStays s0 (showHeld h e s) := mapStays_setEnd (mapStays_setEnd hs)

theorem mapStays_downEnd {h e : Nat} (hs : MapStays s0 s) : MapStays s0 (downEnd h e s) :=
  mapStays_foldl (fun _ ht => mapStays_lose (mapStays_markParties ht)) _
    (mapStays_showHeld (mapStays_setLink (mapStays_setHaw hs)))

theorem mapStays_dropEnd {h e : Nat} (hs : MapStays s0 s) : MapStays s0 (dropEnd h e s) := by
  have hd : MapStays s0 (downEnd h e s) := mapStays_downEnd hs
  rw [dropEnd_eq]
  exact mapStays_ite (fun _ => hs) fun _ => mapStays_ite (fun _ => mapStays_setChan hd) fun _ => hd

theorem mapStays_fenceEnd {h e : Nat} (hs : MapStays s0 s) : MapStays s0 (fenceEnd h e s) :=
  mapStays_ite (fun _ => mapStays_setChan hs) fun _ => hs

theorem mapStays_dropDead {f : Nat} (h : MapStays s0 s) : MapStays s0 (dropDead f s) :=
  mapStays_foldl (fun _ ht => mapStays_ite (fun _ => mapStays_fenceEnd (mapStays_dropEnd ht)) fun _ => ht) _ h

theorem mapStays_startEnd {h e : Nat} (hs : MapStays s0 s) : MapStays s0 (startEnd h e s) :=
  mapStays_ite (fun _ => mapStays_setEnd (mapStays_modHaw hs)) fun _ => hs

theorem mapStays_startEnds {h : Nat} (hs : MapStays s0 s) : MapStays s0 (startEnds h s) :=
  mapStays_foldl (fun _ ht => mapStays_startEnd ht) _ hs

theorem mapStays_endError {h e n : Nat} (hs : MapStays s0 s) : MapStays s0 (endError h e n s) :=
  mapStays_ite (fun _ => mapStays_ite (fun _ => mapStays_setError (pgEnd_main h e) hs) fun _ =>
    mapStays_alertError (pgEnd_main h e) hs) fun _ => hs

theorem mapStays_breakLink {h e reason : Nat} (hs : MapStays s0 s) : MapStays s0 (breakLink h e reason s) := by
  unfold breakLink
  extract_lets _ _ _ s1 _ s2 s3 _ s4
  have h1 : MapStays s0 s1 := mapStays_setHaw hs
  have h2 : MapStays s0 s2 := mapStays_setEnd (mapStays_showHeld (mapStays_setLink h1))
  have h3 : MapStays s0 s3 := mapStays_setEnd (mapStays_setEnd h2)
  have h4 : MapStays s0 s4 := mapStays_modX h3
  exact mapStays_endError (mapStays_foldl (fun _ ht => mapStays_lose ht) _ h4)

theorem mapStays_shedTx {h e n : Nat} (hs : MapStays s0 s) : MapStays s0 (shedTx h e n s) := by
  unfold shedTx
  extract_lets _ _ _ _ _ _ t
  have h1 : MapStays s0 t := mapStays_modHaw (mapStays_setEnd (mapStays_setHaw hs))
  exact mapStays_ite (fun _ => hs) fun _ => mapStays_ite (fun _ => mapStays_breakLink h1) fun _ => h1

/-! ### What leaves service -/

theorem mapStays_setFerry {k : Nat} {x : Ferry} (h : MapStays s0 s) : MapStays s0 (s.setFerry k x) :=
  mapStays_setTile (mapStays_setTile (mapStays_main h))

theorem mapStays_deadRig {k : Nat} (h : MapStays s0 s) : MapStays s0 (deadRig k s) := by
  have h1 : MapStays s0 (s.setRig k { Rig.reset with run := .stopped }) := mapStays_main h
  unfold deadRig
  exact mapStays_modX (mapStays_setFerry h1)

theorem mapStays_retireTile {f n : Nat} (h : MapStays s0 s) : MapStays s0 (retireTile f n s) := by
  unfold retireTile
  extract_lets t
  have h1 : MapStays s0 t := by
    unfold t
    split
    · exact mapStays_ite (fun _ => mapStays_loseUse h) fun _ => h
    · exact h
  exact mapStays_ite (fun _ => h) fun _ => mapStays_dropDead (mapStays_promote1 (mapStays_promote1
    (mapStays_setTileState (mapStays_deadRig h1))))

theorem mapStays_scaleShares {k b : Nat} (h : MapStays s0 s) : MapStays s0 (scaleShares k b s) := by
  unfold scaleShares
  extract_lets _ _ s1 _ _ s2 s3
  have h1 : MapStays s0 s1 := mapStays_foldl (fun _ ht => mapStays_setTile ht) _ h
  have h2 : MapStays s0 s2 := mapStays_main h1
  have h3 : MapStays s0 s3 := mapStays_ite (fun _ => h2) fun _ => mapStays_setShadow (mapStays_setShadow h2)
  exact mapStays_ite (fun _ => mapStays_alertError (pgTile_main _ _ 1) h3) fun _ => h3

theorem mapStays_retireBank {f n b : Nat} (h : MapStays s0 s) : MapStays s0 (retireBank f n b s) := by
  have hk : 0x10000 ≤ p0 (tileKey f n) := pgTile_main _ _ 0
  unfold retireBank
  extract_lets _ _ _ s1 s2
  have h1 : MapStays s0 s1 := mapStays_scaleShares (mapStays_set hk (mapStays_set hk h))
  have h2 : MapStays s0 s2 := mapStays_ite (fun _ => mapStays_setTileState h1) fun _ => h1
  exact mapStays_ite (fun _ => h) fun _ => mapStays_ite (fun _ => mapStays_foldl (fun _ ht => mapStays_suspendBerth ht) _ h2)
    fun _ => mapStays_modBerths h2

theorem mapStays_retireLaneEnd {h e n : Nat} (hs : MapStays s0 s) : MapStays s0 (retireLaneEnd h e n s) := by
  unfold retireLaneEnd
  extract_lets t
  have h1 : MapStays s0 t := mapStays_modHaw hs
  have h2 : MapStays s0 (setLane h e n 0 t) := mapStays_ite (fun _ => mapStays_setEnd h1) fun _ => h1
  exact mapStays_ite (fun _ => hs) fun _ => mapStays_ite (fun _ => h1) fun _ => mapStays_ite
    (fun _ => mapStays_setEnd (mapStays_setEnd (mapStays_modHaw (mapStays_ite (fun _ => h2) fun _ => h1))))
    fun _ => mapStays_ite (fun _ => mapStays_modHaw (mapStays_shedTx h1)) fun _ => mapStays_shedTx h1

theorem mapStays_dropPackets {f : Nat} {mark : Bool} (h : MapStays s0 s) : MapStays s0 (dropPackets f mark s) :=
  mapStays_foldl (fun _ ht => mapStays_lose (mapStays_ite (fun _ => mapStays_markParties ht) fun _ => ht)) _
    (mapStays_frame h rfl)

theorem mapStays_clearField {f : Nat} (h : MapStays s0 s) : MapStays s0 (clearField f s) :=
  h.trans ⟨rfl, fun _ _ hb => word_clearField f s (by omega)⟩

theorem mapStays_bistCycles {f : Nat} (h : MapStays s0 s) : MapStays s0 (bistCycles f s) := mapStays_set (pgRostf_main f) h

theorem mapStays_removeField {f v w : Nat} {lost : Bool} (h : MapStays s0 s) : MapStays s0 (removeField f v w lost s) := by
  unfold removeField
  extract_lets was s1 lids s2 s3 s4 s5
  have h1 : MapStays s0 s1 := mapStays_ite (fun _ => mapStays_bistCycles h) fun _ => h
  have h2 : MapStays s0 s2 :=
    mapStays_foldl (fun _ ht => mapStays_ite (fun _ => mapStays_markLost ht) fun _ => mapStays_loseUse ht) _ h1
  have h3 : MapStays s0 s3 := mapStays_setAllTiles (mapStays_setFieldState h2)
  have h4 : MapStays s0 s4 := mapStays_ite (fun _ => mapStays_dropDead h3) fun _ => h3
  have h5 : MapStays s0 s5 := mapStays_clearField (mapStays_dropPackets h4)
  exact mapStays_ite (fun _ => mapStays_startRoutes h5) fun _ => h5

theorem mapStays_applyRetire {r : Retire} (h : MapStays s0 s) : MapStays s0 (applyRetire r s) := by
  cases r with
  | tile f n => exact mapStays_retireTile h
  | bank f n b => exact mapStays_ite (fun _ => h) fun _ => mapStays_retireBank h
  | lane f c i n => exact mapStays_retireLaneEnd (mapStays_retireLaneEnd h)
  | field f => exact mapStays_ite (fun _ => h) fun _ => mapStays_removeField h

/-- A retirement changes neither the map, which names it already, nor its page. -/
theorem mapStays_requestRetire {r : Retire} (h : MapStays s0 s) : MapStays s0 (requestRetire r s) := by
  unfold requestRetire
  extract_lets s1 _ s2
  have h1 : MapStays s0 s1 := by
    unfold s1
    split
    · exact mapStays_set (pgTile_main _ _ _) h
    · exact h
  have h2 : MapStays s0 s2 := mapStays_ite (fun _ => mapStays_applyRetire h) fun _ =>
    mapStays_ite (fun _ => h1) fun _ => mapStays_frame h1 rfl
  cases r with
  | bank => exact h2
  | tile => exact mapStays_startRoutes (mapStays_dropDead h2)
  | field => exact mapStays_startRoutes (mapStays_dropDead h2)
  | lane => exact mapStays_startRoutes h2

theorem mapStays_retireNow {kind field loc : Nat} (h : MapStays s0 s) : MapStays s0 (retireNow kind field loc s) :=
  mapStays_ite (fun _ => mapStays_requestRetire h) fun _ => h

/-! ### The end of tests -/

theorem mapStays_fieldOff {f v : Nat} (h : MapStays s0 s) : MapStays s0 (fieldOff f v s) := by
  have hoff := offs_switchOff (railAt f) v s
  have hmap : (switchOff (railAt f) v s).map = s.map := by rw [hoff.rest]
  exact h.trans ⟨hmap, fun a ha _ => hoff.word a (.inr (.inr (.inr (by omega))))⟩

theorem mapStays_finishBist {f : Nat} (h : MapStays s0 s) : MapStays s0 (finishBist f s) := by
  unfold finishBist
  extract_lets s1 s2 s3
  have h1 : MapStays s0 s1 := mapStays_bistCycles h
  exact mapStays_ite (fun _ => h) fun _ => mapStays_ite
    (fun _ => mapStays_fieldOff (mapStays_clearField (mapStays_setFieldState (mapStays_raiseEvent h1))))
    fun _ => mapStays_startRoutes (mapStays_startEnds (mapStays_dropDead (mapStays_setFieldState h1)))

theorem mapStays_finishTests (h : MapStays s0 s) : MapStays s0 (finishTests s) :=
  mapStays_foldl (fun _ ht => mapStays_finishBist ht) _ h

end Sys2Proof.Machine
end

section
namespace Sys2Proof.Machine
open Sys2Proof

variable {s0 s t u : State}

/-! ## What the commands report in the DMAP page -/

/-- A write of a field leaves a field apart from it, in another word or beside it. -/
theorem get_set_apart (s : State) {p : Nat} {F G : Fld} (v : Nat) (hG : G.lo + G.width ≤ 32)
    (h : G.off ≠ F.off ∨ F.lo + F.width ≤ G.lo ∨ G.lo + G.width ≤ F.lo) : (s.set p F v).get p G = s.get p G := by
  by_cases ho : G.off = F.off
  · exact get_set_disjoint s v (by rw [ho]) hG (h.resolve_left (not_not.2 ho))
  · exact get_set_other s v (by omega)

/-- The fields that follow the map: what shows the records, a full map and the end of service. -/
def followingFields : List Fld :=
  [DMAP.MAP_GEN_GEN, DMAP.MAP_COUNT_RECORDS, DMAP.MAP_STATUS_B_BEHIND, DMAP.READ_WORD0_WORD, DMAP.READ_WORD1_WORD,
   DMAP.READ_WORD2_WORD, DMAP.READ_WORD3_WORD, DMAP.MAP_STATUS_MAP_FULL, DMAP.SERVICE_EOS_NOW, DMAP.SERVICE_EOS_SEEN]

/-- The fields in which the commands report. -/
def reportFields : List Fld :=
  [DMAP.RETIRE_STATUS_RESULT, DMAP.MAP_STATUS_RECONCILE, DMAP.MAP_STATUS_FLASH_FAULT, DMAP.MAP_STATUS_FLASH_ABSENT]

theorem reportFields_apart : ∀ G ∈ reportFields, G.off < 0x1000 ∧ G.lo + G.width ≤ 32 ∧ ∀ F ∈ followingFields,
    G.off ≠ F.off ∨ F.lo + F.width ≤ G.lo ∨ G.lo + G.width ≤ F.lo := by decide

/-- What the commands have reported stays. -/
def ReportsStay (s t : State) : Prop := ∀ G ∈ reportFields, t.get pgDmap G = s.get pgDmap G

theorem ReportsStay.refl (s : State) : ReportsStay s s := fun _ _ => rfl

theorem ReportsStay.trans (h : ReportsStay s t) (g : ReportsStay t u) : ReportsStay s u := fun G hG => (g G hG).trans (h G hG)

theorem ReportsStay.on (h : ReportsStay s t) {G : Fld} (hG : G ∈ reportFields) : t.on pgDmap G = s.on pgDmap G := by
  rw [State.on, State.on, h G hG]

theorem reportsStay_live (h : ReportsStay s0 s) (hl : t.live = s.live) : ReportsStay s0 t :=
  h.trans fun _ _ => get_of_word (by simp only [State.word, hl])

theorem reportsStay_of_mapStays (h : ReportsStay s0 s) (ht : MapStays s t) : ReportsStay s0 t :=
  h.trans fun G hG => ht.get (reportFields_apart G hG).1

theorem reportsStay_set {F : Fld} {v : Nat} (hF : F ∈ followingFields) (h : ReportsStay s0 s) :
    ReportsStay s0 (s.set pgDmap F v) :=
  h.trans fun G hG => have ⟨_, hfit, hapart⟩ := reportFields_apart G hG; get_set_apart s v hfit (hapart F hF)

theorem reportsStay_ite {c : Prop} [Decidable c] (ht : c → ReportsStay s0 s) (hu : ¬c → ReportsStay s0 t) :
    ReportsStay s0 (if c then s else t) := keeps_ite (P := ReportsStay s0) ht hu

theorem reportsStay_raiseEvent {e : Event} (h : ReportsStay s0 s) : ReportsStay s0 (raiseEvent e s) :=
  reportsStay_of_mapStays h (mapStays_raiseEvent (.refl s))

theorem reportsStay_mapRegs (h : ReportsStay s0 s) : ReportsStay s0 (mapRegs s) := by
  unfold mapRegs showRecord
  iterate 7 refine reportsStay_set (by decide) ?_
  exact h

theorem reportsStay_appendA {r : MapRec} (h : ReportsStay s0 s) : ReportsStay s0 (appendA r s) :=
  reportsStay_mapRegs (reportsStay_live h ((flashStep_followA r _).live.trans (slotA_frame r s).1))

theorem reportsStay_commitRec {e : MapEntry} {n : Nat} (h : ReportsStay s0 s) : ReportsStay s0 (commitRec e n s).1 := by
  unfold commitRec
  split
  · exact h
  · extract_lets s1
    have h1 : ReportsStay s0 s1 := reportsStay_ite (fun _ => h) fun _ => reportsStay_live h (writeA_frame _ _ _ s).1
    split
    · exact h1
    · extract_lets r
      have h2 : ReportsStay s0 (raiseEvent { code := 0x3006, alert := some acMap } (s1.set pgDmap DMAP.MAP_STATUS_MAP_FULL 1)) :=
        reportsStay_raiseEvent (reportsStay_set (by decide) h1)
      split
      · exact reportsStay_appendA h1
      · exact reportsStay_ite (fun _ => h2) fun _ => reportsStay_live h2 rfl

theorem reportsStay_fieldRecord {f : Nat} (h : ReportsStay s0 s) : ReportsStay s0 (fieldRecord s f) := by
  unfold fieldRecord
  refine reportsStay_ite (fun _ => h) fun _ => ?_
  split
  · exact reportsStay_commitRec h
  · exact h

theorem reportsStay_fieldRecords (h : ReportsStay s0 s) : ReportsStay s0 (fieldRecords s) :=
  keeps_foldl (P := ReportsStay s0) (fun _ _ _ ht => reportsStay_fieldRecord ht) h

theorem reportsStay_settleEos (h : ReportsStay s0 s) : ReportsStay s0 (settleEos s) := by
  have h1 : ∀ v, ReportsStay s0 (s.set pgDmap DMAP.SERVICE_EOS_NOW v) := fun _ => reportsStay_set (by decide) h
  exact reportsStay_ite (fun _ => reportsStay_raiseEvent (reportsStay_set (by decide) (h1 _))) fun _ => h1 _

/-- The end of an edge leaves what the commands have reported. -/
theorem reportsStay_settle {r : State} (h : ReportsStay s0 s) : ReportsStay s0 (settle r s) := by
  have h1 : MapStays s (doneSeen (doneAlert r (summaries r s))) := mapStays_doneSeen (mapStays_doneAlert (mapStays_summaries (.refl s)))
  rw [settle_eq]
  exact reportsStay_live (reportsStay_settleEos (reportsStay_of_mapStays h h1)) (orderEdge_frame r _).1

/-! ## The records of copy A -/

theorem recsA_of_mapStays (h : MapStays s t) : recsA t = recsA s := recsA_of_map h.map

theorem hasRec_of_map (h : t.map = s.map) (k f l : Nat) : hasRec t k f l = hasRec s k f l := by
  rw [hasRec, hasRec, recsA_of_map h]

theorem settleEos_map (s : State) : (settleEos s).map = s.map := lingers_settleEos (lingers_map s.map) rfl

/-! ### The end of a command that changes the map -/

theorem reportsStay_onMap (g : State → State) (s : State) : ReportsStay (g s) (onMap g s) :=
  reportsStay_ite (fun _ => reportsStay_settle (.refl _)) fun _ => reportsStay_settleEos (.refl _)

theorem recsA_onMap_of_same {g : State → State} (h : recsA (g s) = recsA s) : recsA (onMap g s) = recsA s := by
  unfold onMap
  split
  · exact recsA_settle_of_same h
  · exact (recsA_of_map (settleEos_map _)).trans h

theorem hasRec_onMap (g : State → State) (s : State) (k f l : Nat) : hasRec (onMap g s) k f l = hasRec (g s) k f l := by
  unfold onMap
  split
  · exact hasRec_settle s (g s) k f l
  · exact hasRec_of_map (settleEos_map _) k f l

/-! ### FIELD records -/

theorem fieldRecords_of_same (hd : NoFieldRecordDue s) (hrec : recsA u = recsA s) (hun : u.m.unrecorded = s.m.unrecorded) :
    fieldRecords u = u := by
  refine foldl_fixed fun f hf => ?_
  have hall : allTilesRecorded s f = true := by
    rw [← (List.mem_filter.1 hf).2]
    simp only [allTilesRecorded, tileRecorded, hasRec, hrec]
  have hret : fieldRetired u f = true := by
    rw [← hd f hall]
    simp only [fieldRetired, retiredRecs, hrec, hun]
  simp [fieldRecord, hret]

/-- The FIELD records of an edge, with the retirements that they are where the wafer is up. -/
def fieldsFollow (s0 s : State) : State := if pwrState s0 = 1 ∨ pwrState s0 = 2 then newFieldRecords s0 s else fieldRecords s

theorem fieldsFollow_of_same (hd : NoFieldRecordDue s) (hrec : recsA u = recsA s) (hun : u.m.unrecorded = s.m.unrecorded) :
    fieldsFollow s u = u := by
  rw [fieldsFollow, newFieldRecords_of_same hd hrec hun, fieldRecords_of_same hd hrec hun, ite_self]

theorem mapStays_fieldsFollow (s0 s : State) : MapStays (fieldRecords s) (fieldsFollow s0 s) :=
  mapStays_ite (fun _ => mapStays_foldl (fun _ ht => mapStays_requestRetire ht) _ (.refl _)) fun _ => .refl _

/-- An item has its record in copy A, whose area holds no more than n slots. -/
def RecordedWithin (k f l n : Nat) (s : State) : Prop := hasRec s k f l = true ∧ ∃ x, mapA s = some x ∧ x.slots.length ≤ n

theorem mapA_appendA (r : MapRec) (s : State) : mapA (appendA r s) = (mapA s).map (addSlot r) := by
  have hareas := (flashStep_followA r (slotA r s)).areas
  obtain ⟨h0, h1, hid⟩ : _ ∧ _ ∧ _ := by simpa only [Prod.mk.injEq] using hareas
  rw [← mapA_slotA, appendA_eq, mapA, (mapRegs_frame _).1, h0, h1, hid, mapA]

/-- A slot behind the others takes no record away. -/
theorem recs_subset_addSlot (r : MapRec) (x : MapArea) : x.recs ⊆ (addSlot r x).recs := by
  have hread : x.read <+: (addSlot r x).read := by
    simp only [MapArea.read, addSlot, List.takeWhile_append]
    split
    · exact (List.takeWhile_prefix _).trans (List.prefix_append _ _)
    · exact List.prefix_rfl
  exact (hread.filterMap _).subset

variable {k f l n : Nat}

theorem recordedWithin_appendA (r : MapRec) (h : RecordedWithin k f l n s) : RecordedWithin k f l (n + 1) (appendA r s) := by
  obtain ⟨hrec, x, hA, hx⟩ := h
  have hA' : mapA (appendA r s) = some (addSlot r x) := by rw [mapA_appendA, hA, Option.map_some]
  refine ⟨?_, _, hA', by simpa [addSlot] using hx⟩
  obtain ⟨q, hq, hqt⟩ := List.any_eq_true.1 hrec
  refine List.any_eq_true.2 ⟨q, ?_, hqt⟩
  rw [recsA, hA] at hq
  rw [recsA, hA']
  exact recs_subset_addSlot r x hq

theorem recordedWithin_fieldRecord (g : Nat) (hn : n < 4094) (h : RecordedWithin k f l n s) :
    RecordedWithin k f l (n + 1) (fieldRecord s g) := by
  have hmore : RecordedWithin k f l (n + 1) s := have ⟨hrec, x, hA, hx⟩ := h; ⟨hrec, x, hA, by omega⟩
  unfold fieldRecord
  split
  · exact hmore
  split
  · have ⟨_, x, hA, hx⟩ := h
    rw [commitRec_of_room _ _ hA (by omega)]
    exact recordedWithin_appendA _ h
  · exact hmore

/-- The FIELD records of an edge take no record away while there is room for one of every field. -/
theorem recordedWithin_fieldRecords (hn : n + 56 ≤ 4094) (h : RecordedWithin k f l n s) :
    hasRec (fieldRecords s) k f l = true := by
  have hfold : ∀ (fs : List Nat) (n : Nat) (u : State), n + fs.length ≤ 4094 → RecordedWithin k f l n u →
      hasRec (fs.foldl fieldRecord u) k f l = true := fun fs => by
    induction fs with
    | nil => exact fun _ _ _ hu => hu.1
    | cons g fs ih =>
      intro n u hlen hu
      rw [List.length_cons] at hlen
      exact ih (n + 1) _ (by omega) (recordedWithin_fieldRecord g (by omega) hu)
  have hlen : ((List.range 56).filter (allTilesRecorded s)).length ≤ 56 :=
    (List.length_filter_le _ _).trans_eq List.length_range
  exact hfold _ n s (by omega) h

end Sys2Proof.Machine
end

section
namespace Sys2Proof.Machine
open Sys2Proof

variable {s t u : State} {x a b : MapArea} {d : Nat} {n : Nat} {k f l : Nat}

/-! ## RETIRE_CMD (R213 to R215) -/

/-! ### The record of a valid request -/

theorem bits_lt (v lo w : Nat) : bits v lo w < 2 ^ w := Nat.mod_lt _ (Nat.two_pow_pos w)

theorem kind_of_descOk (h : descOk d = true) : bits d 18 6 < 56 ∧ 1 ≤ bits d 28 4 ∧ bits d 28 4 ≤ 4 := by
  unfold descOk at h
  obtain ⟨hf, hk⟩ := (Bool.and_eq_true ..).mp h
  refine ⟨of_decide_eq_true hf, ?_⟩
  generalize bits d 28 4 = kind at hk
  split at hk
  case h_5 => cases hk
  all_goals exact ⟨by decide, by decide⟩

/-- The field under which a lane is recorded (R189). -/
theorem laneField_lt {g loc : Nat} (hg : g < 56) (h : laneLocOk g loc = true) :
    (recordEnd g (endOfCode (bits loc 16 2) (bits loc 10 6))).1 < 64 := by
  obtain ⟨-, h⟩ := (Bool.and_eq_true ..).mp h
  generalize bits loc 16 2 = c, bits loc 10 6 = i at h ⊢
  obtain _ | _ | _ | c := c
  case zero =>
    have hi : i < 18 := of_decide_eq_true ((Bool.and_eq_true ..).mp h).1
    exact recordEnd_field_lt hg (show i < 92 by omega)
  case succ.zero =>
    have hi : i < 26 := of_decide_eq_true ((Bool.and_eq_true ..).mp h).1
    exact recordEnd_field_lt hg (show 36 + i < 92 by omega)
  case succ.succ.zero =>
    have hi : i < 4 := of_decide_eq_true h
    exact recordEnd_field_lt hg (show 88 + i < 92 by omega)
  case succ.succ.succ =>
    have hrec : recordEnd g (92 + i) = (g, 92 + i) := by
      unfold recordEnd
      grind
    change (recordEnd g (92 + i)).1 < 64
    rw [hrec]
    exact hg.trans (by decide)

theorem field_descEntry_lt (h : descOk d = true) (remark : Nat) : (descEntry d remark).field < 64 := by
  obtain ⟨hf, -, -⟩ := kind_of_descOk h
  unfold descEntry
  dsimp only
  split
  · next h3 =>
    unfold descOk at h
    rw [h3] at h
    exact laneField_lt hf ((Bool.and_eq_true ..).mp h).2
  · omega

/-- The record of a valid request fits its bits. -/
theorem ok_requestRecord (h : descOk d = true) {remark : Nat} (hr : remark < 256) (x : MapArea) (n : Nat) :
    (entryRec (descEntry d remark) x n).ok = true := by
  obtain ⟨-, hk1, hk4⟩ := kind_of_descOk h
  have hf := field_descEntry_lt h remark
  have hl := bits_lt d 0 18
  simp only [MapRec.ok, Bool.and_eq_true, decide_eq_true_eq]
  exact ⟨⟨⟨⟨⟨⟨hk1, hk4⟩, le_rfl⟩, hf⟩, hl⟩, hr⟩, Nat.mod_lt _ (by decide)⟩

/-! ### A valid request -/

/-- The entry that the staged request asks for. -/
abbrev requestEntry (s : State) : MapEntry := descEntry (s.get pgDmap DMAP.RETIRE_DESC_DESC) (s.get pgDmap DMAP.RETIRE_REMARK_REMARK)

/-- A request leaves its RESULT. -/
abbrev withResult (v : Nat) (s : State) : State := s.set pgDmap DMAP.RETIRE_STATUS_RESULT v

theorem result_withResult {v : Nat} (hv : v < 4) (s : State) : (withResult v s).get pgDmap DMAP.RETIRE_STATUS_RESULT = v :=
  (get_set_same _ _ _ _ (by decide)).trans (Nat.mod_eq_of_lt hv)

theorem retireRequest_invalid (h : descOk (s.get pgDmap DMAP.RETIRE_DESC_DESC) = false) : retireRequest s =
    withResult 2 (raiseEvent { code := 0x3007, arg0 := s.get pgDmap DMAP.RETIRE_DESC_DESC, arg1 := 2 } s) := by
  unfold retireRequest
  exact if_neg (by simp [h])

theorem retireRequest_valid (h : descOk (s.get pgDmap DMAP.RETIRE_DESC_DESC) = true) :
    retireRequest s = fieldsFollow s (retireValid (s.get pgDmap DMAP.RETIRE_DESC_DESC) s) := by
  unfold retireRequest
  exact if_pos h

theorem retireValid_unmapped (d : Nat) (h : mapA s = none) : retireValid d s =
    withResult 3 (raiseEvent (retireEvent d 3 (descEntry d (s.get pgDmap DMAP.RETIRE_REMARK_REMARK))) s) := by
  unfold retireValid
  exact if_pos (by simp [h])

theorem retireValid_of_added {e : MapEntry} (he : e = descEntry d (s.get pgDmap DMAP.RETIRE_REMARK_REMARK)) (hA : mapA s = some x)
    (hno : hasRec s e.kind e.field e.locator = false) (hroom : x.slots.length < 4094) : ∃ n, retireValid d s =
      withResult 0 (retireNow e.kind e.field e.locator
        (raiseEvent { retireEvent d 0 e with map := true } (appendA (entryRec e x n) s))) := by
  subst he
  refine ⟨seqFor s (retireEvent d 0 (descEntry d (s.get pgDmap DMAP.RETIRE_REMARK_REMARK))), ?_⟩
  unfold retireValid
  simp only [hA, Option.isNone_some, Bool.false_eq_true, if_false, addEntry, hno]
  rw [commitRec_of_room _ _ hA hroom]
  rfl

/-- The event of an entry that stands already (R750). -/
def duplicateEvent (ev : Event) (e : MapEntry) : Event :=
  { code := 0x3008, field := e.field, tile := ev.tile, arg0 := recDesc ⟨0, e.kind, e.source, e.field, e.locator, 0, 0⟩ }

/-- An event whose entry stands already brings a second event, and no record. -/
theorem raiseEntry_of_recorded {e : MapEntry} (ev : Event) (h : hasRec s e.kind e.field e.locator = true) :
    ∃ es, (raiseEntry ev e s).1 = raiseAll es s := by
  refine ⟨[ev, duplicateEvent ev e], ?_⟩
  simp only [raiseEntry, addEntry, h, if_true, duplicateEvent]

theorem retireValid_of_recorded {e : MapEntry} (he : e = descEntry d (s.get pgDmap DMAP.RETIRE_REMARK_REMARK)) (hA : mapA s = some x)
    (hyes : hasRec s e.kind e.field e.locator = true) : ∃ es, retireValid d s = withResult 1 (raiseAll es s) := by
  obtain ⟨es, hes⟩ := raiseEntry_of_recorded (retireEvent d 1 e) hyes
  subst he
  refine ⟨es, ?_⟩
  rw [← hes]
  unfold retireValid
  simp only [hA, Option.isNone_some, Bool.false_eq_true, if_false, addEntry, hyes, if_true]

/-! ### What follows a request -/

/-- The edge of a RETIRE_CMD. -/
def retireEdge (s : State) : State := onMap (fun u => finishTests (retireRequest u)) s

theorem exec_retireCmd (hs : s.power.standby = true) (hb : s.on pgDmap DMAP.RETIRE_STATUS_BUSY = false) :
    exec .retireCmd s = .next (retireEdge s) := by
  have hcmd : retireCmd s = retireEdge s := if_neg (by simp [hb])
  exact (ifStandby_on hs).trans (congrArg _ hcmd)

theorem reportsStay_retireEdge (s : State) : ReportsStay (retireRequest s) (retireEdge s) :=
  (reportsStay_of_mapStays (.refl _) (mapStays_finishTests (.refl _))).trans (reportsStay_onMap _ s)

theorem recsA_retireEdge_of_same (h : recsA (retireRequest s) = recsA s) : recsA (retireEdge s) = recsA s :=
  recsA_onMap_of_same ((recsA_of_mapStays (mapStays_finishTests (.refl _))).trans h)

theorem hasRec_retireEdge (s : State) (k f l : Nat) : hasRec (retireEdge s) k f l = hasRec (retireRequest s) k f l :=
  (hasRec_onMap _ s k f l).trans (hasRec_of_map (mapStays_finishTests (.refl _)).map k f l)

theorem result_retireEdge {v : Nat} (h : (retireRequest s).get pgDmap DMAP.RETIRE_STATUS_RESULT = v) :
    (retireEdge s).get pgDmap DMAP.RETIRE_STATUS_RESULT = v := (reportsStay_retireEdge s _ (by decide)).trans h

theorem reportsStay_fieldsFollow (s0 s : State) : ReportsStay s (fieldsFollow s0 s) :=
  reportsStay_of_mapStays (reportsStay_fieldRecords (.refl s)) (mapStays_fieldsFollow s0 s)

/-- The RESULT of a valid request, whatever FIELD records it brings with it. -/
theorem result_of_valid {v : Nat} (hok : descOk (s.get pgDmap DMAP.RETIRE_DESC_DESC) = true) (hv : v < 4)
    (h : retireValid (s.get pgDmap DMAP.RETIRE_DESC_DESC) s = withResult v t) :
    (retireEdge s).get pgDmap DMAP.RETIRE_STATUS_RESULT = v := by
  refine result_retireEdge ?_
  rw [retireRequest_valid hok, reportsStay_fieldsFollow s _ _ (by decide), h, result_withResult hv]

theorem recordedWithin_of_map (h : t.map = s.map) (hs : RecordedWithin k f l n s) : RecordedWithin k f l n t := by
  obtain ⟨hrec, x, hA, hx⟩ := hs
  exact ⟨(hasRec_of_map h k f l).trans hrec, x, by rw [← hA, mapA, mapA, h], hx⟩

/-! ### The clauses -/

theorem retireCmd_invalid (hs : s.power.standby = true) (hb : s.on pgDmap DMAP.RETIRE_STATUS_BUSY = false)
    (hok : descOk (s.get pgDmap DMAP.RETIRE_DESC_DESC) = false) :
    ∃ s', exec .retireCmd s = .next s' ∧ s'.get pgDmap DMAP.RETIRE_STATUS_RESULT = 2 ∧ recsA s' = recsA s := by
  have hreq := retireRequest_invalid hok
  refine ⟨_, exec_retireCmd hs hb, result_retireEdge ?_, recsA_retireEdge_of_same ?_⟩
  · rw [hreq, result_withResult (by decide)]
  · rw [hreq]
    exact recsA_of_map (raiseEvent_map _ s)

theorem retireCmd_unmapped (hs : s.power.standby = true) (hb : s.on pgDmap DMAP.RETIRE_STATUS_BUSY = false)
    (hok : descOk (s.get pgDmap DMAP.RETIRE_DESC_DESC) = true) (hA : mapA s = none) :
    ∃ s', exec .retireCmd s = .next s' ∧ s'.get pgDmap DMAP.RETIRE_STATUS_RESULT = 3 :=
  ⟨_, exec_retireCmd hs hb, result_of_valid hok (by decide) (retireValid_unmapped _ hA)⟩

theorem retireCmd_adds (hs : s.power.standby = true) (hb : s.on pgDmap DMAP.RETIRE_STATUS_BUSY = false)
    (hok : descOk (s.get pgDmap DMAP.RETIRE_DESC_DESC) = true) (hA : mapA s = some x) (hx : NoneErased x)
    (hroom : x.slots.length + 57 ≤ 4094)
    (hno : hasRec s (requestEntry s).kind (requestEntry s).field (requestEntry s).locator = false) :
    ∃ s', exec .retireCmd s = .next s' ∧ s'.get pgDmap DMAP.RETIRE_STATUS_RESULT = 0 ∧
      hasRec s' (requestEntry s).kind (requestEntry s).field (requestEntry s).locator = true := by
  obtain ⟨n, hreq⟩ := retireValid_of_added rfl hA hno (by omega)
  refine ⟨_, exec_retireCmd hs hb, result_of_valid hok (by decide) hreq, ?_⟩
  have hrec : hasRec (appendA (entryRec (requestEntry s) x n) s) (requestEntry s).kind (requestEntry s).field
      (requestEntry s).locator = true := by
    have hnew := (recorded_addEntry n hA hx (by omega) (ok_requestRecord hok (get_lt s pgDmap DMAP.RETIRE_REMARK_REMARK) x n)).recorded
    simpa only [addEntry, hno, Bool.false_eq_true, if_false, commitRec_of_room _ n hA (show x.slots.length < 4094 by omega)] using hnew
  have hadd : RecordedWithin (requestEntry s).kind (requestEntry s).field (requestEntry s).locator (x.slots.length + 1)
      (appendA (entryRec (requestEntry s) x n) s) :=
    ⟨hrec, _, by rw [mapA_appendA, hA, Option.map_some], by simp [addSlot]⟩
  have hvalid := recordedWithin_of_map (t := retireValid (s.get pgDmap DMAP.RETIRE_DESC_DESC) s)
    (by rw [hreq]; exact (mapStays_retireNow (mapStays_raiseEvent (.refl _))).map) hadd
  rw [hasRec_retireEdge, retireRequest_valid hok, hasRec_of_map (mapStays_fieldsFollow s _).map]
  exact recordedWithin_fieldRecords (by omega) hvalid

theorem retireCmd_duplicate (hs : s.power.standby = true) (hb : s.on pgDmap DMAP.RETIRE_STATUS_BUSY = false)
    (hok : descOk (s.get pgDmap DMAP.RETIRE_DESC_DESC) = true) (hA : mapA s = some x)
    (hyes : hasRec s (requestEntry s).kind (requestEntry s).field (requestEntry s).locator = true) :
    ∃ s', exec .retireCmd s = .next s' ∧ s'.get pgDmap DMAP.RETIRE_STATUS_RESULT = 1 ∧
      (NoFieldRecordDue s → recsA s' = recsA s) := by
  obtain ⟨es, hreq⟩ := retireValid_of_recorded rfl hA hyes
  refine ⟨_, exec_retireCmd hs hb, result_of_valid hok (by decide) hreq, fun hd => recsA_retireEdge_of_same ?_⟩
  obtain ⟨hm, hmap⟩ := onlyRegs_raiseAll es s
  have hrec : recsA (withResult 1 (raiseAll es s)) = recsA s := recsA_of_map hmap
  rw [retireRequest_valid hok, hreq, fieldsFollow_of_same hd hrec (congrArg MainSt.unrecorded hm), hrec]

/-! ## MAP_SYNC (R795) -/

theorem askSync_map (s : State) : (askSync s).map = { s.map with syncDue := s.map.following } := rfl

/-- Without a reconciliation in this wake, FLASH_FAULT alone clears. -/
theorem mapSync_clears (fl : FlashProbe) (hs : s.power.standby = true) (hf : s.map.following = false) :
    ∃ s', exec (.mapSync fl) s = .next s' ∧ s'.on pgDmap DMAP.MAP_STATUS_FLASH_FAULT = false ∧
      s'.map = { s.map with syncDue := false } ∧
      ∀ a, a ≠ pgDmap + DMAP.MAP_STATUS_FLASH_FAULT.off → s'.word a = s.word a := by
  have hsync : mapSync fl s = askSync s := if_neg (by simp [askSync_map, hf])
  refine ⟨askSync s, (ifStandby_on hs).trans (congrArg _ hsync), on_set_zero _ _ _ (by decide), ?_, fun a ha => word_set_other _ _ ha⟩
  rw [askSync_map, hf]

/-! ### The probe and the comparison -/

theorem mapB_of_present (h : s.on pgDmap DMAP.MAP_STATUS_FLASH_ABSENT = false) :
    mapB s = currentOf s.map.waferId s.map.b0 s.map.b1 := if_neg (by simp [h])

theorem present_of_mapB (h : mapB s = some b) : s.on pgDmap DMAP.MAP_STATUS_FLASH_ABSENT = false := by
  by_contra hon
  rw [mapB, if_pos (by simpa using hon)] at h
  cases h

theorem ixB_of_mapB (h : mapB s = some b) : (ixB s).isSome = true := by
  rw [mapB_of_present (present_of_mapB h)] at h
  exact Option.isSome_map.symm.trans (Option.isSome_of_eq_some h)

theorem stopFlash_of_idle (h : s.map.flashOp = none) : stopFlash s =
    { s with map := { s.map with flashOp := none, bQueue := [], bWhole := none, following := false, syncDue := false } } := by
  simp only [stopFlash, h]

/-- A probe of a flash that answers, with a current area of this wafer's (R201, R202). -/
theorem probeFlash_of_current (j : Word) (h : (ixB s).isSome = true) : probeFlash false true j s =
    (({ s with map := { s.map with flashStopped := false, flashOp := none, sent := probeCmds false true } }.set pgDmap
      DMAP.MAP_STATUS_FLASH_ABSENT 0).set pgDmap DMAP.MAP_STATUS_FLASH_FOREIGN 0) := by
  have hix : ∀ v, (ixB ({ s with map := { s.map with flashStopped := false, flashOp := none, sent := probeCmds false true } }.set
      pgDmap DMAP.MAP_STATUS_FLASH_ABSENT v)).isNone = false := fun v => Option.isNone_eq_false_iff.2 h
  unfold probeFlash
  simp only [hix, Bool.not_true, Bool.and_false, Bool.false_and, Bool.false_eq_true, if_false, bit]

/-- The torn slots counted at a reconciliation, with what waited for copy B dropped. -/
def tornCounted (s : State) : State :=
  countTorn { s with map := { s.map with bQueue := [], bWhole := none, flashOp := none, flashStopped := false } }

/-- The registers of a reconciliation that finds the same records in both copies (R204). -/
def agreed (x : MapArea) (s : State) : State :=
  mapRegs (((tornCounted s).set pgDmap DMAP.GRADE_GRADE x.grade.toNat).set pgDmap DMAP.MAP_STATUS_RECONCILE 0)

/-- Copy B follows copy A from then on. -/
def followed (s : State) : State := { s with map := { s.map with following := true } }

theorem followed_frame (s : State) : (followed s).live = s.live ∧ (followed s).m = s.m := ⟨rfl, rfl⟩

theorem get_tornCounted {G : Fld} (hG : G ∈ reportFields) (s : State) : (tornCounted s).get pgDmap G = s.get pgDmap G :=
  get_set_apart _ _ (reportFields_apart G hG).2.1 (.inl (by revert G; decide))

theorem mapB_tornCounted (hB : mapB s = some b) : mapB (tornCounted s) = some b := by
  have habs := present_of_mapB hB
  rw [mapB_of_present habs] at hB
  rw [mapB_of_present (by rw [State.on, get_tornCounted (by decide)]; exact habs)]
  exact hB

theorem reconcile_of_same (hA : mapA s = some a) (hB : mapB s = some b) (h : sameRecords a.recs b.recs = true) :
    reconcile s = some (fieldRecords (followed (agreed a s))) := by
  have hA' : mapA (tornCounted s) = some a := hA
  have hres : resolve (tornCounted s) = some (agreed a s) := by
    unfold resolve
    simp only [hA', mapB_tornCounted hB, h, if_true]
    rfl
  exact congrArg (Option.map _) hres

theorem get_agreed {G : Fld} (hG : G ∈ [DMAP.MAP_STATUS_FLASH_FAULT, DMAP.MAP_STATUS_FLASH_ABSENT]) (x : MapArea) (s : State) :
    (agreed x s).get pgDmap G = s.get pgDmap G := by
  have hrep : G ∈ reportFields := List.mem_cons_of_mem _ (List.mem_cons_of_mem _ hG)
  have hfit := (reportFields_apart G hrep).2.1
  rw [agreed, reportsStay_mapRegs (.refl _) G hrep, get_set_apart _ _ hfit (by revert G; decide),
    get_set_apart _ _ hfit (by revert G; decide), get_tornCounted hrep]

theorem tornCounted_m (s : State) : (tornCounted s).m = s.m := by
  unfold tornCounted countTorn
  rw [set_m]

theorem agreed_frame (x : MapArea) (s : State) : (agreed x s).m = s.m ∧ (agreed x s).map = (tornCounted s).map := by
  unfold agreed
  obtain ⟨hmap, hm⟩ := mapRegs_frame (((tornCounted s).set pgDmap DMAP.GRADE_GRADE x.grade.toNat).set pgDmap
    DMAP.MAP_STATUS_RECONCILE 0)
  exact ⟨by rw [hm, set_m, set_m, tornCounted_m], by rw [hmap, set_map, set_map]⟩

theorem mapA_agreed (x : MapArea) (s : State) : mapA (followed (agreed x s)) = mapA s := by
  have hmap : (followed (agreed x s)).map = { (agreed x s).map with following := true } := rfl
  rw [mapA, hmap, (agreed_frame x s).2]
  rfl

/-- What a MAP_SYNC with copies that hold the same records reports, and copy A's records. -/
structure Synced (s t : State) : Prop where
  reconcile : t.get pgDmap DMAP.MAP_STATUS_RECONCILE = 0
  fault : t.on pgDmap DMAP.MAP_STATUS_FLASH_FAULT = false
  present : t.on pgDmap DMAP.MAP_STATUS_FLASH_ABSENT = false
  records : NoFieldRecordDue s → recsA t = recsA s

theorem Synced.of_reportsStay (h : Synced s t) (hr : ReportsStay t u) (hrec : recsA t = recsA s → recsA u = recsA s) : Synced s u :=
  ⟨(hr _ (by decide)).trans h.reconcile, (hr.on (by decide)).trans h.fault, (hr.on (by decide)).trans h.present,
    fun hd => hrec (h.records hd)⟩

theorem synced_reconcile (hm : t.m = s.m) (hA : mapA t = mapA s) (hfault : t.on pgDmap DMAP.MAP_STATUS_FLASH_FAULT = false)
    (habs : t.on pgDmap DMAP.MAP_STATUS_FLASH_ABSENT = false) (x : MapArea) :
    Synced s (fieldRecords (followed (agreed x t))) := by
  have hreg : ReportsStay (agreed x t) (fieldRecords (followed (agreed x t))) :=
    reportsStay_fieldRecords (reportsStay_live (.refl _) (followed_frame _).1)
  have hrec : recsA (followed (agreed x t)) = recsA s := by rw [recsA, mapA_agreed, hA, recsA]
  have hrecon : (agreed x t).get pgDmap DMAP.MAP_STATUS_RECONCILE = 0 :=
    (reportsStay_mapRegs (.refl _) _ (by decide)).trans (get_set_same _ _ _ _ (by decide))
  refine ⟨(hreg _ (by decide)).trans hrecon, ?_, ?_, fun hd => ?_⟩
  · rw [hreg.on (by decide), State.on, get_agreed (by decide)]
    exact hfault
  · rw [hreg.on (by decide), State.on, get_agreed (by decide)]
    exact habs
  · have hun : (followed (agreed x t)).m.unrecorded = s.m.unrecorded := by
      rw [(followed_frame _).2, (agreed_frame x t).1, hm]
    rw [fieldRecords_of_same hd hrec hun, hrec]

/-! ### The whole command -/

/-- The state in which the copies are probed: FLASH_FAULT has cleared, and no sync is due any more. -/
def syncBegun (s : State) : State := { askSync s with map := { (askSync s).map with syncDue := false } }

theorem synced_syncCopies {fl : FlashProbe} (hmeets : fl.meets = true) (hop : s.map.flashOp = none) (hA : mapA s = some a)
    (hB : mapB s = some b) (h : sameRecords a.recs b.recs = true) : Synced s (syncCopies fl (syncBegun s)) := by
  have hcur : (ixB s).isSome = true := ixB_of_mapB hB
  have hstop := stopFlash_of_idle (s := syncBegun s) hop
  have hprobe := probeFlash_of_current fl.jedec (s := stopFlash (syncBegun s)) (by rw [hstop]; exact hcur)
  generalize ht : probeFlash false true fl.jedec (stopFlash (syncBegun s)) = t at hprobe
  have hm : t.m = s.m := by rw [hprobe, hstop]; rfl
  have hAt : mapA t = mapA s := by rw [hprobe, hstop]; rfl
  have hfault : t.on pgDmap DMAP.MAP_STATUS_FLASH_FAULT = false := by
    rw [hprobe, hstop, State.on, get_set_apart _ _ (by decide) (by decide), get_set_apart _ _ (by decide) (by decide)]
    exact on_set_zero s _ _ (by decide)
  have habs : t.on pgDmap DMAP.MAP_STATUS_FLASH_ABSENT = false := by
    rw [hprobe, State.on, get_set_apart _ _ (by decide) (by decide)]
    exact on_set_zero _ _ _ (by decide)
  have hBt : mapB t = some b := by
    rw [← hB, mapB_of_present habs, mapB_of_present (present_of_mapB hB), hprobe, hstop]
    rfl
  have hrec := synced_reconcile hm hAt hfault habs a
  unfold syncCopies
  rw [hmeets, ht, reconcile_of_same (hAt.trans hA) hBt h]
  have hfold := mapStays_foldl (fun {u} r hu => mapStays_retireNow (kind := r.kind) (field := r.field) (loc := r.locator) hu)
    ((effect (recsA (fieldRecords (followed (agreed a t))))).filter fun r => !(effect (recsA (syncBegun s))).any r.same)
    (.refl (fieldRecords (followed (agreed a t))))
  exact hrec.of_reportsStay (reportsStay_of_mapStays (.refl _) hfold) fun h => (recsA_of_mapStays hfold).trans h

theorem mapSync_agrees {fl : FlashProbe} (hs : s.power.standby = true) (hf : s.map.following = true) (hmeets : fl.meets = true)
    (hop : s.map.flashOp = none) (hA : mapA s = some a) (hB : mapB s = some b) (h : sameRecords a.recs b.recs = true) :
    ∃ s', exec (.mapSync fl) s = .next s' ∧ Synced s s' := by
  have hsync : mapSync fl s = settle (askSync s) (finishTests (syncCopies fl (syncBegun s))) :=
    if_pos (by rw [askSync_map, hf])
  refine ⟨_, (ifStandby_on hs).trans (congrArg _ hsync), ?_⟩
  have hdone := mapStays_finishTests (.refl (syncCopies fl (syncBegun s)))
  refine (synced_syncCopies hmeets hop hA hB h).of_reportsStay (reportsStay_settle (reportsStay_of_mapStays (.refl _) hdone))
    fun hrec => recsA_settle_of_same ((recsA_of_mapStays hdone).trans hrec)

end Sys2Proof.Machine
end

section
namespace Sys2Proof.Machine
open Sys2Proof

variable {s t : State} {x b : MapArea} {r : MapRec} {y : MapSlot} {w : WholeCopy} {i : Nat} {again : Bool}

/-! ## READ_INDEX (R221) -/

/-- The 128 bits of the record that READ_INDEX selects, 0 where there is none. -/
def selectedBits (s : State) : Nat := ((recsA s)[s.get pgDmap DMAP.READ_INDEX_INDEX]?.map recBits).getD 0

/-- The four words of the window. -/
def showBits (w : Nat) (s : State) : State := (((s.set pgDmap DMAP.READ_WORD0_WORD w).set pgDmap DMAP.READ_WORD1_WORD
  (w / 2 ^ 32)).set pgDmap DMAP.READ_WORD2_WORD (w / 2 ^ 64)).set pgDmap DMAP.READ_WORD3_WORD (w / 2 ^ 96)

theorem showRecord_eq (s : State) : showRecord s = showBits (selectedBits s) s := by
  unfold selectedBits
  cases h : (recsA s)[s.get pgDmap DMAP.READ_INDEX_INDEX]? with
  | none =>
    rw [Option.map_none, Option.getD_none]
    simp only [showRecord, h, showBits]
  | some r =>
    rw [Option.map_some, Option.getD_some]
    simp only [showRecord, h, showBits]

/-- The window shows the four words of the selected record. -/
theorem window_showRecord (s : State) : (showRecord s).get pgDmap DMAP.READ_WORD0_WORD = selectedBits s % 2 ^ 32 ∧
    (showRecord s).get pgDmap DMAP.READ_WORD1_WORD = selectedBits s / 2 ^ 32 % 2 ^ 32 ∧
    (showRecord s).get pgDmap DMAP.READ_WORD2_WORD = selectedBits s / 2 ^ 64 % 2 ^ 32 ∧
    (showRecord s).get pgDmap DMAP.READ_WORD3_WORD = selectedBits s / 2 ^ 96 % 2 ^ 32 := by
  have hother : ∀ (u : State) {F G : Fld} (v : Nat), G.off ≠ F.off → (u.set pgDmap F v).get pgDmap G = u.get pgDmap G :=
    fun u _ _ v h => get_set_other u v (by omega)
  have hsame : ∀ (u : State) {F : Fld} (v : Nat), F.lo = 0 → F.width = 32 → (u.set pgDmap F v).get pgDmap F = v % 2 ^ 32 :=
    fun u _ v h0 h32 => (get_set_same u _ _ v (by omega)).trans (by rw [h32])
  rw [showRecord_eq, showBits]
  refine ⟨?_, ?_, ?_, hsame _ _ rfl rfl⟩
  · rw [hother _ _ (by decide), hother _ _ (by decide), hother _ _ (by decide), hsame _ _ rfl rfl]
  · rw [hother _ _ (by decide), hother _ _ (by decide), hsame _ _ rfl rfl]
  · rw [hother _ _ (by decide), hsame _ _ rfl rfl]

theorem selectedBits_setIndex (v : Word) (s : State) : selectedBits (s.set pgDmap DMAP.READ_INDEX_INDEX v.toNat) =
    ((recsA s)[v.toNat % 2 ^ DMAP.READ_INDEX_INDEX.width]?.map recBits).getD 0 := by
  rw [selectedBits, get_set_same _ _ _ _ (by decide)]
  rfl

theorem exec_readIndex (v : Word) (hs : s.power.standby = true) :
    exec (.readIndex v) s = .next (showRecord (s.set pgDmap DMAP.READ_INDEX_INDEX v.toNat)) :=
  (show exec _ s = execReadIndex v s from rfl).trans (ifStandby_on hs)

/-! ## The slots of copy B -/

/-- An area with one slot more. -/
def withSlot (y : MapSlot) (x : MapArea) : MapArea := { x with slots := x.slots ++ [y] }

theorem recs_withSlot (hx : NoneErased x) (hy : y.isErased = false) : (withSlot y x).recs = x.recs ++ y.record.toList := by
  have hall : ∀ z ∈ x.slots, (!z.isErased) = true := fun z hz => by simp [hx z hz]
  simp only [MapArea.recs, MapArea.read, withSlot]
  rw [List.takeWhile_append_of_pos hall, List.takeWhile_eq_self_iff.2 hall]
  cases hr : y.record <;> simp [hy, hr]

/-- Copy B is read from its areas, where the flash is present. -/
theorem mapB_congr (hl : t.on pgDmap DMAP.MAP_STATUS_FLASH_ABSENT = s.on pgDmap DMAP.MAP_STATUS_FLASH_ABSENT)
    (hm : (t.map.waferId, t.map.b0, t.map.b1) = (s.map.waferId, s.map.b0, s.map.b1)) : mapB t = mapB s := by
  simp only [Prod.mk.injEq] at hm
  obtain ⟨hid, h0, h1⟩ := hm
  rw [mapB, mapB, hl, hid, h0, h1]

theorem recsB_congr (h : mapB t = mapB s) : recsB t = recsB s := by rw [recsB, recsB, h]

theorem mapB_addSlotB (hB : mapB s = some b) : mapB (addSlotB y s) = some (withSlot y b) := by
  have habs := present_of_mapB hB
  have hix : mapB s = (ixB s).map fun i => if i = 0 then s.map.b0 else s.map.b1 := mapB_of_present habs
  have habs' : (addSlotB y s).on pgDmap DMAP.MAP_STATUS_FLASH_ABSENT = false := by
    rw [State.on, State.get, State.word, (addSlotB_frame y s).1]
    exact habs
  rw [mapB_of_present habs']
  rw [hix] at hB
  obtain ⟨i, hi, rfl⟩ := Option.map_eq_some_iff.1 hB
  have hcur : currentIx s.map.waferId s.map.b0 s.map.b1 = some i := hi
  cases i with
  | zero =>
    have hadd : addSlotB y s = setB 0 (withSlot y s.map.b0) s := by simp only [addSlotB, hi, withSlot]
    rw [hadd]
    exact congrArg (Option.map _) hcur
  | succ j =>
    have hadd : addSlotB y s = setB 1 (withSlot y s.map.b1) s := by simp only [addSlotB, hi, withSlot]
    rw [hadd]
    exact congrArg (Option.map _) hcur

theorem recsB_addSlotB (hB : mapB s = some b) (hb : NoneErased b) (hy : y.isErased = false) :
    recsB (addSlotB y s) = recsB s ++ y.record.toList := by
  simp only [recsB, mapB_addSlotB hB, hB, Option.map_some, Option.getD_some, recs_withSlot hb hy]

/-- A slot written leaves what waits for copy B. -/
theorem addSlotB_queue (y : MapSlot) (s : State) :
    (addSlotB y s).map.bWhole = s.map.bWhole ∧ (addSlotB y s).map.bQueue = s.map.bQueue := by
  unfold addSlotB
  split <;> exact ⟨rfl, rfl⟩

/-- The slot that a failed program leaves: torn, or the record where the program has completed late (R201). -/
def slotLeft (late : Bool) (r : MapRec) : MapSlot := if late then recSlot r else .torn

theorem slotLeft_holds (late : Bool) (hr : r.ok = true) : (slotLeft late r).isErased = false ∧
    (slotLeft late r).record.toList = if late = true then [r] else [] := by
  cases late with
  | true => exact ⟨isErased_of_record (record_recSlot hr), congrArg Option.toList (record_recSlot hr)⟩
  | false => exact ⟨rfl, rfl⟩

/-! ## The flash (R200, R201) -/

theorem exec_flashBusyPoll_erase (ok late : Bool) (hs : s.power.standby = true) (h : s.map.flashOp = some (.erase w i again)) :
    exec (.flashBusyPoll ok late) s =
      .next (sentPoll false (beginFlash (if i + 1 < 16 then .erase w (i + 1) false else .page w 0) s)) := by
  refine (show exec _ s = execFlashBusyPoll ok s late from rfl).trans ((ifStandby_on hs).trans ?_)
  simp only [flashDone, h]

theorem exec_flashBusyPoll_slot (ok late : Bool) (hs : s.power.standby = true) (h : s.map.flashOp = some (.slot r again)) :
    exec (.flashBusyPoll ok late) s = .next (sentPoll true (if ok then flashDone s else flashFault 2 late s)) := by
  refine (show exec _ s = execFlashBusyPoll ok s late from rfl).trans ((ifStandby_on hs).trans ?_)
  simp only [h]

theorem exec_flashOpTimeout_erase (late : Bool) (hs : s.power.standby = true) (h : s.map.flashOp = some (.erase w i false)) :
    exec (.flashOpTimeout late) s = .next (beginFlash (.erase w i true) s) := by
  refine (show exec _ s = execFlashOpTimeout s late from rfl).trans ((ifStandby_on hs).trans ?_)
  simp only [flashFault, h, FlashOp.repeats]

theorem exec_flashOpTimeout_slot (late : Bool) (hs : s.power.standby = true) (h : s.map.flashOp = some (.slot r again)) :
    exec (.flashOpTimeout late) s = .next (flashFault 0 late s) := by
  refine (show exec _ s = execFlashOpTimeout s late from rfl).trans ((ifStandby_on hs).trans ?_)
  simp only [h]

/-- A first fault of a record's program: the record goes to the next slot. -/
theorem flashFault_first (how : Nat) (late : Bool) (h : s.map.flashOp = some (.slot r false)) :
    flashFault how late s = beginFlash (.slot r true) (addSlotB (slotLeft late r) s) := by
  simp only [flashFault, h, FlashOp.repeats, slotLeft]

/-- A second one: the writing of copy B stops. -/
def faulted (u : State) : State :=
  { u with map := { u.map with flashOp := none, flashStopped := true } }.set pgDmap DMAP.MAP_STATUS_FLASH_FAULT 1

theorem flashFault_second (how : Nat) (late : Bool) (h : s.map.flashOp = some (.slot r true)) : flashFault how late s =
    raiseEvent { code := 0x3004, arg0 := flashAddr s (.slot r true), arg1 := how, alert := some acMap }
      (faulted (addSlotB (slotLeft late r) s)) := by
  simp only [flashFault, h, FlashOp.repeats, slotLeft, faulted]

/-- Nothing waits for copy B. -/
theorem pumpFlash_of_empty (hw : s.map.bWhole = none) (hq : s.map.bQueue = []) : pumpFlash s = s := by
  unfold pumpFlash
  simp only [hw, hq, ite_self]

/-- The operation in progress has ended. -/
def ended (s : State) : State := { s with map := { s.map with flashOp := none } }

theorem flashDone_slot (h : s.map.flashOp = some (.slot r again)) (hw : s.map.bWhole = none) (hq : s.map.bQueue = []) :
    flashDone s = mapRegs (ended (addSlotB (recSlot r) s)) := by
  obtain ⟨hw', hq'⟩ := addSlotB_queue (recSlot r) s
  simp only [flashDone, h]
  exact congrArg mapRegs (pumpFlash_of_empty (s := ended _) (hw'.trans hw) (hq'.trans hq))

theorem beginFlash_frame (op : FlashOp) (s : State) :
    recsB (beginFlash op s) = recsB s ∧ (beginFlash op s).map.flashOp = some op := ⟨rfl, rfl⟩

theorem sentPoll_frame (back : Bool) (s : State) :
    recsB (sentPoll back s) = recsB s ∧ (sentPoll back s).map.flashOp = s.map.flashOp := ⟨rfl, rfl⟩

/-! ### The clauses -/

theorem readBack_right (hs : s.power.standby = true) (h : s.map.flashOp = some (.slot r again)) (hB : mapB s = some b)
    (hb : NoneErased b) (hr : r.ok = true) (late : Bool) (hw : s.map.bWhole = none) (hq : s.map.bQueue = []) :
    ∃ s', exec (.flashBusyPoll true late) s = .next s' ∧ recsB s' = recsB s ++ [r] ∧ s'.map.flashOp = none := by
  refine ⟨_, exec_flashBusyPoll_slot true late hs h, ?_⟩
  rw [if_pos rfl, flashDone_slot h hw hq]
  generalize hu : ended (addSlotB (recSlot r) s) = u
  have hmap : (mapRegs u).map = u.map := (mapRegs_frame u).1
  have habs := (reportsStay_mapRegs (.refl u)).on (G := DMAP.MAP_STATUS_FLASH_ABSENT) (by decide)
  have hrec : recsB (mapRegs u) = recsB u := recsB_congr (mapB_congr habs (by rw [hmap]))
  have hslot : recsB u = recsB s ++ [r] := by
    subst hu
    refine (recsB_addSlotB hB hb (isErased_of_record (record_recSlot hr))).trans ?_
    rw [record_recSlot hr]
    rfl
  obtain ⟨hpoll, hpoll'⟩ := sentPoll_frame true (mapRegs u)
  exact ⟨by rw [hpoll, hrec, hslot], by rw [hpoll', hmap, ← hu, ended]⟩

theorem readBack_wrong (hs : s.power.standby = true) (h : s.map.flashOp = some (.slot r false)) (hB : mapB s = some b)
    (hb : NoneErased b) (hr : r.ok = true) (late : Bool) :
    ∃ s', exec (.flashBusyPoll false late) s = .next s' ∧ s'.map.flashOp = some (.slot r true) ∧
      recsB s' = recsB s ++ (if late = true then [r] else []) := by
  obtain ⟨herased, hrec⟩ := slotLeft_holds late hr
  refine ⟨_, exec_flashBusyPoll_slot false late hs h, ?_⟩
  obtain ⟨hpoll, hpoll'⟩ := sentPoll_frame true (beginFlash (.slot r true) (addSlotB (slotLeft late r) s))
  obtain ⟨hbegin, hbegin'⟩ := beginFlash_frame (.slot r true) (addSlotB (slotLeft late r) s)
  rw [if_neg (by decide), flashFault_first 2 late h, hpoll, hpoll', hbegin, hbegin', recsB_addSlotB hB hb herased, hrec]
  exact ⟨rfl, rfl⟩

theorem secondFault_stops (hs : s.power.standby = true) (h : s.map.flashOp = some (.slot r true)) (late : Bool) :
    ∃ s', exec (.flashOpTimeout late) s = .next s' ∧ s'.map.flashOp = none ∧ s'.map.flashStopped = true ∧
      s'.on pgDmap DMAP.MAP_STATUS_FLASH_FAULT = true ∧ bitAt (s'.get pgMast MAST.ALERT_CAUSE) acMap = true := by
  refine ⟨_, exec_flashOpTimeout_slot late hs h, ?_⟩
  rw [flashFault_second 0 late h, raiseEvent_map]
  refine ⟨rfl, rfl, ?_, alertSet_raiseEvent (by decide) rfl _⟩
  rw [(reportsStay_raiseEvent (.refl _)).on (by decide)]
  exact on_set_one _ (by decide) (by decide)

/-- Settles O51: each command by its own lemmas, which say what its edge leaves of the records and of what it has reported. -/
theorem defectMapCommands : Obligations.DefectMapCommands := by
  intro s hs
  refine ⟨fun hb => ⟨retireCmd_invalid hs hb, retireCmd_unmapped hs hb, fun a hok hA ha hroom =>
    ⟨retireCmd_adds hs hb hok hA ha hroom, retireCmd_duplicate hs hb hok hA⟩⟩,
    fun fl => ⟨mapSync_clears fl hs, fun a b hf hmeets hop hA hB h => ?_⟩, fun v => ?_,
    fun w i again ok late h => ⟨⟨_, exec_flashBusyPoll_erase ok late hs h, rfl⟩, fun ha => ?_⟩,
    fun r again late h => ⟨fun b hB hb hr => ⟨readBack_right hs h hB hb hr late, fun ha => ?_⟩, fun ha => ?_⟩⟩
  · obtain ⟨s', hexec, hsync⟩ := mapSync_agrees hs hf hmeets hop hA hB h
    exact ⟨s', hexec, hsync.reconcile, hsync.fault, hsync.present, hsync.records⟩
  · refine ⟨_, exec_readIndex v hs, ?_⟩
    dsimp only
    rw [← selectedBits_setIndex]
    exact window_showRecord _
  · subst ha
    exact ⟨_, exec_flashOpTimeout_erase late hs h, rfl⟩
  · subst ha
    exact readBack_wrong hs h hB hb hr late
  · subst ha
    exact secondFault_stops hs h late

end Sys2Proof.Machine
end

section
namespace Sys2Proof.Machine
open Sys2Proof

/-! PROOFS. READ, WRITE and COMMAND_COMPLETE of the management port (O35, O36). First what a frame and an answer leave, then what a
write does to a word of a page without behaviour of its own. -/

variable {s t : State} {tag : Byte} {a : Nat} {v : Word}

/-! ## Frames of the management port -/

theorem ifFree_of_free {code n : Nat} {g : State → State} (ho : portOpen s = true) (hc : s.port.cmd = none) :
    ifFree code tag n g s = .next (g s) := by
  simp [ifFree, ho, hc]

theorem ifFree_of_busy {code n : Nat} {g : State → State} (ho : portOpen s = true) (hc : s.port.cmd.isSome = true) :
    ifFree code tag n g s = .next (rejectFrame ⟨8 * n, [BitVec.ofNat 8 code, tag]⟩ 5 s) := by
  simp [ifFree, ho, hc]

theorem rejectFrame_busy (code n : Nat) (s : State) :
    (rejectFrame ⟨8 * n, [BitVec.ofNat 8 code, tag]⟩ 5 s).port.rejTag = (if 2 ≤ n then tag else 0) ∧
      (rejectFrame ⟨8 * n, [BitVec.ofNat 8 code, tag]⟩ 5 s).port.rejReason = BitVec.ofNat 8 (5 + 128 * bit (decide (2 ≤ n))) := by
  have h : 16 ≤ 8 * n ↔ 2 ≤ n := by omega
  simp [rejectFrame, frameByte, h]

/-- A rejection writes the counter of its reason and no other register word. -/
theorem word_rejectFrame_other {f : Frame} {reason b : Nat} (h : b ≠ pgMast + (rejectCounter reason).off) :
    (rejectFrame f reason s).word b = s.word b :=
  word_set_other (F := rejectCounter reason) s _ h

theorem readFrame_cmd (a : Nat) (s : State) :
    (readFrame tag a s).port.cmd = some (if addrSingle a = false then .answer 0x80 else .read a) := by
  cases h : addrSingle a <;> simp [readFrame, takeCommand, h]

theorem writeFrame_cmd (v : Word) (s : State) (h : addrBroadcast a = false) :
    (writeFrame tag a v s).port.cmd = some (if addrSingle a then .write a v else .answer 0x80) := by
  simp [writeFrame, takeCommand, h]

/-! ### The answer to the command in progress -/

theorem answerCommand_port (result : Nat) (data : Word) (s : State) : (answerCommand result data s).port =
    { s.port with cmd := none, lastResult := BitVec.ofNat 8 result, lastData := data } := by
  unfold answerCommand
  split <;> rfl

/-- An answer other than an error leaves every register word. -/
theorem answerCommand_ack {result : Nat} (data : Word) (s : State) (h : result < 0x80) :
    answerCommand result data s =
      { s with port := { s.port with cmd := none, lastResult := BitVec.ofNat 8 result, lastData := data } } :=
  if_neg (Nat.not_le.2 h)

/-- An error counts in CNT_ERRRESP, and no other register word changes. -/
theorem word_answerCommand_other {result b : Nat} (data : Word) (s : State) (h : b ≠ pgMast + MAST.CNT_ERRRESP_COUNT.off) :
    (answerCommand result data s).word b = s.word b := by
  unfold answerCommand
  split
  · exact word_set_other (F := MAST.CNT_ERRRESP_COUNT) _ _ h
  · rfl

theorem get_bumpSat_same {p : Nat} {F : Fld} (n : Nat) (hF : F.lo + F.width ≤ 32) (s : State) :
    (s.bumpSat p F n).get p F = min (s.get p F + n) (2 ^ F.width - 1) := by
  have hlt : min (s.get p F + n) (2 ^ F.width - 1) < 2 ^ F.width :=
    lt_of_le_of_lt (min_le_right _ _) (Nat.sub_lt (Nat.two_pow_pos _) Nat.one_pos)
  exact (get_set_same s p F _ hF).trans (Nat.mod_eq_of_lt hlt)

theorem get_answerCommand_error {result : Nat} (data : Word) (s : State) (h : 0x80 ≤ result) :
    (answerCommand result data s).get pgMast MAST.CNT_ERRRESP_COUNT = min (s.get pgMast MAST.CNT_ERRRESP_COUNT + 1) 0xFFFF :=
  (congrArg (fun t : State => t.get pgMast MAST.CNT_ERRRESP_COUNT) (if_pos h)).trans
    (get_bumpSat_same (F := MAST.CNT_ERRRESP_COUNT) 1 (by decide) _)

/-- What every command that completes leaves: no command in progress, its result and its data, and an error counted. -/
structure Answered (s : State) (r : Nat) (v : Word) (s' : State) : Prop where
  cmd : s'.port.cmd = none
  result : s'.port.lastResult = BitVec.ofNat 8 r
  data : s'.port.lastData = v
  errors : 0x80 ≤ r → s'.get pgMast MAST.CNT_ERRRESP_COUNT = min (s.get pgMast MAST.CNT_ERRRESP_COUNT + 1) 0xFFFF

theorem answered_error (result : Nat) (data : Word) (s : State) : Answered s result data (answerCommand result data s) := by
  have hport := answerCommand_port result data s
  exact ⟨by rw [hport], by rw [hport], by rw [hport], get_answerCommand_error data s⟩

theorem answered_ack (data : Word) (s t : State) : Answered s 0 data (answerCommand 0 data t) := by
  have hport := answerCommand_port 0 data t
  exact ⟨by rw [hport], by rw [hport], by rw [hport], fun h => absurd h (by decide)⟩

/-! ### COMMAND_COMPLETE -/

theorem exec_commandComplete (hs : s.power.standby = true) : exec .commandComplete s = .next (completeCommand s) := ifStandby_on hs

theorem completeCommand_answer {r : Nat} (hc : s.port.cmd = some (.answer r)) : completeCommand s = answerCommand r 0 s := by
  rw [completeCommand, hc]

theorem completeCommand_read {b : Nat} (hc : s.port.cmd = some (.read b)) (hr : reachable s (pageOf b) = true) :
    completeCommand s = answerCommand 0 (regRead s b false) (readEffect b s) := by
  rw [completeCommand, hc]
  exact if_pos hr

theorem completeCommand_write {b : Nat} (hc : s.port.cmd = some (.write b v)) (hr : reachable s (pageOf b) = true) :
    completeCommand s = answerCommand 0 0 (regWrite b v s) := by
  rw [completeCommand, hc]
  exact if_pos hr

theorem completeCommand_unreachable {b : Nat} {c : PendCmd} (hc : s.port.cmd = some c) (hb : c = .read b ∨ ∃ v, c = .write b v)
    (hr : reachable s (pageOf b) = false) : completeCommand s = answerCommand 0x81 0 s := by
  rw [completeCommand, hc]
  obtain rfl | ⟨v, rfl⟩ := hb <;> simp [hr]

theorem completeCommand_broadcast {b : Nat} (hc : s.port.cmd = some (.broadcast b v)) :
    completeCommand s = answerCommand 0 0 (if mainUp s then broadcast b v s else s) := by
  rw [completeCommand, hc]

/-- A read of a page without a read effect changes nothing. -/
theorem readEffect_of_plain {b : Nat} (h1 : kindOf b ≠ some .mpwr) (h2 : kindOf b ≠ some .hoist) (h3 : kindOf b ≠ some .cseq)
    (h4 : kindOf b ≠ some .fctl) (s : State) : readEffect b s = s := by
  unfold readEffect
  split
  · exact absurd ‹_› h1
  · exact absurd ‹_› h2
  · exact absurd ‹_› h3
  · exact absurd ‹_› h4
  · rfl

/-- Settles O35: a frame changes the port alone, and the command in progress completes as its kind and its page's reach say. That
the access reaches its page with COMMAND_COMPLETE alone is the model's choice (log 10). -/
theorem readTakenAndCompleted : Obligations.ReadTakenAndCompleted := by
  intro s tag addr
  refine ⟨fun ho hc => ⟨_, ifFree_of_free ho hc, rfl, rfl, rfl, readFrame_cmd _ s, rfl⟩,
    fun ho hc => ⟨_, ifFree_of_busy ho hc, (rejectFrame_busy 0x10 9 s).1, (rejectFrame_busy 0x10 9 s).2, rfl, rfl,
      fun b hb => word_rejectFrame_other hb⟩, ?_⟩
  intro c hs hc
  dsimp only
  rw [exec_commandComplete hs]
  refine ⟨_, rfl, ?_⟩
  cases c with
  | answer r =>
    rw [completeCommand_answer hc]
    obtain ⟨hcmd, hres, hdata, herr⟩ := answered_error r 0 s
    exact ⟨hcmd, hres, hdata, herr, fun _ b hb => word_answerCommand_other 0 s hb, nofun⟩
  | read b =>
    cases hr : reachable s (pageOf b) with
    | false =>
      simp only [hr, Bool.false_eq_true, if_false, -Nat.reduceLeDiff]
      rw [completeCommand_unreachable hc (.inl rfl) hr]
      obtain ⟨hcmd, hres, hdata, herr⟩ := answered_error 0x81 0 s
      exact ⟨hcmd, hres, hdata, herr, fun _ b hb => word_answerCommand_other 0 s hb, nofun⟩
    | true =>
      simp only [hr, if_true, -Nat.reduceLeDiff]
      rw [completeCommand_read hc hr]
      obtain ⟨hcmd, hres, hdata, herr⟩ := answered_ack (regRead s b false) s (readEffect b s)
      refine ⟨hcmd, hres, hdata, herr, fun h x hx => ?_, nofun⟩
      obtain h | ⟨_, heq, h1, h2, h3, h4⟩ := h
      · exact absurd h (by decide)
      · cases heq
        rw [word_answerCommand_other _ _ hx, readEffect_of_plain h1 h2 h3 h4]
  | write b v =>
    cases hr : reachable s (pageOf b) with
    | false =>
      simp only [hr, Bool.false_eq_true, if_false, -Nat.reduceLeDiff]
      rw [completeCommand_unreachable hc (.inr ⟨v, rfl⟩) hr]
      obtain ⟨hcmd, hres, hdata, herr⟩ := answered_error 0x81 0 s
      refine ⟨hcmd, hres, hdata, herr, fun _ b hb => word_answerCommand_other 0 s hb, fun b' v' heq hr' => ?_⟩
      cases heq
      exact absurd hr' (by simp [hr])
    | true =>
      simp only [hr, if_true, -Nat.reduceLeDiff]
      rw [completeCommand_write hc hr]
      obtain ⟨hcmd, hres, hdata, herr⟩ := answered_ack 0 s (regWrite b v s)
      refine ⟨hcmd, hres, hdata, herr, fun h => ?_, fun b' v' heq _ x => ?_⟩
      · obtain h | ⟨_, heq, -⟩ := h
        · exact absurd h (by decide)
        · cases heq
      · cases heq
        rw [answerCommand_ack _ _ (by decide)]
        rfl
  | broadcast b v =>
    rw [completeCommand_broadcast hc]
    obtain ⟨hcmd, hres, hdata, herr⟩ := answered_ack 0 s (if mainUp s then broadcast b v s else s)
    refine ⟨hcmd, hres, hdata, herr, fun h => ?_, nofun⟩
    obtain h | ⟨_, heq, -⟩ := h
    · exact absurd h (Nat.not_succ_le_zero _)
    · cases heq

end Sys2Proof.Machine
end

section
namespace Sys2Proof.Machine
open Sys2Proof

variable {s t : State} {tag : Byte} {a : Nat} {v : Word} {kd : PageKind}

/-! ## A write of a page of registers without behaviour of their own -/

/-- The first page is MAST. -/
theorem kindOf_of_lt {a : Nat} (h : a < 4096) : kindOf a = some .mast := by
  simp [kindOf, clsOf, fieldOf, tileOf, pageNoOf, bits, Nat.div_eq_of_lt (lt_trans h (by decide : 4096 < 68719476736)),
    Nat.div_eq_of_lt (lt_trans h (by decide : 4096 < 1073741824)), Nat.div_eq_of_lt (lt_trans h (by decide : 4096 < 2097152)),
    Nat.div_eq_of_lt h]

theorem le_pageOf_of_kindOf (hk : kindOf a = some kd) (hm : kd ≠ .mast) : 4096 ≤ pageOf a := by
  by_contra hlt
  have ha : a < 4096 := by
    unfold pageOf at hlt
    omega
  rw [kindOf_of_lt ha, Option.some_inj] at hk
  exact hm hk.symm

theorem pageOf_le (a : Nat) : pageOf a ≤ a := Nat.div_mul_le_self a 4096

/-- An alert of a page and its error leave the pages other than MAST. -/
theorem word_afterError (before : Bool) (p : Nat) (s : State) {b : Nat} (hb : 4096 ≤ b) : (afterError before p s).word b = s.word b := by
  have hne : ∀ {x : Nat}, x < 4096 → b ≠ x := fun hx => by omega
  unfold afterError
  split
  · exact word_pageEvent_other p b s (hne (by decide)) (hne (by decide)) (hne (by decide)) (hne (by decide))
  · rfl

theorem shadow_pageEvent (p : Nat) (s : State) : (pageEvent p s).shadow = s.shadow := by
  unfold pageEvent pageAlert
  split
  · rw [alert, setBit_shadow]
    split <;> rfl
  · rfl

theorem shadow_afterError (before : Bool) (p : Nat) (s : State) : (afterError before p s).shadow = s.shadow := by
  unfold afterError
  split
  · exact shadow_pageEvent p s
  · rfl

/-- The live and W1C fields of a word of a block, past its header. -/
theorem word_liveWord (ha : 4096 ≤ a) (ho : 0x40 ≤ offOf a) (s : State) : (liveWord kd a v s).word a =
    overlay (attrMask kd (offOf a) .rwL) v (s.word a) &&& ~~~(v &&& attrMask kd (offOf a) .w1c) := by
  have h8 : offOf a ≠ 0x008 := by omega
  unfold liveWord
  rw [word_afterError _ _ _ ha, word_setWord_same, if_neg h8]

theorem overlay_zero (new old : Word) : overlay 0#32 new old = old := by
  rw [overlay, BitVec.and_zero, BitVec.zero_or, BitVec.not_zero, BitVec.and_allOnes]

/-- A word of live and W1C fields: live fields take the data, W1C bits written with 1 are cleared. -/
theorem word_writeFields_live (hk : kindOf a = some kd) (hm : kd ≠ .mast) (ho : 0x40 ≤ offOf a)
    (hH : attrMask kd (offOf a) .rwH = 0) (hS : stageMask a = 0) (s : State) : (writeFields a v s).word a =
      overlay (attrMask kd (offOf a) .rwL) v (s.word a) &&& ~~~(v &&& attrMask kd (offOf a) .w1c) := by
  have ha : 4096 ≤ a := le_trans (le_pageOf_of_kindOf hk hm) (pageOf_le a)
  simp only [writeFields, hk, hH, hS, if_true]
  split
  · next h =>
    obtain ⟨hL, hC⟩ := BitVec.or_eq_zero_iff.1 h
    rw [hL, hC, overlay_zero, BitVec.and_zero, BitVec.not_zero, BitVec.and_allOnes]
  · exact word_liveWord ha ho s

/-- A word of staged fields alone is staged. -/
theorem writeFields_staged (hk : kindOf a = some kd) (hH : attrMask kd (offOf a) .rwH = 0) (hS : stageMask a ≠ 0)
    (hL : attrMask kd (offOf a) .rwL ||| attrMask kd (offOf a) .w1c = 0) (s : State) : writeFields a v s = stageWord a v s := by
  simp only [writeFields, hk, hH, hL, hS, if_true, if_false]

theorem ne_header_of_le_offOf {off : Nat} (hoff : off < 0x40) (ho : 0x40 ≤ offOf a) : a ≠ pageOf a + off := by
  unfold pageOf offOf at *
  omega

/-- An unlocked page takes the staged fields in its shadow and is dirty. -/
theorem stageWord_unlocked (ho : 0x40 ≤ offOf a) (hl : s.on (pageOf a) HDR.STAGE_STATUS_LOCKED = false) :
    (stageWord a v s).word a = s.word a ∧ (stageWord a v s).shadowWord a = overlay (stageMask a) v (s.shadowWord a) ∧
      (stageWord a v s).on (pageOf a) HDR.STAGE_STATUS_DIRTY = true := by
  have hset : stageWord a v s = (s.setShadow a (overlay (stageMask a) v (s.shadowWord a))).set (pageOf a) HDR.STAGE_STATUS_DIRTY 1 := by
    simp [stageWord, hl]
  rw [hset]
  refine ⟨?_, shadowWord_setShadow_same s a _, on_set_one _ (by decide) (by decide)⟩
  rw [word_set_other _ _ (ne_header_of_le_offOf (by decide) ho), word_setShadow]

theorem getLsbD_putBit_same (n i : Nat) (b : Bool) (hi : i < 32) : (BitVec.ofNat 32 (putBit n i b)).getLsbD i = b := by
  have h := bitAt_putBit_same n i b
  rw [bitAt_eq_testBit] at h
  rw [BitVec.getLsbD_ofNat, h, decide_eq_true hi, Bool.true_and]

/-- An error of a page is shown in its PAGE_ERROR, and no shadow changes. -/
theorem setError_shown {p n : Nat} (hp : 4096 ≤ p) (hn : n < 32) (s : State) :
    ((setError p n s).word (p + 0x00C)).getLsbD n = true ∧ (setError p n s).shadow = s.shadow := by
  unfold setError
  rw [word_afterError _ _ _ (by omega), word_setWord_same, shadow_afterError]
  exact ⟨getLsbD_putBit_same _ _ _ hn, rfl⟩

/-- A locked page keeps its shadow and takes STAGE_LOCKED. -/
theorem stageWord_locked (hk : kindOf a = some kd) (hm : kd ≠ .mast) (ho : 0x40 ≤ offOf a)
    (hl : s.on (pageOf a) HDR.STAGE_STATUS_LOCKED = true) : (stageWord a v s).word a = s.word a ∧
      (stageWord a v s).shadow = s.shadow ∧ ((stageWord a v s).word (pageOf a + 0x00C)).getLsbD 2 = true := by
  have hp := le_pageOf_of_kindOf hk hm
  have ha := le_trans hp (pageOf_le a)
  have herr : stageWord a v s = setError (pageOf a) 2 s := by simp [stageWord, hl]
  obtain ⟨hbit, hshadow⟩ := setError_shown hp (n := 2) (by decide) s
  rw [herr]
  refine ⟨?_, hshadow, hbit⟩
  unfold setError
  rw [word_afterError _ _ _ ha, word_setWord_other _ _ (ne_header_of_le_offOf (by decide) ho)]

/-- The pages whose registers have no behaviour of their own. -/
def plainKinds : List PageKind :=
  [.roster, .rostf, .netl, .netlBay, .netlFlow, .strl, .landingEmpty, .fpwr, .ftopo, .tile1, .tile2, .tile3]

theorem plainKinds_ne : ∀ kd ∈ plainKinds, kd ≠ .mast ∧ kd ≠ .haws := by decide

/-- A write beyond the header of such a page acts on the word's fields alone. -/
theorem regWrite_of_plain (hk : kindOf a = some kd) (hp : kd ∈ plainKinds) (ho : 0x40 ≤ offOf a) (v : Word) (s : State) :
    regWrite a v s = writeFields a v s := by
  have hend : noEnd a = false := by
    simp [noEnd, hk, (plainKinds_ne kd hp).2]
  unfold regWrite
  simp only [hk, hend, Bool.false_eq_true, if_false, Nat.not_lt.2 ho]
  simp only [plainKinds, List.mem_cons, List.not_mem_nil, or_false] at hp
  obtain rfl | rfl | rfl | rfl | rfl | rfl | rfl | rfl | rfl | rfl | rfl | rfl := hp <;> rfl

theorem exec_registerWrite {addr : BitVec 40} (hs : s.power.standby = true) (ha : addr.toNat % 4 = 0)
    (hk : kindOf addr.toNat = some kd) (hr : reachable s (pageOf addr.toNat) = true) :
    exec (.registerWrite .management addr v) s = .next (regWrite addr.toNat v s) := by
  change Host.Outcome.next (registerWrite .management addr.toNat v s) = _
  have hsingle : addrSingle addr.toNat = true := by simp [addrSingle, ha, hk]
  simp [registerWrite, hs, hsingle, hr]

/-- Settles O36: COMMAND_COMPLETE and REGISTER_WRITE leave the register words that the write of the word's fields leaves. That a
WRITE reaches its page with COMMAND_COMPLETE alone is the model's choice (log 10). -/
theorem writesApplyByAttribute : Obligations.WritesApplyByAttribute := by
  intro s tag addr v
  refine ⟨fun ho hc hb => ⟨_, ifFree_of_free ho hc, writeFrame_cmd v s hb, rfl, rfl⟩, ?_⟩
  intro kd hk hp h4 ho hr hs hH c hc hcmd
  have hm := (plainKinds_ne kd hp).1
  have hwrite := regWrite_of_plain hk hp ho v s
  obtain ⟨s', hexec, hword, hshadow, hport⟩ : ∃ s', exec c s = .next s' ∧ (∀ b, s'.word b = (writeFields addr.toNat v s).word b) ∧
      s'.shadow = (writeFields addr.toNat v s).shadow ∧ (c = .commandComplete → s'.port.cmd = none ∧ s'.port.lastResult = 0) := by
    rw [List.mem_cons, List.mem_singleton] at hc
    obtain rfl | rfl := hc
    · refine ⟨_, exec_commandComplete hs, ?_⟩
      rw [completeCommand_write (hcmd rfl) hr, hwrite, answerCommand_ack _ _ (by decide)]
      exact ⟨fun _ => rfl, rfl, fun _ => ⟨rfl, rfl⟩⟩
    · refine ⟨_, exec_registerWrite hs h4 hk hr, ?_⟩
      rw [hwrite]
      exact ⟨fun _ => rfl, rfl, nofun⟩
  have hon : ∀ F, s'.on (pageOf addr.toNat) F = (writeFields addr.toNat v s).on (pageOf addr.toNat) F := fun F =>
    on_of_word (hword _)
  have hshadowWord : s'.shadowWord addr.toNat = (writeFields addr.toNat v s).shadowWord addr.toNat := by
    rw [State.shadowWord, State.shadowWord, hshadow]
  refine ⟨s', hexec, hport, fun hS => ?_, fun hS hL => ?_⟩
  · rw [hword, word_writeFields_live hk hm ho hH hS]
  · rw [hword, hword, hshadow, hshadowWord, hon, writeFields_staged hk hH hS hL]
    cases hl : s.on (pageOf addr.toNat) HDR.STAGE_STATUS_LOCKED with
    | false =>
      obtain ⟨hlive, hsh, hd⟩ := stageWord_unlocked (v := v) ho hl
      exact ⟨hlive, fun _ => ⟨hsh, hd⟩, nofun⟩
    | true =>
      obtain ⟨hlive, hsh, he⟩ := stageWord_locked (v := v) hk hm ho hl
      exact ⟨hlive, nofun, fun _ => ⟨hsh, he⟩⟩

end Sys2Proof.Machine
end

section
namespace Sys2Proof.Machine
open Sys2Proof

/-! PROOFS. DISCARD and the halt of a rig (O42), and the hoist instant's application of a page (O41): what the live and the shadow
words of a page hold after both. -/

variable {s t u : State} {p w : Nat}

/-! ## The words of a page -/

/-- The listed words of a page are those of the two stores. -/
theorem mem_pageWords : w ∈ pageWords s p ↔ pageOf w = p ∧ (w ∈ s.live.map Prod.fst ∨ w ∈ s.shadow.map Prod.fst) := by
  simp only [pageWords, List.mem_append, List.mem_filter, List.mem_map, Bool.not_eq_true', List.contains_eq_mem,
    decide_eq_false_iff_not, beq_iff_eq]
  grind

theorem lookup_of_not_mem {α : Type} (d : α) {l : List (Nat × α)} {a : Nat} (h : a ∉ l.map Prod.fst) : lookup d l a = d := by
  by_contra hne
  exact h (List.mem_map_of_mem (f := Prod.fst) (mem_of_lookup_ne hne))

/-- A word of the page that is not listed holds its reset value, live and staged. -/
theorem word_of_not_mem_pageWords (h : w ∉ pageWords s (pageOf w)) : s.word w = resetWord w ∧ s.shadowWord w = resetWord w := by
  simp only [mem_pageWords, true_and, not_or] at h
  exact ⟨lookup_of_not_mem _ h.1, lookup_of_not_mem _ h.2⟩

/-! ## Shadows that follow the live values (R238) -/

/-- The staged fields of a word hold in the shadow what they hold live. -/
def FollowsLive (s : State) (w : Nat) : Prop := stageMask w &&& s.shadowWord w = stageMask w &&& s.word w

theorem and_overlay_same (m new old : Word) : m &&& overlay m new old = m &&& new := by
  ext i
  simp only [overlay, BitVec.getElem_and, BitVec.getElem_or, BitVec.getElem_not]
  cases m[i] <;> simp

theorem followLive_live (s : State) (a : Nat) : (followLive s a).live = s.live := by
  unfold followLive
  split <;> rfl

theorem followsLive_followLive_same (s : State) (w : Nat) : FollowsLive (followLive s w) w := by
  unfold FollowsLive followLive
  split
  · next h =>
    rw [h]
    exact (BitVec.zero_and).trans BitVec.zero_and.symm
  · rw [shadowWord_setShadow_same, word_setShadow, and_overlay_same]

theorem followsLive_followLive (a : Nat) (h : FollowsLive s w) : FollowsLive (followLive s a) w := by
  by_cases haw : w = a
  · exact haw ▸ followsLive_followLive_same s w
  · unfold FollowsLive followLive at *
    split
    · exact h
    · rwa [shadowWord_setShadow_other _ _ haw, word_setShadow]

theorem foldl_followLive_live (l : List Nat) (s : State) : (l.foldl followLive s).live = s.live :=
  keeps_foldl (P := fun u => u.live = s.live) (fun u b _ hu => (followLive_live u b).trans hu) rfl

/-- After every listed word's shadow has followed its live value, so have all words of the page. -/
theorem followsLive_pageWords (s : State) (w : Nat) : FollowsLive ((pageWords s (pageOf w)).foldl followLive s) w := by
  by_cases hw : w ∈ pageWords s (pageOf w)
  · exact foldl_establishes (P := fun u => FollowsLive u w) (Q := fun _ => True) hw
      (fun u _ => followsLive_followLive_same u w) (fun _ _ _ _ => trivial)
      (fun _ b _ h => followsLive_followLive b h) trivial
  · obtain ⟨hlive, hshadow⟩ := word_of_not_mem_pageWords hw
    exact keeps_foldl (P := fun u => FollowsLive u w) (fun _ b _ h => followsLive_followLive b h)
      (by rw [FollowsLive, hlive, hshadow])

/-! ### DISCARD -/

theorem discardPage_word_other (h : w ≠ p + 0x018) (s : State) : (discardPage p s).word w = s.word w := by
  unfold discardPage
  rw [word_set_other _ _ h, word_set_other _ _ h, word_set_other _ _ h]
  simp only [State.word, foldl_followLive_live]

theorem discardPage_followsLive (s : State) (w : Nat) :
    stageMask w &&& (discardPage (pageOf w) s).shadowWord w = stageMask w &&& s.word w := by
  have h := followsLive_pageWords s w
  unfold FollowsLive at h
  rw [State.word, foldl_followLive_live] at h
  exact h

theorem discardPage_status (p : Nat) (s : State) : (discardPage p s).on p HDR.STAGE_STATUS_DIRTY = false ∧
    (discardPage p s).get p HDR.STAGE_STATUS_VERDICT = 0 ∧ (discardPage p s).get p HDR.STAGE_STATUS_FIRST_RULE = 0 := by
  unfold discardPage
  generalize (pageWords s p).foldl followLive s = u
  refine ⟨?_, ?_, get_set_same _ _ _ _ (by decide)⟩
  · rw [on_set_disjoint (F := HDR.STAGE_STATUS_FIRST_RULE) (G := HDR.STAGE_STATUS_DIRTY) _ 0 rfl (by decide) (by decide),
      on_set_disjoint (F := HDR.STAGE_STATUS_VERDICT) (G := HDR.STAGE_STATUS_DIRTY) _ 0 rfl (by decide) (by decide)]
    exact on_set_zero _ _ _ (by decide)
  · rw [get_set_beside (F := HDR.STAGE_STATUS_FIRST_RULE) (G := HDR.STAGE_STATUS_VERDICT) rfl (by decide) (by decide)]
    exact get_set_same _ _ _ _ (by decide)

theorem exec_discard {page : BitVec 40} (hs : s.power.standby = true)
    (hp : standbyPage (pageOf page.toNat) = true ∨ awake s = true) (hr : reachable s (pageOf page.toNat) = true)
    (hl : s.on (pageOf page.toNat) HDR.STAGE_STATUS_LOCKED = false) :
    exec (.discard page) s = .next (discardPage (pageOf page.toNat) s) := by
  change execDiscard page s = _
  have hp' : (standbyPage (pageOf page.toNat) || awake s) = true := by simpa using hp
  simp [execDiscard, hs, hp', hr, discard, hl]

/-! ## The halt of a rig (R231, R538 to R540) -/

theorem toNat_pgTile (f : FieldId) (t : TileId) : (BitVec.ofNat 40 (pgTile f.val t.val 0)).toNat = pgTile f.val t.val 0 := by
  rw [BitVec.toNat_ofNat, Nat.mod_eq_of_lt]
  simp only [pgTile, pageAddr]
  omega

theorem pageOf_pgTile (f t n : Nat) : pageOf (pgTile f t n) = pgTile f t n := by
  simp only [pageOf, pgTile, pageAddr]
  omega

/-- The parts of the address of a tile's page 0. -/
theorem pgTile_parts (f : FieldId) (t : TileId) : clsOf (pgTile f.val t.val 0) = 8 ∧ fieldOf (pgTile f.val t.val 0) = f.val ∧
    tileOf (pgTile f.val t.val 0) = t.val ∧ pageNoOf (pgTile f.val t.val 0) = 0 := by
  simp only [clsOf, fieldOf, tileOf, pageNoOf, bits, pgTile, pageAddr]
  omega

theorem kindOf_pgTile (f : FieldId) (t : TileId) : kindOf (pgTile f.val t.val 0) = some .tile0 := by
  obtain ⟨hc, hf, ht, hp⟩ := pgTile_parts f t
  have hr : ¬(56 ≤ f.val ∨ 468 ≤ t.val) := by omega
  simp only [kindOf, hc, hf, ht, hp, if_neg hr, if_true]

theorem ifReach_on {g : State → State} (ha : awake s = true) (hr : reachable s p = true) : ifReach p g s = .next (g s) := by
  rw [ifReach, ifAwake_on ha, if_pos hr]

section
variable {f : FieldId} {t : TileId}

theorem haltReq_tile0 (h : kindOf p = some .tile0) (b : Bool) (s : State) : haltReq p b s =
    if b then haltRig (tileKey (fieldOf p) (tileOf p)) s else releaseRig (tileKey (fieldOf p) (tileOf p)) s := by
  unfold haltReq
  rw [h]

theorem exec_haltReq {page : BitVec 40} (hp : page.toNat = pgTile f.val t.val 0) (ha : awake s = true)
    (hr : reachable s (pgTile f.val t.val 0) = true) (b : Bool) :
    exec (.haltReq page b) s = .next (if b then haltRig (keyOf f t) s else releaseRig (keyOf f t) s) := by
  obtain ⟨-, hf, ht, -⟩ := pgTile_parts f t
  change execHaltReq page b s = _
  rw [execHaltReq, hp, pageOf_pgTile, ifReach_on ha hr, haltReq_tile0 (kindOf_pgTile f t), hf, ht, keyOf]

theorem exec_haltPointReached {page : BitVec 40} (hp : page.toNat = pgTile f.val t.val 0) (ha : awake s = true)
    (hr : reachable s (pgTile f.val t.val 0) = true) (hreq : s.on (pgTile f.val t.val 0) HDR.PAGE_CONTROL_HALT_REQ = true)
    (hb : atBoundary s (keyOf f t) = true) :
    exec (.haltPointReached page) s = .next (s.set (pgTile f.val t.val 0) HDR.PAGE_STATUS_HALTED 1) := by
  obtain ⟨-, hf, ht, -⟩ := pgTile_parts f t
  have hk : atBoundary s (tileKey f.val t.val) = true := hb
  change execHaltPointReached page s = _
  rw [execHaltPointReached, hp, pageOf_pgTile, ifReach_on ha hr]
  simp [haltPoint, kindOf_pgTile, hf, ht, hreq, hk]

/-- A halt that is asked for: at once at the halt point where the rig does not run. -/
theorem haltRig_shown (k : Nat) (s : State) : (haltRig k s).on (p0 k) HDR.PAGE_CONTROL_HALT_REQ = true ∧
    ((s.rig k).run ≠ .running → (haltRig k s).on (p0 k) HDR.PAGE_STATUS_HALTED = true) := by
  have hreq : (s.set (p0 k) HDR.PAGE_CONTROL_HALT_REQ 1).on (p0 k) HDR.PAGE_CONTROL_HALT_REQ = true :=
    on_set_one s (by decide) (by decide)
  unfold haltRig
  dsimp only
  rw [rig_set]
  by_cases hrun : (s.rig k).run = .running
  · rw [if_pos hrun]
    exact ⟨hreq, fun h => absurd hrun h⟩
  · rw [if_neg hrun]
    refine ⟨?_, fun _ => on_set_one _ (by decide) (by decide)⟩
    rw [State.on, get_set_word (by decide)]
    exact hreq

/-- A halt that is released: HALTED stays where the rig was never opened or is in escalated stop. -/
theorem releaseRig_shown (k : Nat) (s : State) : (releaseRig k s).on (p0 k) HDR.PAGE_CONTROL_HALT_REQ = false ∧
    ((s.rig k).run ≠ .fresh → (s.rig k).run ≠ .escalated → (releaseRig k s).on (p0 k) HDR.PAGE_STATUS_HALTED = false) := by
  have hreq : (s.set (p0 k) HDR.PAGE_CONTROL_HALT_REQ 0).on (p0 k) HDR.PAGE_CONTROL_HALT_REQ = false :=
    on_set_zero _ _ _ (by decide)
  unfold releaseRig
  dsimp only
  rw [rig_set]
  by_cases hrun : (s.rig k).run = .fresh ∨ (s.rig k).run = .escalated
  · rw [if_pos hrun]
    exact ⟨hreq, fun h1 h2 => absurd hrun (not_or.2 ⟨h1, h2⟩)⟩
  · rw [if_neg hrun]
    refine ⟨?_, fun _ _ => on_set_zero _ _ _ (by decide)⟩
    rw [State.on, get_set_word (by decide), get_of_live (setRig_live _ _ _)]
    exact hreq

end

/-- Settles O42: DISCARD through the fold over the page's listed words; the halt of a rig through what HALT_REQ written and the halt
point reached leave of its page. HALTED at once of a rig stopped by an overrun or a limit is the model's choice (log 68). -/
theorem discardAndHalt : Obligations.DiscardAndHalt := by
  intro s f t
  refine ⟨fun page hs hp hr hl => ?_, fun ha hr => ⟨⟨_, exec_haltReq (toNat_pgTile f t) ha hr true, ?_⟩,
    ⟨_, exec_haltReq (toNat_pgTile f t) ha hr false, ?_⟩,
    fun hreq hb => ⟨_, exec_haltPointReached (toNat_pgTile f t) ha hr hreq hb, on_set_one _ (by decide) (by decide)⟩⟩⟩
  · obtain ⟨hd, hv, hf⟩ := discardPage_status (pageOf page.toNat) s
    exact ⟨_, exec_discard hs hp hr hl, hd, hv, hf, fun w hw => hw ▸ discardPage_followsLive s w,
      fun w hw => discardPage_word_other hw s⟩
  · rw [if_pos rfl, p0_keyOf]
    exact haltRig_shown _ s
  · rw [if_neg (by decide), p0_keyOf]
    exact releaseRig_shown _ s

end Sys2Proof.Machine
end

section
namespace Sys2Proof.Machine
open Sys2Proof

/-! PROOFS. The hoist's commands (O39) and the course of a check (O40). First what writes of page headers leave of the HOIST page, then
one lemma for each part of a check: what it does to the sequencer's own part, and what to the page. -/

variable {s s0 t u : State} {p q : Nat}

/-! ## The registers of the HOIST page -/

/-- The registers of the HOIST page beyond its header. -/
def HoistReg (a : Nat) : Prop := pgHoist + 0x40 ≤ a ∧ a < pgHoist + 0x1000

theorem hoistReg_le_mainPlace : HoistReg ≤ MainPlace := fun a h => by
  have hp : pgHoist = 0x1000001000 := rfl
  unfold HoistReg at h
  unfold MainPlace
  omega

/-- A header register of a page is no register of the hoist. -/
theorem hoistReg_ne_header {off a : Nat} (hp : pageOf p = p) (hoff : off < 0x40) (ha : HoistReg a) : a ≠ p + off := by
  have hh : pgHoist = 0x1000001000 := rfl
  unfold HoistReg at ha
  unfold pageOf at hp
  omega

theorem leaves_setHeader {F : Fld} (hp : pageOf p = p) (hF : F.off < 0x40) (v : Nat) (h : Leaves HoistReg s0 s) :
    Leaves HoistReg s0 (s.set p F v) :=
  leaves_set v (fun _ ha => hoistReg_ne_header hp hF ha) h

theorem leaves_setError_hoist (hp : pageOf p = p) (n : Nat) (h : Leaves HoistReg s0 s) : Leaves HoistReg s0 (setError p n s) := by
  have hset : ∀ v, Leaves HoistReg s0 (s.setWord (p + 0x00C) v) := fun v =>
    leaves_setWord v (fun _ ha => hoistReg_ne_header hp (by decide) ha) h
  exact leaves_ite (fun _ => leaves_pageEvent hoistReg_le_mainPlace p (hset _)) fun _ => hset _

/-- A header field of a page is in another word than the hoist's registers. -/
theorem get_set_hoist {F G : Fld} (hp : pageOf p = p) (hF : F.off < 0x40) (hG : 0x40 ≤ G.off ∧ G.off < 0x80) (v : Nat) (s : State) :
    (s.set pgHoist G v).get p F = s.get p F :=
  get_set_other s v (Ne.symm (hoistReg_ne_header hp hF (by unfold HoistReg; omega)))

theorem on_set_hoist {F G : Fld} (hp : pageOf p = p) (hF : F.off < 0x40) (hG : 0x40 ≤ G.off ∧ G.off < 0x80) (v : Nat) (s : State) :
    (s.set pgHoist G v).on p F = s.on p F := by
  rw [State.on, State.on, get_set_hoist hp hF hG]

/-- A field of STAGE_STATUS is apart from another of every page. -/
theorem get_set_status {F G : Fld} (ho : G.off = F.off) (hG : G.lo + G.width ≤ 32)
    (hd : F.lo + F.width ≤ G.lo ∨ G.lo + G.width ≤ F.lo) (v : Nat) (s : State) : (s.set p F v).get q G = s.get q G := by
  by_cases h : q = p
  · exact h ▸ get_set_beside ho hG hd s
  · exact get_set_other s v (by omega)

/-! ### The set locked and unlocked -/

theorem lockSet_m (b : Bool) (s : State) : (lockSet b s).m = s.m :=
  keeps_foldl (P := fun u => u.m = s.m) (fun _ _ _ hu => hu) rfl

theorem leaves_lockSet (b : Bool) (hset : ∀ p ∈ s.m.hoist.set, pageOf p = p) (h : Leaves HoistReg s0 s) :
    Leaves HoistReg s0 (lockSet b s) :=
  leaves_foldl (fun _ p hp hu => leaves_setHeader (hset p hp) (by decide) _ hu) h

theorem on_lockSet (b : Bool) (hp : p ∈ s.m.hoist.set) : (lockSet b s).on p HDR.STAGE_STATUS_LOCKED = b := by
  have hsame : ∀ u : State, (u.set p HDR.STAGE_STATUS_LOCKED (bit b)).on p HDR.STAGE_STATUS_LOCKED = b := fun u =>
    on_set_bit (by decide) rfl u
  refine foldl_establishes (P := fun u => u.on p HDR.STAGE_STATUS_LOCKED = b) (Q := fun _ => True) hp (fun u _ => hsame u)
    (fun _ _ _ _ => trivial) (fun u q _ hu => ?_) trivial
  by_cases hq : p = q
  · exact hq ▸ hsame u
  · rw [State.on, get_set_other u _ (by omega)]
    exact hu

theorem get_lockSet_verdict (b : Bool) (s : State) (p : Nat) :
    (lockSet b s).get p HDR.STAGE_STATUS_VERDICT = s.get p HDR.STAGE_STATUS_VERDICT :=
  keeps_foldl (P := fun u => u.get p HDR.STAGE_STATUS_VERDICT = s.get p HDR.STAGE_STATUS_VERDICT)
    (fun u _ _ hu => (get_set_status (F := HDR.STAGE_STATUS_LOCKED) (G := HDR.STAGE_STATUS_VERDICT)
      rfl (by decide) (by decide) _ u).trans hu) rfl

/-! ### The return to IDLE -/

/-- A field that reads 0 still does after any field was written with 0. -/
theorem get_set_zero_of_zero {F G : Fld} (h : s.get q G = 0) : (s.set p F 0).get q G = 0 := by
  by_cases hw : q + G.off = p + F.off
  · have hsub : ∀ x : Word, getBits x G.lo G.width = 0 → getBits (setBits x F.lo F.width 0) G.lo G.width = 0 := by
      intro x hx
      apply Nat.eq_of_testBit_eq
      intro i
      have hi := congrArg (·.testBit i) hx
      simp only [getBits, setBits, Nat.testBit_mod_two_pow, Nat.testBit_div_two_pow, Nat.zero_testBit, Nat.zero_mod, Nat.zero_mul,
        BitVec.or_zero, BitVec.toNat_and, Nat.testBit_and] at hi ⊢
      rw [← Bool.and_assoc, hi, Bool.false_and]
    rw [State.get, hw, State.set, word_setWord_same]
    rw [State.get, hw] at h
    exact hsub _ h
  · rw [get_set_other s 0 hw]
    exact h

theorem hoistState_setHoistState {v : Nat} (hv : v < 4) (s : State) : hoistState (setHoistState v s) = v :=
  get_set_fits (by decide) hv s

theorem hoistState_toIdle (s : State) : hoistState (toIdle s) = 0 :=
  hoistState_setHoistState (by decide) ((lockSet false s).set pgHoist HOIST.HOIST_STATUS_PAUSED 0)

theorem toIdle_m (s : State) : (toIdle s).m = { s.m with hoist := { s.m.hoist with armed := none, todo := [], judged := false } } := by
  have h := lockSet_m false s
  unfold toIdle setHoistState State.modH
  simp only [set_m, h]

/-- Every page of the set is unlocked. -/
theorem on_toIdle (hp : p ∈ s.m.hoist.set) : (toIdle s).on p HDR.STAGE_STATUS_LOCKED = false := by
  have h0 : (lockSet false s).get p HDR.STAGE_STATUS_LOCKED = 0 := by
    have hlt := get_lt (lockSet false s) p HDR.STAGE_STATUS_LOCKED
    have hon := on_lockSet false hp
    simp only [State.on, beq_eq_false_iff_ne] at hon
    simp only [HDR.STAGE_STATUS_LOCKED] at hlt hon ⊢
    omega
  have h1 : (toIdle s).get p HDR.STAGE_STATUS_LOCKED = 0 :=
    get_set_zero_of_zero (get_set_zero_of_zero (p := pgHoist) (F := HOIST.HOIST_STATUS_PAUSED) h0)
  rw [State.on, h1]
  rfl

theorem get_toIdle_verdict (hp : pageOf p = p) : (toIdle s).get p HDR.STAGE_STATUS_VERDICT = s.get p HDR.STAGE_STATUS_VERDICT :=
  calc (toIdle s).get p HDR.STAGE_STATUS_VERDICT
    _ = ((lockSet false s).set pgHoist HOIST.HOIST_STATUS_PAUSED 0).get p HDR.STAGE_STATUS_VERDICT :=
      get_set_hoist hp (by decide) (by decide) 0 _
    _ = (lockSet false s).get p HDR.STAGE_STATUS_VERDICT := get_set_hoist hp (by decide) (by decide) 0 _
    _ = s.get p HDR.STAGE_STATUS_VERDICT := get_lockSet_verdict false s p

/-- The hoist is idle with a verdict, and the pages of its set are unlocked. -/
def IdleWith (verdict : Nat) (set : List Nat) (t : State) : Prop := hoistState t = 0 ∧
  t.get pgHoist HOIST.HOIST_STATUS_VERDICT = verdict ∧ ∀ p ∈ set, t.on p HDR.STAGE_STATUS_LOCKED = false

/-- A return to IDLE with a verdict written after it. -/
theorem idleWith_set {v : Nat} (hv : v < 8) (s : State) :
    IdleWith v s.m.hoist.set ((toIdle s).set pgHoist HOIST.HOIST_STATUS_VERDICT v) := by
  refine ⟨?_, get_set_fits (by decide) hv _, fun p hp => ?_⟩
  · exact (get_set_beside (F := HOIST.HOIST_STATUS_VERDICT) (G := HOIST.HOIST_STATUS_STATE) rfl (by decide) (by decide) _).trans
      (hoistState_toIdle s)
  · have h := on_toIdle hp
    by_cases hw : p + HDR.STAGE_STATUS_LOCKED.off = pgHoist + HOIST.HOIST_STATUS_VERDICT.off
    · rw [State.on, get_set_disjoint _ v hw (by decide) (by decide)]
      exact h
    · rw [State.on, get_set_other _ v hw]
      exact h

/-! ## CHECK, ARM, DISARM and ABORT (R242, R243, R253) -/

/-- The state with the sequencer's part of a check that begins. -/
def checkBegun (arming : Bool) (s : State) : State :=
  s.modH fun _ => { HoistSt.reset with set := dirtyPages s, arming := arming, checkStart := s.m.wtime }

/-- The set locked, and the sequencer CHECKING. -/
def checkLocked (arming : Bool) (s : State) : State := setHoistState 1 (lockSet true (checkBegun arming s))

theorem startCheck_idle (arming : Bool) (h : hoistState s = 0) : startCheck arming s =
    (((checkLocked arming s).set pgHoist HOIST.SET_PAGES_COUNT (dirtyPages s).length).set pgHoist HOIST.OFFENCES_COUNT 0).set pgHoist
      HOIST.HOIST_STATUS_PAUSED 0 := if_neg (not_not.2 h)

theorem startCheck_busy (arming : Bool) (h : hoistState s ≠ 0) :
    startCheck arming s = s.set pgHoist HOIST.HOIST_STATUS_REFUSED 1 := if_pos h

theorem startCheck_m (arming : Bool) (h : hoistState s = 0) : (startCheck arming s).m = (checkBegun arming s).m := by
  rw [startCheck_idle arming h]
  exact lockSet_m true (checkBegun arming s)

theorem hoistState_startCheck (arming : Bool) (h : hoistState s = 0) : hoistState (startCheck arming s) = 1 := by
  rw [startCheck_idle arming h, hoistState,
    get_set_beside (F := HOIST.HOIST_STATUS_PAUSED) (G := HOIST.HOIST_STATUS_STATE) rfl (by decide) (by decide),
    get_set_word (F := HOIST.OFFENCES_COUNT) (by decide), get_set_word (F := HOIST.SET_PAGES_COUNT) (by decide)]
  exact hoistState_setHoistState (by decide) _

theorem startCheck_counts (arming : Bool) (h : hoistState s = 0) :
    (startCheck arming s).get pgHoist HOIST.SET_PAGES_COUNT = (dirtyPages s).length % 2 ^ HOIST.SET_PAGES_COUNT.width ∧
      (startCheck arming s).get pgHoist HOIST.OFFENCES_COUNT = 0 := by
  rw [startCheck_idle arming h, get_set_word (F := HOIST.HOIST_STATUS_PAUSED) (G := HOIST.SET_PAGES_COUNT) (by decide),
    get_set_word (F := HOIST.OFFENCES_COUNT) (G := HOIST.SET_PAGES_COUNT) (by decide),
    get_set_word (F := HOIST.HOIST_STATUS_PAUSED) (G := HOIST.OFFENCES_COUNT) (by decide)]
  exact ⟨get_set_same _ _ _ _ (by decide), get_set_same _ _ _ _ (by decide)⟩

theorem startCheck_locked (arming : Bool) (h : hoistState s = 0) (hp : p ∈ dirtyPages s) :
    (startCheck arming s).on p HDR.STAGE_STATUS_LOCKED = true := by
  have hpage := pageOf_of_mem_dirtyPages hp
  rw [startCheck_idle arming h, on_set_hoist hpage (by decide) (by decide), on_set_hoist hpage (by decide) (by decide),
    on_set_hoist hpage (by decide) (by decide), checkLocked, setHoistState, on_set_hoist hpage (by decide) (by decide)]
  exact on_lockSet (s := checkBegun arming s) true hp

/-- CHECK and ARM of an idle hoist. -/
theorem startCheck_forms (arming : Bool) (h : hoistState s = 0) :
    hoistState (startCheck arming s) = 1 ∧ (startCheck arming s).m.hoist.set = dirtyPages s ∧
      (startCheck arming s).m.hoist.arming = arming ∧ (startCheck arming s).get pgHoist HOIST.SET_PAGES_COUNT =
        (dirtyPages s).length % 2 ^ HOIST.SET_PAGES_COUNT.width ∧
      (∀ p ∈ dirtyPages s, (startCheck arming s).on p HDR.STAGE_STATUS_LOCKED = true) ∧
      (startCheck arming s).get pgHoist HOIST.OFFENCES_COUNT = 0 ∧ (startCheck arming s).m.hoist.fifo = [] := by
  obtain ⟨hpages, hoff⟩ := startCheck_counts arming h
  have hm := startCheck_m arming h
  exact ⟨hoistState_startCheck arming h, by rw [hm]; rfl, by rw [hm]; rfl, hpages, fun _ hp => startCheck_locked arming h hp, hoff,
    by rw [hm]; rfl⟩

/-- CHECK and ARM of a hoist that is not idle. -/
theorem startCheck_refused (arming : Bool) (h : hoistState s ≠ 0) :
    hoistState (startCheck arming s) = hoistState s ∧ (startCheck arming s).on pgHoist HOIST.HOIST_STATUS_REFUSED = true ∧
      (startCheck arming s).m = s.m := by
  rw [startCheck_busy arming h]
  exact ⟨get_set_beside (F := HOIST.HOIST_STATUS_REFUSED) (G := HOIST.HOIST_STATUS_STATE) rfl (by decide) (by decide) s,
    on_set_one s (by decide) (by decide), rfl⟩

/-- Settles O39: a check that begins by its five writes; DISARM and ABORT by the return to IDLE. -/
theorem hoistCommands : Obligations.HoistCommands := by
  intro s ha
  have hexec : ∀ g : State → State, ifAwake g s = .next (g s) := fun g => ifAwake_on ha
  refine ⟨fun c hc => ?_, fun h => ⟨_, (hexec disarm).trans (congrArg _ (if_pos h)), hoistState_toIdle s, ?_, fun p hp => on_toIdle hp⟩,
    fun h => ⟨_, (hexec abort).trans (congrArg _ (if_pos h)), ?_⟩, fun h => (hexec disarm).trans (congrArg _ (if_neg h)),
    fun h => (hexec abort).trans (congrArg _ (if_neg h))⟩
  · simp only [List.mem_cons, List.not_mem_nil, or_false] at hc
    obtain rfl | rfl := hc
    · exact ⟨fun h => ⟨_, hexec _, startCheck_forms false h⟩, fun h => ⟨_, hexec _, startCheck_refused false h⟩⟩
    · exact ⟨fun h => ⟨_, hexec _, startCheck_forms true h⟩, fun h => ⟨_, hexec _, startCheck_refused true h⟩⟩
  · rw [toIdle_m]
  · obtain ⟨hstate, hverdict, hlocked⟩ := idleWith_set (v := 4) (by decide) s
    refine ⟨hstate, hverdict, ?_, hlocked⟩
    rw [set_m, toIdle_m]

end Sys2Proof.Machine
end


section
namespace Sys2Proof.Machine
open Sys2Proof

variable {s s0 t u : State} {p q : Nat} {x : BitVec 64} {xs : List (BitVec 64)}

/-! ## The course of a check (R247 to R251, R255, R256) -/

/-- What a check reads of its commands, and what says that it runs. -/
def commandFields : List Fld :=
  [HOIST.HOIST_STATUS_STATE, HOIST.HOIST_WHEN_MODE, HOIST.HOIST_WTIME_LO_WTIME, HOIST.HOIST_WTIME_HI_WTIME]

theorem commandFields_apart : ∀ G ∈ commandFields, (0x40 ≤ G.off ∧ G.off < 0x80) ∧ G.lo + G.width ≤ 32 ∧
    G.off ≠ HOIST.OFFENCES_COUNT.off ∧ G.off ≠ HOIST.CHECK_CYCLES_CYCLES.off ∧
    ∀ F ∈ [HOIST.HOIST_STATUS_PAUSED, HOIST.HOIST_STATUS_VERDICT], G.off ≠ F.off ∨ F.lo + F.width ≤ G.lo ∨ G.lo + G.width ≤ F.lo := by
  decide

/-- The check still runs, on the same set, for the same command. -/
structure Checking (s t : State) : Prop where
  fields : ∀ G ∈ commandFields, t.get pgHoist G = s.get pgHoist G
  wtime : t.m.wtime = s.m.wtime
  set : t.m.hoist.set = s.m.hoist.set
  arming : t.m.hoist.arming = s.m.hoist.arming

theorem Checking.refl (s : State) : Checking s s := ⟨fun _ _ => rfl, rfl, rfl, rfl⟩

theorem Checking.trans (h : Checking s t) (g : Checking t u) : Checking s u :=
  ⟨fun G hG => (g.fields G hG).trans (h.fields G hG), g.wtime.trans h.wtime, g.set.trans h.set, g.arming.trans h.arming⟩

theorem Checking.state (h : Checking s t) : hoistState t = hoistState s := h.fields _ (by decide)

theorem Checking.slack (h : Checking s t) : t.on pgHoist HOIST.HOIST_WHEN_MODE = s.on pgHoist HOIST.HOIST_WHEN_MODE := by
  rw [State.on, State.on, h.fields _ (by decide)]

theorem Checking.hoistWtime (h : Checking s t) : hoistWtime t = hoistWtime s := by
  rw [Machine.hoistWtime, Machine.hoistWtime, State.get2, State.get2, h.fields _ (by decide), h.fields _ (by decide)]

theorem hoistReg_off {off : Nat} (h : 0x40 ≤ off ∧ off < 0x1000) : HoistReg (pgHoist + off) := by
  unfold HoistReg
  omega

/-- What leaves the hoist's registers, the time and the set leaves the check running. -/
theorem checking_of_leaves (h : Leaves HoistReg s t) (hset : t.m.hoist.set = s.m.hoist.set)
    (harm : t.m.hoist.arming = s.m.hoist.arming) : Checking s t := by
  refine ⟨fun G hG => h.get _ _ (hoistReg_off ?_), h.wtime, hset, harm⟩
  obtain ⟨hoff, -⟩ := commandFields_apart G hG
  omega

theorem checking_modH {g : HoistSt → HoistSt} (hset : (g s.m.hoist).set = s.m.hoist.set)
    (harm : (g s.m.hoist).arming = s.m.hoist.arming) : Checking s (s.modH g) := ⟨fun _ _ => rfl, rfl, hset, harm⟩

/-- A write of a field of the HOIST page that a check makes of its own. -/
theorem checking_set {F : Fld} (v : Nat) (hF : F ∈ [HOIST.OFFENCES_COUNT, HOIST.CHECK_CYCLES_CYCLES, HOIST.HOIST_STATUS_PAUSED,
    HOIST.HOIST_STATUS_VERDICT]) : Checking s (s.set pgHoist F v) := by
  refine ⟨fun G hG => get_set_apart s v (commandFields_apart G hG).2.1 ?_, rfl, rfl, rfl⟩
  obtain ⟨-, -, hoff, hcyc, hstat⟩ := commandFields_apart G hG
  simp only [List.mem_cons, List.not_mem_nil, or_false] at hF
  obtain rfl | rfl | hF := hF
  · exact .inl hoff
  · exact .inl hcyc
  · exact hstat F (by simpa using hF)

/-! ### Entries put in the FIFO -/

/-- The marks that an entry leaves on its page. -/
def entryMarked (s : State) (x : BitVec 64) : State :=
  let p := pageOf (x.toNat % 2 ^ 40)
  let first := s.get p HDR.STAGE_STATUS_FIRST_RULE
  (s.set p HDR.STAGE_STATUS_VERDICT 2).set p HDR.STAGE_STATUS_FIRST_RULE
    (if first = 0 then x.toNat / 2 ^ 56 else min first (x.toNat / 2 ^ 56))

theorem pushEntry_eq (s : State) (x : BitVec 64) : pushEntry s x =
    (setError (pageOf (x.toNat % 2 ^ 40)) 1 ((entryMarked s x).bumpSat pgHoist HOIST.OFFENCES_COUNT)).modH
      fun h => { h with fifo := h.fifo ++ [x] } := rfl

theorem leaves_entryMarked (s : State) (x : BitVec 64) : Leaves HoistReg s (entryMarked s x) :=
  leaves_setHeader (pageOf_pageOf _) (by decide) _ (leaves_setHeader (pageOf_pageOf _) (by decide) _ (.refl s))

theorem pushEntry_m (s : State) (x : BitVec 64) :
    (pushEntry s x).m = { s.m with hoist := { s.m.hoist with fifo := s.m.hoist.fifo ++ [x] } } := by
  rw [pushEntry_eq, State.modH, setError_m]
  rfl

theorem checking_pushEntry (s : State) (x : BitVec 64) : Checking s (pushEntry s x) := by
  have h1 : Checking s (entryMarked s x) := checking_of_leaves (leaves_entryMarked s x) rfl rfl
  have h2 : Checking (entryMarked s x) ((entryMarked s x).bumpSat pgHoist HOIST.OFFENCES_COUNT) :=
    checking_set (F := HOIST.OFFENCES_COUNT) _ (by decide)
  have h3 := checking_of_leaves (leaves_setError_hoist (pageOf_pageOf (x.toNat % 2 ^ 40)) 1
    (.refl ((entryMarked s x).bumpSat pgHoist HOIST.OFFENCES_COUNT))) (by rw [setError_m]) (by rw [setError_m])
  rw [pushEntry_eq]
  exact (h1.trans h2).trans (h3.trans (checking_modH rfl rfl))

/-- Every entry counts as an offence. -/
theorem offences_pushEntry (s : State) (x : BitVec 64) : (pushEntry s x).get pgHoist HOIST.OFFENCES_COUNT ≠ 0 := by
  have h : (pushEntry s x).get pgHoist HOIST.OFFENCES_COUNT =
      ((entryMarked s x).bumpSat pgHoist HOIST.OFFENCES_COUNT).get pgHoist HOIST.OFFENCES_COUNT :=
    (leaves_setError_hoist (pageOf_pageOf (x.toNat % 2 ^ 40)) 1 (.refl _)).get pgHoist HOIST.OFFENCES_COUNT (hoistReg_off (by decide))
  rw [h, get_bumpSat_same 1 (by decide)]
  simp [HOIST.OFFENCES_COUNT]

theorem foldl_pushEntry (xs : List (BitVec 64)) (s : State) :
    (xs.foldl pushEntry s).m = { s.m with hoist := { s.m.hoist with fifo := s.m.hoist.fifo ++ xs } } := by
  induction xs generalizing s with
  | nil => simp
  | cons x xs ih => rw [List.foldl_cons, ih, pushEntry_m, List.append_assoc, List.singleton_append]

theorem checking_foldl_pushEntry (xs : List (BitVec 64)) (s : State) : Checking s (xs.foldl pushEntry s) :=
  keeps_foldl (P := Checking s) (fun u x _ hu => hu.trans (checking_pushEntry u x)) (.refl s)

theorem offences_foldl_pushEntry (hxs : xs ≠ []) (s : State) : (xs.foldl pushEntry s).get pgHoist HOIST.OFFENCES_COUNT ≠ 0 := by
  obtain ⟨x, hx⟩ := List.exists_mem_of_ne_nil xs hxs
  exact foldl_establishes (P := fun u => u.get pgHoist HOIST.OFFENCES_COUNT ≠ 0) (Q := fun _ => True) hx
    (fun u _ => offences_pushEntry u x) (fun _ _ _ _ => trivial) (fun u y _ _ => offences_pushEntry u y) trivial

/-! ### The FIFO filled as far as it has room -/

/-- The free places of the FIFO. -/
def fifoRoom (s : State) : Nat := 64 - s.m.hoist.fifo.length

/-- The entries that the FIFO has room for, put in it. -/
def entriesPushed (s : State) : State :=
  (s.m.hoist.todo.take (fifoRoom s)).foldl pushEntry (s.modH fun h => { h with todo := h.todo.drop (fifoRoom s) })

/-- The bookkeeping of a pause. -/
def pauseTimed (now was : Bool) (wtime : Nat) (h : HoistSt) : HoistSt :=
  if now && !was then { h with pausedAt := wtime }
  else if was && !now then { h with checkStart := h.checkStart + (wtime - h.pausedAt) } else h

theorem pauseTimed_frame (now was : Bool) (w : Nat) (h : HoistSt) : (pauseTimed now was w h).fifo = h.fifo ∧
    (pauseTimed now was w h).todo = h.todo ∧ (pauseTimed now was w h).set = h.set ∧ (pauseTimed now was w h).arming = h.arming ∧
    (pauseTimed now was w h).judged = h.judged := by
  unfold pauseTimed
  split
  · exact ⟨rfl, rfl, rfl, rfl, rfl⟩
  · split <;> exact ⟨rfl, rfl, rfl, rfl, rfl⟩

/-- Entries are left that the FIFO has no room for. -/
def overflows (s : State) : Bool := decide (fifoRoom s < s.m.hoist.todo.length)

theorem pushEntries_eq (s : State) : pushEntries s =
    ((entriesPushed s).set pgHoist HOIST.HOIST_STATUS_PAUSED (bit (overflows s))).modH
      (pauseTimed (overflows s) (s.on pgHoist HOIST.HOIST_STATUS_PAUSED) (entriesPushed s).m.wtime) := rfl

theorem entriesPushed_m (s : State) : (entriesPushed s).m = { s.m with hoist := { s.m.hoist with
    fifo := s.m.hoist.fifo ++ s.m.hoist.todo.take (fifoRoom s), todo := s.m.hoist.todo.drop (fifoRoom s) } } :=
  foldl_pushEntry _ _

theorem pushEntries_fifo (s : State) : (pushEntries s).m.hoist.fifo = s.m.hoist.fifo ++ s.m.hoist.todo.take (fifoRoom s) ∧
    (pushEntries s).m.hoist.todo = s.m.hoist.todo.drop (fifoRoom s) := by
  obtain ⟨hfifo, htodo, -⟩ := pauseTimed_frame (overflows s) (s.on pgHoist HOIST.HOIST_STATUS_PAUSED)
    (entriesPushed s).m.wtime (entriesPushed s).m.hoist
  rw [entriesPushed_m] at hfifo htodo
  rw [pushEntries_eq]
  simp only [State.modH, set_m, entriesPushed_m]
  exact ⟨hfifo, htodo⟩

theorem checking_pushEntries (s : State) : Checking s (pushEntries s) := by
  have h1 : Checking s (entriesPushed s) := (checking_modH rfl rfl).trans (checking_foldl_pushEntry _ _)
  have h2 : Checking (entriesPushed s) ((entriesPushed s).set pgHoist HOIST.HOIST_STATUS_PAUSED (bit (overflows s))) :=
    checking_set (F := HOIST.HOIST_STATUS_PAUSED) _ (by decide)
  obtain ⟨-, -, hset, harm, -⟩ := pauseTimed_frame (overflows s) (s.on pgHoist HOIST.HOIST_STATUS_PAUSED)
    (entriesPushed s).m.wtime (entriesPushed s).m.hoist
  rw [pushEntries_eq]
  exact (h1.trans h2).trans (checking_modH hset harm)

theorem pushEntries_paused (s : State) : (pushEntries s).on pgHoist HOIST.HOIST_STATUS_PAUSED = overflows s :=
  on_set_bit (F := HOIST.HOIST_STATUS_PAUSED) (by decide) rfl (entriesPushed s)

theorem pushEntries_offences (s : State) :
    (pushEntries s).get pgHoist HOIST.OFFENCES_COUNT = (entriesPushed s).get pgHoist HOIST.OFFENCES_COUNT :=
  get_set_word (F := HOIST.HOIST_STATUS_PAUSED) (G := HOIST.OFFENCES_COUNT) (by decide) (entriesPushed s)

/-- Nothing to put in the FIFO: the pages keep their verdicts, and the offences their count. -/
theorem pushEntries_nil (h : s.m.hoist.todo = []) : (pushEntries s).get pgHoist HOIST.OFFENCES_COUNT =
      s.get pgHoist HOIST.OFFENCES_COUNT ∧
    ∀ p, pageOf p = p → (pushEntries s).get p HDR.STAGE_STATUS_VERDICT = s.get p HDR.STAGE_STATUS_VERDICT := by
  have hlive : (entriesPushed s).live = s.live := by
    rw [entriesPushed, h, List.take_nil]
    rfl
  refine ⟨(pushEntries_offences s).trans (get_of_live hlive), fun p hp => ?_⟩
  exact (get_set_hoist (G := HOIST.HOIST_STATUS_PAUSED) hp (by decide) (by decide) _ (entriesPushed s)).trans (get_of_live hlive)

/-! ### The set judged -/

/-- The pages of the set without a verdict. -/
def verdictsCleared (s : State) : State :=
  s.m.hoist.set.foldl (fun s p => (s.set p HDR.STAGE_STATUS_VERDICT 0).set p HDR.STAGE_STATUS_FIRST_RULE 0) s

/-- The offences of the set, to be put in the FIFO. -/
def offencesFound (s : State) : State :=
  (verdictsCleared s).modH fun h => { h with judged := true, todo := checkEntries s.m.hoist.set s }

theorem judgeSet_eq (s : State) : judgeSet s = pushEntries (offencesFound s) := rfl

theorem offencesFound_m (s : State) : (offencesFound s).m =
    { s.m with hoist := { s.m.hoist with judged := true, todo := checkEntries s.m.hoist.set s } } := by
  have h : (verdictsCleared s).m = s.m := keeps_foldl (P := fun u => u.m = s.m) (fun _ _ _ hu => hu) rfl
  rw [offencesFound, State.modH, h]

theorem leaves_verdictsCleared (hset : ∀ p ∈ s.m.hoist.set, pageOf p = p) : Leaves HoistReg s (verdictsCleared s) :=
  leaves_foldl (fun _ p hp hu => leaves_setHeader (hset p hp) (by decide) _ (leaves_setHeader (hset p hp) (by decide) _ hu)) (.refl s)

theorem checking_offencesFound (hset : ∀ p ∈ s.m.hoist.set, pageOf p = p) : Checking s (offencesFound s) := by
  have hm := offencesFound_m s
  exact checking_of_leaves (leaves_frame (leaves_verdictsCleared hset) rfl rfl) (by rw [hm]) (by rw [hm])

theorem get_verdictsCleared (hp : p ∈ s.m.hoist.set) : (verdictsCleared s).get p HDR.STAGE_STATUS_VERDICT = 0 := by
  have hrule : ∀ (u : State) (q : Nat), (u.set q HDR.STAGE_STATUS_FIRST_RULE 0).get p HDR.STAGE_STATUS_VERDICT =
      u.get p HDR.STAGE_STATUS_VERDICT := fun u q =>
    get_set_status (F := HDR.STAGE_STATUS_FIRST_RULE) (G := HDR.STAGE_STATUS_VERDICT) rfl (by decide) (by decide) 0 u
  refine foldl_establishes (P := fun u => u.get p HDR.STAGE_STATUS_VERDICT = 0) (Q := fun _ => True) hp (fun u _ => ?_)
    (fun _ _ _ _ => trivial) (fun u q _ hu => ?_) trivial
  · rw [hrule]
    exact get_set_same _ _ _ _ (by decide)
  · rw [hrule]
    exact get_set_zero_of_zero hu

theorem checking_judgeSet (hset : ∀ p ∈ s.m.hoist.set, pageOf p = p) : Checking s (judgeSet s) :=
  (checking_offencesFound hset).trans (checking_pushEntries _)

theorem judgeSet_fifo (s : State) :
    (judgeSet s).m.hoist.fifo = s.m.hoist.fifo ++ (checkEntries s.m.hoist.set s).take (fifoRoom s) ∧
      (judgeSet s).m.hoist.todo = (checkEntries s.m.hoist.set s).drop (fifoRoom s) := by
  have h := pushEntries_fifo (offencesFound s)
  rw [fifoRoom, offencesFound_m] at h
  exact h

theorem judgeSet_paused (s : State) : (judgeSet s).on pgHoist HOIST.HOIST_STATUS_PAUSED =
    decide (fifoRoom s < (checkEntries s.m.hoist.set s).length) := by
  rw [judgeSet_eq, pushEntries_paused, overflows, fifoRoom, offencesFound_m]
  rfl

/-- Offences that the FIFO takes are counted. -/
theorem judgeSet_offences (hroom : fifoRoom s ≠ 0) (h : checkEntries s.m.hoist.set s ≠ []) :
    (judgeSet s).get pgHoist HOIST.OFFENCES_COUNT ≠ 0 := by
  rw [judgeSet_eq, pushEntries_offences]
  refine offences_foldl_pushEntry ?_ _
  rw [fifoRoom, offencesFound_m]
  exact fun hnil => (List.take_eq_nil_iff.1 hnil).elim hroom h

/-- A set without an offence. -/
theorem judgeSet_nil (hset : ∀ p ∈ s.m.hoist.set, pageOf p = p) (h : checkEntries s.m.hoist.set s = []) :
    (judgeSet s).get pgHoist HOIST.OFFENCES_COUNT = s.get pgHoist HOIST.OFFENCES_COUNT ∧
      ∀ p ∈ s.m.hoist.set, (judgeSet s).get p HDR.STAGE_STATUS_VERDICT = 0 := by
  have htodo : (offencesFound s).m.hoist.todo = [] := by rw [offencesFound_m, h]
  obtain ⟨hoff, hverdict⟩ := pushEntries_nil htodo
  refine ⟨hoff.trans ((leaves_verdictsCleared hset).get pgHoist HOIST.OFFENCES_COUNT (hoistReg_off (by decide))), fun p hp => ?_⟩
  exact (hverdict p (hset p hp)).trans (get_verdictsCleared hp)

/-! ### The end of a check -/

/-- The cycles that the check took, and a verdict on every page without an offence. -/
def pagesPassed (s : State) : State :=
  s.m.hoist.set.foldl (fun s p => if s.get p HDR.STAGE_STATUS_VERDICT = 2 then s else s.set p HDR.STAGE_STATUS_VERDICT 1)
    (s.set pgHoist HOIST.CHECK_CYCLES_CYCLES (min (s.m.wtime - s.m.hoist.checkStart) (240000 + 8 * s.m.hoist.set.length)))

theorem finishCheck_eq (s : State) : finishCheck s =
    if (pagesPassed s).get pgHoist HOIST.OFFENCES_COUNT ≠ 0 then
      (toIdle (pagesPassed s)).set pgHoist HOIST.HOIST_STATUS_VERDICT 2
    else if s.m.hoist.arming then armPassed ((pagesPassed s).set pgHoist HOIST.HOIST_STATUS_VERDICT 1)
    else toIdle ((pagesPassed s).set pgHoist HOIST.HOIST_STATUS_VERDICT 1) := rfl

theorem pagesPassed_m (s : State) : (pagesPassed s).m = s.m :=
  keeps_foldl (P := fun u => u.m = s.m) (fun _ _ _ hu => keeps_ite (P := fun u => u.m = s.m) (fun _ => hu) fun _ => hu) rfl

theorem leaves_pagesPassed (hset : ∀ p ∈ s.m.hoist.set, pageOf p = p) : Leaves HoistReg (s.set pgHoist HOIST.CHECK_CYCLES_CYCLES
    (min (s.m.wtime - s.m.hoist.checkStart) (240000 + 8 * s.m.hoist.set.length))) (pagesPassed s) :=
  leaves_foldl (fun _ p hp hu => leaves_ite (fun _ => hu) fun _ => leaves_setHeader (hset p hp) (by decide) _ hu) (.refl _)

theorem checking_pagesPassed (hset : ∀ p ∈ s.m.hoist.set, pageOf p = p) : Checking s (pagesPassed s) := by
  have hm := pagesPassed_m s
  exact (checking_set (F := HOIST.CHECK_CYCLES_CYCLES) _ (by decide)).trans
    (checking_of_leaves (leaves_pagesPassed hset) (by rw [hm]; rfl) (by rw [hm]; rfl))

theorem offences_pagesPassed (hset : ∀ p ∈ s.m.hoist.set, pageOf p = p) :
    (pagesPassed s).get pgHoist HOIST.OFFENCES_COUNT = s.get pgHoist HOIST.OFFENCES_COUNT :=
  ((leaves_pagesPassed hset).get pgHoist HOIST.OFFENCES_COUNT (hoistReg_off (by decide))).trans
    (get_set_word (F := HOIST.CHECK_CYCLES_CYCLES) (G := HOIST.OFFENCES_COUNT) (by decide) s)

/-- A page of the set whose verdict is not FAIL has passed. -/
theorem verdict_pagesPassed (hset : ∀ p ∈ s.m.hoist.set, pageOf p = p) (hp : p ∈ s.m.hoist.set)
    (h : s.get p HDR.STAGE_STATUS_VERDICT ≠ 2) : (pagesPassed s).get p HDR.STAGE_STATUS_VERDICT = 1 := by
  have hset1 : ∀ u : State, (u.set p HDR.STAGE_STATUS_VERDICT 1).get p HDR.STAGE_STATUS_VERDICT = 1 := fun u =>
    get_set_fits (by decide) (by decide) u
  have hother : ∀ (u : State) (q : Nat), q ≠ p → (u.set q HDR.STAGE_STATUS_VERDICT 1).get p HDR.STAGE_STATUS_VERDICT =
      u.get p HDR.STAGE_STATUS_VERDICT := fun u q hq => get_set_other u 1 (by omega)
  refine foldl_establishes (P := fun u => u.get p HDR.STAGE_STATUS_VERDICT = 1)
    (Q := fun u => u.get p HDR.STAGE_STATUS_VERDICT ≠ 2) hp (fun u hu => ?_) (fun u q _ hu => ?_) (fun u q _ hu => ?_) ?_
  · rw [if_neg hu, hset1]
  · refine keeps_ite (P := fun u => u.get p HDR.STAGE_STATUS_VERDICT ≠ 2) (fun _ => hu) fun _ => ?_
    by_cases hq : q = p
    · rw [hq, hset1]
      decide
    · rwa [hother u q hq]
  · refine keeps_ite (P := fun u => u.get p HDR.STAGE_STATUS_VERDICT = 1) (fun _ => hu) fun _ => ?_
    by_cases hq : q = p
    · rw [hq, hset1]
    · rwa [hother u q hq]
  · rwa [get_set_hoist (hset p hp) (by decide) (by decide)]

/-- The instant of a MODE 0 hoist lies less than 64 cycles ahead. -/
def isLate (s : State) : Bool := !s.on pgHoist HOIST.HOIST_WHEN_MODE && decide (hoistWtime s < s.m.wtime + 64)

/-- The hoist is armed, with the WTIME of its pass. -/
def ArmedBy (s t : State) : Prop := hoistState t = 2 ∧ ∃ a, t.m.hoist.armed = some a ∧ a.passAt = s.m.wtime ∧
  a.wtime = hoistWtime s ∧ a.slack = s.on pgHoist HOIST.HOIST_WHEN_MODE

theorem Checking.isLate (h : Checking s t) : isLate t = isLate s := by
  rw [Machine.isLate, Machine.isLate, h.slack, h.hoistWtime, h.wtime]

theorem ArmedBy.of_checking (h : Checking s t) (g : ArmedBy t u) : ArmedBy s u := by
  unfold ArmedBy at *
  rwa [h.slack, h.hoistWtime, h.wtime] at g

theorem armPassed_late (h : isLate s = true) : armPassed s = (toIdle s).set pgHoist HOIST.HOIST_STATUS_VERDICT 3 := if_pos h

theorem armPassed_armed (h : isLate s = false) : ArmedBy s (armPassed s) := by
  have harm : armPassed s = (setHoistState 2 s).modH fun h => { h with armed := some ⟨s.on pgHoist HOIST.HOIST_WHEN_MODE,
      hoistWtime s, s.m.wtime⟩ } := if_neg (by rw [← isLate, h]; decide)
  rw [harm]
  exact ⟨hoistState_setHoistState (by decide) s, _, rfl, rfl, rfl, rfl⟩

/-- How a check that has all its entries in the FIFO ends. -/
structure Finished (s t : State) : Prop where
  fail : s.get pgHoist HOIST.OFFENCES_COUNT ≠ 0 → IdleWith 2 s.m.hoist.set t ∧ t.m.hoist.fifo = s.m.hoist.fifo
  pass : s.get pgHoist HOIST.OFFENCES_COUNT = 0 → s.m.hoist.arming = false → IdleWith 1 s.m.hoist.set t ∧
    ∀ p ∈ s.m.hoist.set, s.get p HDR.STAGE_STATUS_VERDICT ≠ 2 → t.get p HDR.STAGE_STATUS_VERDICT = 1
  armed : s.get pgHoist HOIST.OFFENCES_COUNT = 0 → s.m.hoist.arming = true → isLate s = false → ArmedBy s t
  late : s.get pgHoist HOIST.OFFENCES_COUNT = 0 → s.m.hoist.arming = true → isLate s = true → IdleWith 3 s.m.hoist.set t

theorem finishCheck_fail (hset : ∀ p ∈ s.m.hoist.set, pageOf p = p) (h : s.get pgHoist HOIST.OFFENCES_COUNT ≠ 0) :
    IdleWith 2 s.m.hoist.set (finishCheck s) ∧ (finishCheck s).m.hoist.fifo = s.m.hoist.fifo := by
  rw [finishCheck_eq, offences_pagesPassed hset, if_pos h]
  have hidle := idleWith_set (v := 2) (by decide) (pagesPassed s)
  rw [pagesPassed_m] at hidle
  exact ⟨hidle, by rw [set_m, toIdle_m, pagesPassed_m]⟩

theorem finishCheck_of_none (hset : ∀ p ∈ s.m.hoist.set, pageOf p = p) (h : s.get pgHoist HOIST.OFFENCES_COUNT = 0) :
    finishCheck s = if s.m.hoist.arming then armPassed ((pagesPassed s).set pgHoist HOIST.HOIST_STATUS_VERDICT 1)
      else toIdle ((pagesPassed s).set pgHoist HOIST.HOIST_STATUS_VERDICT 1) := by
  rw [finishCheck_eq, offences_pagesPassed hset, if_neg (not_not.2 h)]

theorem checking_passed (hset : ∀ p ∈ s.m.hoist.set, pageOf p = p) :
    Checking s ((pagesPassed s).set pgHoist HOIST.HOIST_STATUS_VERDICT 1) :=
  (checking_pagesPassed hset).trans (checking_set (F := HOIST.HOIST_STATUS_VERDICT) 1 (by decide))

theorem idleWith_toIdle {v : Nat} (hset : ∀ p ∈ s.m.hoist.set, pageOf p = p)
    (h : s.get pgHoist HOIST.HOIST_STATUS_VERDICT = v) : IdleWith v s.m.hoist.set (toIdle s) := by
  refine ⟨hoistState_toIdle s, ?_, fun p hp => on_toIdle hp⟩
  calc (toIdle s).get pgHoist HOIST.HOIST_STATUS_VERDICT
    _ = ((lockSet false s).set pgHoist HOIST.HOIST_STATUS_PAUSED 0).get pgHoist HOIST.HOIST_STATUS_VERDICT :=
      get_set_beside (F := HOIST.HOIST_STATUS_STATE) (G := HOIST.HOIST_STATUS_VERDICT) rfl (by decide) (by decide) _
    _ = (lockSet false s).get pgHoist HOIST.HOIST_STATUS_VERDICT :=
      get_set_beside (F := HOIST.HOIST_STATUS_PAUSED) (G := HOIST.HOIST_STATUS_VERDICT) rfl (by decide) (by decide) _
    _ = s.get pgHoist HOIST.HOIST_STATUS_VERDICT := (leaves_lockSet false hset (.refl s)).get pgHoist _ (hoistReg_off (by decide))
    _ = v := h

theorem finishCheck_pass (hset : ∀ p ∈ s.m.hoist.set, pageOf p = p) (h : s.get pgHoist HOIST.OFFENCES_COUNT = 0)
    (ha : s.m.hoist.arming = false) : IdleWith 1 s.m.hoist.set (finishCheck s) ∧
      ∀ p ∈ s.m.hoist.set, s.get p HDR.STAGE_STATUS_VERDICT ≠ 2 → (finishCheck s).get p HDR.STAGE_STATUS_VERDICT = 1 := by
  have hsame := (checking_passed hset).set
  rw [finishCheck_of_none hset h, if_neg (by rw [ha]; decide)]
  refine ⟨?_, fun p hp hv => ?_⟩
  · rw [← hsame]
    exact idleWith_toIdle (hsame.symm ▸ hset) (get_set_fits (by decide) (by decide) _)
  · rw [get_toIdle_verdict (hset p hp), get_set_hoist (hset p hp) (by decide) (by decide)]
    exact verdict_pagesPassed hset hp hv

theorem finishCheck_finished (hset : ∀ p ∈ s.m.hoist.set, pageOf p = p) : Finished s (finishCheck s) := by
  have hc := checking_passed hset
  refine ⟨finishCheck_fail hset, finishCheck_pass hset, fun h ha hl => ?_, fun h ha hl => ?_⟩
  · rw [finishCheck_of_none hset h, if_pos ha]
    exact .of_checking hc (armPassed_armed (hc.isLate.trans hl))
  · rw [finishCheck_of_none hset h, if_pos ha, armPassed_late (hc.isLate.trans hl), ← hc.set]
    exact idleWith_set (by decide) _

/-! ### CHECK_END and FIFO_HI_READ -/

theorem checkEnd_judge (h : hoistState s = 1) (hj : s.m.hoist.judged = false) :
    checkEnd s = if (judgeSet s).m.hoist.todo = [] then finishCheck (judgeSet s) else judgeSet s := by
  unfold checkEnd
  simp only [h, hj, ne_eq, not_true_eq_false, if_false, Bool.false_eq_true]

theorem checkEnd_judged (h : hoistState s = 1) (hj : s.m.hoist.judged = true) :
    checkEnd s = if s.m.hoist.todo = [] then finishCheck s else s := by
  unfold checkEnd
  simp only [h, hj, ne_eq, not_true_eq_false, if_false, if_true]

/-- A check whose offences all find room ends on the state in which they stand in the FIFO. -/
theorem checkEnd_finishes (h : hoistState s = 1) (hj : s.m.hoist.judged = false)
    (hroom : (checkEntries s.m.hoist.set s).length ≤ fifoRoom s) : checkEnd s = finishCheck (judgeSet s) := by
  rw [checkEnd_judge h hj, if_pos]
  rw [(judgeSet_fifo s).2]
  exact List.drop_eq_nil_of_le hroom

/-- A check that the FIFO has no room for pauses. -/
theorem checkEnd_pauses (h : hoistState s = 1) (hj : s.m.hoist.judged = false)
    (hroom : fifoRoom s < (checkEntries s.m.hoist.set s).length) : checkEnd s = judgeSet s := by
  rw [checkEnd_judge h hj, if_neg]
  rw [(judgeSet_fifo s).2]
  exact fun hnil => absurd (List.drop_eq_nil_iff.1 hnil) (Nat.not_le.2 hroom)

theorem popFifo_idle (h : hoistState s ≠ 1) : popFifo s = s.modH fun h => { h with fifo := h.fifo.tail } := if_neg h

theorem popFifo_checking (h : hoistState s = 1) : popFifo s = pushEntries (s.modH fun h => { h with fifo := h.fifo.tail }) := if_pos h

/-- Settles O40: the judgement of the set and the end of the check as their own lemmas. The values are those at the check's end
(log 51); CHECK_END outside a check changes nothing (log 4). -/
theorem checkEndAndFifoRead : Obligations.CheckEndAndFifoRead := by
  intro s ha hset
  have hexec : ∀ g : State → State, ifAwake g s = .next (g s) := fun g => ifAwake_on ha
  have hc := checking_judgeSet hset
  have hset' : ∀ p ∈ (judgeSet s).m.hoist.set, pageOf p = p := hc.set.symm ▸ hset
  refine ⟨fun h hj => ⟨fun hroom => ⟨_, hexec checkEnd, ?_⟩, fun hroom hne => ⟨_, hexec checkEnd, ?_⟩,
    fun hnil hoff => ⟨_, hexec checkEnd, ?_⟩⟩, fun h hj => ⟨fun ht => ?_, fun ht => ⟨_, hexec checkEnd, ?_⟩⟩,
    fun h => (hexec checkEnd).trans (congrArg _ (if_pos h)), ⟨_, hexec popFifo, fun h => ?_, fun h => ?_⟩⟩
  · obtain ⟨hfifo, htodo⟩ := judgeSet_fifo s
    rw [checkEnd_pauses h hj hroom]
    exact ⟨hc.state.trans h, (judgeSet_paused s).trans (decide_eq_true hroom), hfifo, htodo⟩
  · rw [checkEnd_finishes h hj hroom]
    have hpos := List.length_pos_iff.2 hne
    have hroom0 : fifoRoom s ≠ 0 := fun h0 => by
      have : (checkEntries s.m.hoist.set s).length ≤ fifoRoom s := hroom
      omega
    obtain ⟨hidle, hfifo⟩ := (finishCheck_finished hset').fail (judgeSet_offences hroom0 hne)
    rw [hc.set] at hidle
    refine ⟨hidle, ?_⟩
    rw [hfifo, (judgeSet_fifo s).1, fifoRoom, List.take_of_length_le hroom]
  · have hfin := finishCheck_finished hset'
    obtain ⟨hcount, hverdict⟩ := judgeSet_nil hset hnil
    have hzero := hcount.trans hoff
    rw [checkEnd_finishes h hj (by rw [hnil]; exact Nat.zero_le _)]
    refine ⟨fun harm => ?_, fun harm hl => ArmedBy.of_checking hc (hfin.armed hzero (hc.arming.trans harm) (hc.isLate.trans hl)),
      fun harm hl => ?_⟩
    · obtain ⟨hidle, hpages⟩ := hfin.pass hzero (hc.arming.trans harm)
      rw [hc.set] at hidle hpages
      exact ⟨hidle, fun p hp => hpages p hp (by rw [hverdict p hp]; decide)⟩
    · exact hc.set ▸ hfin.late hzero (hc.arming.trans harm) (hc.isLate.trans hl)
  · exact (hexec checkEnd).trans (congrArg _ ((checkEnd_judged h hj).trans (if_neg ht)))
  · have hfin := finishCheck_finished hset
    rw [checkEnd_judged h hj, if_pos ht]
    exact ⟨fun ho => (hfin.fail ho).1, fun ho harm => (hfin.pass ho harm).1, hfin.armed, hfin.late⟩
  · rw [popFifo_idle h]
    exact ⟨rfl, rfl⟩
  · rw [popFifo_checking h]
    exact pushEntries_fifo _

end Sys2Proof.Machine
end


section
namespace Sys2Proof.Machine
open Sys2Proof

/-! PROOFS. The hoist instant (O41): what the roster's edge leaves of the pages beyond the Mast's, then the application of the one page
of the set. -/

variable {s s0 t u : State} {p w : Nat} {kd : PageKind}

/-! ## Pages beyond the Mast's -/

/-- No page of class 0. -/
def BeyondMast (a : Nat) : Prop := 0x1000000000 ≤ a

theorem beyondMast_le_mainPlace : BeyondMast ≤ MainPlace := fun a h => by
  unfold BeyondMast at h
  unfold MainPlace
  omega

theorem leaves_setMast {q v : Nat} {F : Fld} (hq : q + F.off < 0x1000000000) (h : Leaves BeyondMast s0 s) :
    Leaves BeyondMast s0 (s.set q F v) :=
  leaves_set v (fun a ha => by unfold BeyondMast at ha; omega) h

theorem leaves_setRoster {v : Nat} {F : Fld} (hF : F.off < 0x1000) (h : Leaves BeyondMast s0 s) :
    Leaves BeyondMast s0 (s.set pgRoster F v) :=
  leaves_setMast (by have hp : pgRoster = 0x10000 := rfl; omega) h

theorem leaves_counts_beyond (h : Leaves BeyondMast s0 s) : Leaves BeyondMast s0 (counts s) := by
  refine leaves_setRoster (by decide) (leaves_setRoster (by decide) (leaves_setRoster (by decide) (leaves_setRoster (by decide)
    (leaves_foldl (fun u f hf hu => leaves_setMast ?_ hu) (leaves_setRoster (by decide) (leaves_setRoster (by decide) h))))))
  have := List.mem_range.1 hf
  simp only [pgRostf_eq, ROSTF.LOGICAL_COUNT]
  omega

theorem leaves_bringup_beyond (h : Leaves BeyondMast s0 s) : Leaves BeyondMast s0 (bringup s) := by
  unfold bringup
  iterate 4 refine leaves_setRoster (by decide) ?_
  exact h

/-- What follows from a change of the roster leaves every page beyond the Mast's. -/
theorem leaves_settle_beyond (r : State) (h : Leaves BeyondMast s0 s) : Leaves BeyondMast s0 (settle r s) := by
  have hsum : Leaves BeyondMast s0 (summaries r s) := leaves_setRoster (by decide) (leaves_bringup_beyond (leaves_counts_beyond h))
  exact leaves_orderEdge r (leaves_settleEos beyondMast_le_mainPlace (leaves_doneSeen
    (leaves_ite (fun _ => leaves_pageEvent beyondMast_le_mainPlace _ hsum) fun _ => hsum)))

theorem pageOf_add {off : Nat} (hp : pageOf p = p) (hoff : off < 0x1000) : pageOf (p + off) = p := by
  unfold pageOf at hp ⊢
  have hpage : (p + off) / 4096 = p / 4096 := by omega
  rw [hpage, hp]

/-! ## The application of a page (R259) -/

theorem makeLive_shadow (p : Nat) (s : State) : (makeLive p s).shadow = s.shadow :=
  keeps_foldl (P := fun u => u.shadow = s.shadow)
    (fun _ _ _ hu => keeps_ite (P := fun u => u.shadow = s.shadow) (fun _ => hu) fun _ => hu) rfl

theorem makeLive_m (p : Nat) (s : State) : (makeLive p s).m = s.m :=
  keeps_foldl (P := fun u => u.m = s.m) (fun _ _ _ hu => keeps_ite (P := fun u => u.m = s.m) (fun _ => hu) fun _ => hu) rfl

theorem stagedWord_of_unstaged (h : stageMask w = 0) (s : State) : stagedWord s w = s.word w := by
  rw [stagedWord, h]
  exact overlay_zero _ _

theorem overlay_same (m x : Word) : overlay m x x = x := by
  ext i
  simp only [overlay, BitVec.getElem_and, BitVec.getElem_or, BitVec.getElem_not]
  cases m[i] <;> simp

/-- Every word of the page holds its staged fields from the shadow, and its other fields as before. -/
theorem word_makeLive (s : State) (w : Nat) : (makeLive (pageOf w) s).word w = stagedWord s w := by
  have hother : ∀ (u : State) (b : Nat), w ≠ b →
      (if stageMask b = 0 then u else u.setWord b (stagedWord s b)).word w = u.word w := fun u b hb =>
    keeps_ite (P := fun v => v.word w = u.word w) (fun _ => rfl) fun _ => word_setWord_other u _ hb
  by_cases hm : stageMask w = 0
  · rw [stagedWord_of_unstaged hm]
    refine keeps_foldl (P := fun u => u.word w = s.word w) (fun u b _ hu => ?_) rfl
    by_cases hb : w = b
    · rwa [← hb, if_pos hm]
    · rwa [hother u b hb]
  · by_cases hw : w ∈ pageWords s (pageOf w)
    · have hsame : ∀ u : State, (if stageMask w = 0 then u else u.setWord w (stagedWord s w)).word w = stagedWord s w := fun u => by
        rw [if_neg hm, word_setWord_same]
      refine foldl_establishes (P := fun u => u.word w = stagedWord s w) (Q := fun _ => True) hw (fun u _ => hsame u)
        (fun _ _ _ _ => trivial) (fun u b _ hu => ?_) trivial
      by_cases hb : w = b
      · exact hb ▸ hsame u
      · rwa [hother u b hb]
    · obtain ⟨hlive, hshadow⟩ := word_of_not_mem_pageWords hw
      rw [stagedWord, hlive, hshadow, overlay_same]
      refine keeps_foldl (P := fun u => u.word w = resetWord w) (fun u b hb hu => ?_) hlive
      rwa [hother u b (ne_of_mem_of_not_mem hb hw).symm]

theorem word_applyPage (ho : 0x40 ≤ offOf w) (s : State) : (applyPage (pageOf w) s).word w = stagedWord s w := by
  have hne : ∀ {F : Fld}, F.off < 0x40 → w ≠ pageOf w + F.off := fun hF => ne_header_of_le_offOf hF ho
  unfold applyPage State.bump
  rw [word_set_other _ _ (hne (by decide)), word_set_other _ _ (hne (by decide)), word_set_other _ _ (hne (by decide))]
  exact word_makeLive s w

/-- The page is clean and unlocked. -/
theorem applyPage_status (p : Nat) (s : State) :
    (applyPage p s).on p HDR.STAGE_STATUS_DIRTY = false ∧ (applyPage p s).on p HDR.STAGE_STATUS_LOCKED = false := by
  unfold applyPage State.bump
  generalize makeLive p s = u
  refine ⟨?_, ?_⟩
  · rw [State.on, get_set_word (F := HDR.PAGE_GENERATION_GEN) (G := HDR.STAGE_STATUS_DIRTY) (by decide),
      get_set_beside (F := HDR.STAGE_STATUS_LOCKED) (G := HDR.STAGE_STATUS_DIRTY) rfl (by decide) (by decide)]
    exact on_set_zero u p HDR.STAGE_STATUS_DIRTY (by decide)
  · rw [State.on, get_set_word (F := HDR.PAGE_GENERATION_GEN) (G := HDR.STAGE_STATUS_LOCKED) (by decide)]
    exact on_set_zero _ p HDR.STAGE_STATUS_LOCKED (by decide)

theorem applyPage_m (p : Nat) (s : State) : (applyPage p s).m = s.m := makeLive_m p s

/-! ## The instant of a set of one page -/

/-- The kinds of pages whose application has no further effect. -/
def quietKinds : List PageKind := [.berth, .netlFlow, .fpwr, .ftopo, .tile0, .tile2, .tile3]

theorem quietKinds_ne : ∀ kd ∈ quietKinds, kd ≠ .tile1 ∧ kd ≠ .netlBay ∧ kd ≠ .strl ∧ kd ≠ .hoist ∧
    kd ∉ [PageKind.mast, .mpwr, .dmap, .logb, .roster, .rostf] := by decide

/-- The pages of class 0 are the Mast's. -/
theorem beyondMast_of_kindOf (hk : kindOf p = some kd) (h : kd ∉ [PageKind.mast, .mpwr, .dmap, .logb, .roster, .rostf]) :
    BeyondMast p := by
  by_contra hlt
  have hc : clsOf p = 0 := by
    unfold BeyondMast at hlt
    simp only [clsOf, bits]
    omega
  simp only [kindOf, hc] at hk
  split_ifs at hk <;> simp_all

/-- The registers that show the instant, and the sequencer's return to IDLE. -/
def instantShown (s : State) : State :=
  setHoistState 0 ((((s.set2 pgHoist HOIST.LAST_INSTANT_LO_WTIME HOIST.LAST_INSTANT_HI_WTIME s.m.wtime).bump pgHoist
    HOIST.HOIST_COUNT_COUNT).set pgHoist HOIST.MISSED_COUNT 0).modH fun h => { h with set := [], armed := none })

/-- The instant of a set of one page that can be reached, and whose application has no further effect. -/
theorem hoistNow_single (hset : s.m.hoist.set = [p]) (hr : reachable s p = true) (hk : kindOf p = some kd) (hq : kd ∈ quietKinds) :
    hoistNow s = instantShown (applyPage p s) := by
  obtain ⟨h1, h2, h3, -⟩ := quietKinds_ne kd hq
  have hscale : ∀ u, scaleApplied p u = u := fun u => if_pos (by simp [hk, h1])
  have hheader : ∀ u, headerChanged s p u = u := fun u => if_pos (by simp [hk, h2])
  have hreset : ∀ u, resetChanged s p u = u := fun u => if_neg (by simp [hk, h3])
  unfold hoistNow
  simp only [hset, List.filter_cons, hr, Bool.not_true, Bool.false_eq_true, if_false, if_true, List.filter_nil, List.foldl_cons,
    List.foldl_nil, hscale, hheader, hreset, List.length_nil]
  rfl

theorem instantShown_m (s : State) : (instantShown s).m = { s.m with hoist := { s.m.hoist with set := [], armed := none } } := rfl

theorem hoistState_instantShown (s : State) : hoistState (instantShown s) = 0 := hoistState_setHoistState (by decide) _

/-- The other pages stay. -/
theorem word_instantShown (h : pageOf w ≠ pgHoist) (s : State) : (instantShown s).word w = s.word w := by
  have hne : ∀ {F : Fld}, F.off < 0x1000 → w ≠ pgHoist + F.off := fun hF => by
    have hh : pgHoist = 0x1000001000 := rfl
    unfold pageOf at h
    omega
  have h1 : ∀ u : State, (setHoistState 0 (u.modH fun h => { h with set := [], armed := none })).word w = u.word w := fun u =>
    word_set_other (F := HOIST.HOIST_STATUS_STATE) _ _ (hne (by decide))
  rw [instantShown, h1, word_set_other _ _ (hne (by decide)), State.bump, word_set_other _ _ (hne (by decide)), State.set2,
    word_set_other _ _ (hne (by decide)), word_set_other _ _ (hne (by decide))]

theorem get2_set2_same {L H : Fld} (hL : L.lo + L.width ≤ 32) (hH : H.lo + H.width ≤ 32) (hne : L.off ≠ H.off) (p v : Nat) (s : State) :
    (s.set2 p L H v).get2 p L H = v % 2 ^ (L.width + H.width) := by
  rw [State.get2, State.set2, get_set_word hne, get_set_same _ _ _ _ hL, get_set_same _ _ _ _ hH, pow_add, Nat.mod_mul,
    Nat.mul_comm]

theorem get2_instantShown (s : State) :
    (instantShown s).get2 pgHoist HOIST.LAST_INSTANT_LO_WTIME HOIST.LAST_INSTANT_HI_WTIME = s.m.wtime % 2 ^ 64 := by
  have h1 : ∀ {G : Fld} (u : State), G.off ≠ HOIST.HOIST_STATUS_STATE.off →
      (setHoistState 0 (u.modH fun h => { h with set := [], armed := none })).get pgHoist G = u.get pgHoist G := fun u hG =>
    get_set_word (F := HOIST.HOIST_STATUS_STATE) hG _
  have hlast : ∀ G ∈ [HOIST.LAST_INSTANT_LO_WTIME, HOIST.LAST_INSTANT_HI_WTIME], (instantShown s).get pgHoist G =
      (s.set2 pgHoist HOIST.LAST_INSTANT_LO_WTIME HOIST.LAST_INSTANT_HI_WTIME s.m.wtime).get pgHoist G := by
    intro G hG
    have hoff : ∀ G ∈ [HOIST.LAST_INSTANT_LO_WTIME, HOIST.LAST_INSTANT_HI_WTIME], G.off ≠ HOIST.HOIST_STATUS_STATE.off ∧
        G.off ≠ HOIST.MISSED_COUNT.off ∧ G.off ≠ HOIST.HOIST_COUNT_COUNT.off := by decide
    obtain ⟨ha, hb, hc⟩ := hoff G hG
    rw [instantShown, h1 _ ha, get_set_word hb, State.bump, get_set_word hc]
  rw [State.get2, hlast _ (by decide), hlast _ (by decide)]
  exact get2_set2_same (by decide) (by decide) (by decide) _ _ s

theorem get2_of_word {q : Nat} {L H : Fld} (hL : t.word (q + L.off) = s.word (q + L.off)) (hH : t.word (q + H.off) = s.word (q + H.off)) :
    t.get2 q L H = s.get2 q L H := by
  rw [State.get2, State.get2, get_of_word hL, get_of_word hH]

theorem hoistInstant_slack {a : HoistArm} (h : s.m.hoist.armed = some a) (hs : a.slack = true) (hc : cseqState s = 0)
    (ho : s.m.x.openReq = false) : hoistInstant s = hoistNow (s.atTime (max s.m.wtime (a.passAt + 64))) := by
  simp [hoistInstant, h, hs, hc, ho]

/-- Settles O41: the instant applies the page, shows itself, and the edge of the roster that follows leaves both. -/
theorem hoistInstantAppliesTheSet : Obligations.HoistInstantAppliesTheSet := by
  intro s a p kd haw harm hslack hcseq hopen hset hp hk hq hr
  have hexec : exec .hoistInstant s = .next (onRoster hoistInstant s) := ifAwake_on haw
  have hbeyond := beyondMast_of_kindOf hk (quietKinds_ne kd hq).2.2.2.2
  have hpage : p ≠ pgHoist := by
    rintro rfl
    exact (quietKinds_ne kd hq).2.2.2.1 (Option.some_inj.1 (hk.symm.trans (by decide)))
  generalize hv : s.atTime (max s.m.wtime (a.passAt + 64)) = v
  have hnow : hoistInstant s = instantShown (applyPage p v) := by
    rw [hoistInstant_slack harm hslack hcseq hopen, hv]
    exact hoistNow_single (by rw [← hv]; exact hset) (by rw [← hv]; exact hr) hk hq
  have hl := leaves_settle_beyond s (.refl (hoistInstant s))
  have hm := settle_m s (hoistInstant s)
  have hword : ∀ b, pageOf b = p → (onRoster hoistInstant s).word b = (applyPage p v).word b := fun b hb => by
    have hle : BeyondMast b := le_trans (hb ▸ hbeyond) (pageOf_le b)
    rw [onRoster, hl.word b hle, hnow, word_instantShown (hb.symm ▸ hpage)]
  have hhoist : ∀ {off : Nat}, (onRoster hoistInstant s).word (pgHoist + off) = (hoistInstant s).word (pgHoist + off) := fun {off} =>
    hl.word _ (by have hh : pgHoist = 0x1000001000 := rfl; unfold BeyondMast; omega)
  have hon : ∀ {F : Fld}, F.off < 0x1000 → (onRoster hoistInstant s).on p F = (applyPage p v).on p F := fun hF =>
    on_of_word (hword _ (pageOf_add hp hF))
  obtain ⟨hdirty, hlocked⟩ := applyPage_status p v
  refine ⟨_, hexec, fun w hw ho => ?_, (hon (by decide)).trans hdirty, (hon (by decide)).trans hlocked,
    ?_, ?_, ?_, ?_⟩
  · rw [hword w hw, ← hw, word_applyPage ho, ← hv]
    rfl
  · rw [onRoster, hm, hnow, instantShown_m, applyPage_m, ← hv]
    rfl
  · rw [hoistState, get_of_word hhoist, hnow]
    exact hoistState_instantShown _
  · rw [onRoster, hm, hnow, instantShown_m]
  · rw [get2_of_word hhoist hhoist, hnow, get2_instantShown, applyPage_m, ← hv]
    rfl

end Sys2Proof.Machine
end

section
/-! PROOFS. O5: every command answers a next state, and the commands that wait behind it stay. One lemma for each function that
answers a state, in the order of the model, says that the commands that wait are those of the state it was given. -/
namespace Sys2Proof.Machine
open Sys2Proof

/-! ## The commands that wait -/

/-- The commands that wait, as a function of its own: the kernel compares two states of a `cmdQueue` before it looks into
them, which it does not do for a field of a structure. -/
def cmdQueue (s : State) : List Instr := s.pending

section Base
variable {s t : State} {p a v w : Nat} {F L H : Fld} {x : Word} {b : Bool}

@[simp] theorem cmdQueue_mk {live shadow power port tap pins log map m} :
    cmdQueue ⟨live, shadow, power, port, tap, pins, log, map, m, s.pending⟩ = cmdQueue s := rfl
@[simp] theorem cmdQueue_setWord : cmdQueue (s.setWord a x) = cmdQueue s := setWord_pending s a x
@[simp] theorem cmdQueue_setShadow : cmdQueue (s.setShadow a x) = cmdQueue s := setShadow_pending s a x
@[simp] theorem cmdQueue_set : cmdQueue (s.set p F v) = cmdQueue s := set_pending s p v F
@[simp] theorem cmdQueue_set2 : cmdQueue (s.set2 p L H v) = cmdQueue s := set2_pending s p v L H
@[simp] theorem cmdQueue_bump : cmdQueue (s.bump p F) = cmdQueue s := bump_pending s p F
@[simp] theorem cmdQueue_bumpSat : cmdQueue (s.bumpSat p F v) = cmdQueue s := bumpSat_pending s p v F
@[simp] theorem cmdQueue_setBit : cmdQueue (s.setBit p F v b) = cmdQueue s := setBit_pending s p v F b
@[simp] theorem cmdQueue_setBit2 : cmdQueue (s.setBit2 p L H v b) = cmdQueue s := by
  unfold State.setBit2
  split <;> exact cmdQueue_setBit
@[simp] theorem cmdQueue_atTime : cmdQueue (s.atTime w) = cmdQueue s := atTime_pending s w
@[simp] theorem cmdQueue_setRig {r} : cmdQueue (s.setRig a r) = cmdQueue s := setRig_pending s a r
@[simp] theorem cmdQueue_modRig {g} : cmdQueue (s.modRig a g) = cmdQueue s := modRig_pending s a g

theorem cmdQueue_m {m : MainSt} : cmdQueue { s with m := m } = cmdQueue s := rfl
theorem cmdQueue_log {l : LogSt} : cmdQueue { s with log := l } = cmdQueue s := rfl

@[simp] theorem cmdQueue_ite {c : Prop} [Decidable c] :
    cmdQueue (if c then s else t) = if c then cmdQueue s else cmdQueue t :=
  apply_ite _ _ _ _

theorem cmdQueue_ite_of {c : Prop} [Decidable c] {q : List Instr} (hs : cmdQueue s = q) (ht : cmdQueue t = q) :
    cmdQueue (if c then s else t) = q := by
  split
  · exact hs
  · exact ht

@[simp] theorem cmdQueue_foldl {α : Type} {g : State → α → State}
    (hg : ∀ t b, cmdQueue (g t b) = cmdQueue t) (l : List α)
    (s : State) : cmdQueue (l.foldl g s) = cmdQueue s := by
  induction l generalizing s with
  | nil => rfl
  | cons b l ih => exact (ih (g s b)).trans (hg s b)

theorem cmdQueue_foldl_fst {α β : Type} {g : State × β → α → State × β}
    (hg : ∀ r b, cmdQueue (g r b).1 = cmdQueue r.1)
    (l : List α) (r : State × β) : cmdQueue (l.foldl g r).1 = cmdQueue r.1 := by
  induction l generalizing r with
  | nil => rfl
  | cons b l ih => exact (ih (g r b)).trans (hg r b)

end Base

/-! ### The Mast -/

@[simp] theorem cmdQueue_alert {c s} : cmdQueue (alert c s) = cmdQueue s := by simp [alert]
@[simp] theorem cmdQueue_pageAlert {p s} : cmdQueue (pageAlert p s) = cmdQueue s := by simp [pageAlert]
@[simp] theorem cmdQueue_pageEvent {p s} : cmdQueue (pageEvent p s) = cmdQueue s := by simp [pageEvent]

@[simp] theorem cmdQueue_afterError {before p s} : cmdQueue (afterError before p s) = cmdQueue s := by
  simp [afterError]

@[simp] theorem cmdQueue_setError {p n s} : cmdQueue (setError p n s) = cmdQueue s := by simp [setError]
@[simp] theorem cmdQueue_alertError {p n s} : cmdQueue (alertError p n s) = cmdQueue s := by simp [alertError]
@[simp] theorem cmdQueue_clearCause {v s} : cmdQueue (clearCause v s) = cmdQueue s := by simp [clearCause]
@[simp] theorem cmdQueue_logAlert {n s} : cmdQueue (logAlert n s) = cmdQueue s := by simp [logAlert]

@[simp] theorem cmdQueue_numberEvent {e s} : cmdQueue (numberEvent e s) = cmdQueue s := by
  unfold numberEvent
  extract_lets seq ev s1 s2 l s3
  have h2 : cmdQueue s2 = cmdQueue s := by simp [s2, s1]
  have h3 : cmdQueue s3 = cmdQueue s := cmdQueue_bumpSat.trans h2
  exact cmdQueue_ite_of (cmdQueue_log.trans h2) (cmdQueue_ite_of h3 (cmdQueue_logAlert.trans h3))

@[simp] theorem cmdQueue_flushRepeat {s} : cmdQueue (flushRepeat s) = cmdQueue s := by simp [flushRepeat]

@[simp] theorem cmdQueue_raiseEvent {e s} : cmdQueue (raiseEvent e s) = cmdQueue s := by
  unfold raiseEvent
  split <;> simp

@[simp] theorem cmdQueue_raiseAll {es s} : cmdQueue (raiseAll es s) = cmdQueue s := by simp [raiseAll]

/-! ### The defect map -/

@[simp] theorem cmdQueue_writeA {grade gen rs s} : cmdQueue (writeA grade gen rs s) = cmdQueue s := by
  unfold writeA
  split <;> simp

@[simp] theorem cmdQueue_showRecord {s} : cmdQueue (showRecord s) = cmdQueue s := by simp [showRecord]
@[simp] theorem cmdQueue_mapRegs {s} : cmdQueue (mapRegs s) = cmdQueue s := by simp [mapRegs]
@[simp] theorem cmdQueue_beginFlash {op s} : cmdQueue (beginFlash op s) = cmdQueue s := by simp [beginFlash]
@[simp] theorem cmdQueue_setB {i x s} : cmdQueue (setB i x s) = cmdQueue s := by simp [setB]
@[simp] theorem cmdQueue_startWhole {w s} : cmdQueue (startWhole w s) = cmdQueue s := by simp [startWhole]

@[simp] theorem cmdQueue_pumpFlash {s} : cmdQueue (pumpFlash s) = cmdQueue s := by
  unfold pumpFlash
  repeat' split
  all_goals simp

@[simp] theorem cmdQueue_addSlotB {y s} : cmdQueue (addSlotB y s) = cmdQueue s := by
  unfold addSlotB
  split <;> simp

@[simp] theorem cmdQueue_flashFault {how late s} : cmdQueue (flashFault how late s) = cmdQueue s := by
  unfold flashFault
  repeat' split
  all_goals simp

@[simp] theorem cmdQueue_wholeWritten {w s} : cmdQueue (wholeWritten w s) = cmdQueue s := by simp [wholeWritten]

@[simp] theorem cmdQueue_flashDone {s} : cmdQueue (flashDone s) = cmdQueue s := by
  unfold flashDone
  split <;> simp

@[simp] theorem cmdQueue_startWholeB {area s} : cmdQueue (startWholeB area s) = cmdQueue s := by
  unfold startWholeB
  split <;> simp

@[simp] theorem cmdQueue_appendA {r s} : cmdQueue (appendA r s) = cmdQueue s := by
  unfold appendA
  split <;> simp

@[simp] theorem cmdQueue_holdUnrecorded {r s} : cmdQueue (holdUnrecorded r s) = cmdQueue s := by simp [holdUnrecorded]

@[simp] theorem cmdQueue_commitRec {e logseq s} : cmdQueue (commitRec e logseq s).1 = cmdQueue s := by
  unfold commitRec
  split
  · rfl
  · dsimp only
    split
    · simp
    · split <;> simp

@[simp] theorem cmdQueue_fieldRecord {s f} : cmdQueue (fieldRecord s f) = cmdQueue s := by
  unfold fieldRecord
  repeat' split
  all_goals simp

@[simp] theorem cmdQueue_fieldRecords {s} : cmdQueue (fieldRecords s) = cmdQueue s := by simp [fieldRecords]

@[simp] theorem cmdQueue_addEntry {e logseq s} : cmdQueue (addEntry e logseq s).1 = cmdQueue s := by
  unfold addEntry
  split <;> simp

@[simp] theorem cmdQueue_raiseEntry {ev e s} : cmdQueue (raiseEntry ev e s).1 = cmdQueue s := by
  unfold raiseEntry
  dsimp only
  split <;> simp

@[simp] theorem cmdQueue_reconcileEvent {n s} : cmdQueue (reconcileEvent n s) = cmdQueue s := by simp [reconcileEvent]
@[simp] theorem cmdQueue_countTorn {s} : cmdQueue (countTorn s) = cmdQueue s := by simp [countTorn]

theorem cmdQueue_resolve {s t} (h : resolve s = some t) : cmdQueue t = cmdQueue s := by
  unfold resolve at h
  dsimp only at h
  repeat' split at h
  all_goals cases h
  all_goals simp

theorem cmdQueue_reconcile {s t} (h : reconcile s = some t) : cmdQueue t = cmdQueue s := by
  simp only [reconcile, Option.map_eq_some_iff] at h
  obtain ⟨u, hu, rfl⟩ := h
  simpa using cmdQueue_resolve hu

@[simp] theorem cmdQueue_clearFlashFault {s} : cmdQueue (clearFlashFault s) = cmdQueue s := by simp [clearFlashFault]

@[simp] theorem cmdQueue_probeFlash {wake meets jedec s} : cmdQueue (probeFlash wake meets jedec s) = cmdQueue s := by
  simp [probeFlash]

/-! ### Berths -/

@[simp] theorem cmdQueue_modX {s g} : cmdQueue (State.modX s g) = cmdQueue s := by simp [State.modX]

@[simp] theorem cmdQueue_setTileState {f t v s} : cmdQueue (setTileState f t v s) = cmdQueue s := by
  simp [setTileState]

@[simp] theorem cmdQueue_setFieldState {f v s} : cmdQueue (setFieldState f v s) = cmdQueue s := by
  simp [setFieldState]

@[simp] theorem cmdQueue_berthSet {b F v s} : cmdQueue (berthSet b F v s) = cmdQueue s := by simp [berthSet]
@[simp] theorem cmdQueue_modBerths {p g s} : cmdQueue (modBerths p g s) = cmdQueue s := by simp [modBerths]
@[simp] theorem cmdQueue_suspendBerth {b s} : cmdQueue (suspendBerth b s) = cmdQueue s := by simp [suspendBerth]

@[simp] theorem cmdQueue_markParty {lid s} : cmdQueue (markParty lid s) = cmdQueue s := by
  unfold markParty
  repeat' split
  all_goals simp

@[simp] theorem cmdQueue_loseHolder {lid s} : cmdQueue (loseHolder lid s) = cmdQueue s := by simp [loseHolder]
@[simp] theorem cmdQueue_suspendGone {lid s} : cmdQueue (suspendGone lid s) = cmdQueue s := by simp [suspendGone]
@[simp] theorem cmdQueue_markLost {lid s} : cmdQueue (markLost lid s) = cmdQueue s := by simp [markLost]

/-! ### The roster -/

@[simp] theorem cmdQueue_setChan1 {p ready fenced s} : cmdQueue (setChan1 p ready fenced s) = cmdQueue s := by
  simp [setChan1]

@[simp] theorem cmdQueue_setChan {h e ready fenced s} : cmdQueue (setChan h e ready fenced s) = cmdQueue s := by
  simp [setChan]

@[simp] theorem cmdQueue_releaseMatrix {f t s} : cmdQueue (releaseMatrix f t s) = cmdQueue s := by
  simp [releaseMatrix]

@[simp] theorem cmdQueue_enterPassed {f t s} : cmdQueue (enterPassed f t s) = cmdQueue s := by simp [enterPassed]
@[simp] theorem cmdQueue_promote1 {f t s} : cmdQueue (promote1 f t s) = cmdQueue s := by simp [promote1]
@[simp] theorem cmdQueue_promoteRow {f r s} : cmdQueue (promoteRow f r s) = cmdQueue s := by simp [promoteRow]
@[simp] theorem cmdQueue_setAllTiles {f v s} : cmdQueue (setAllTiles f v s) = cmdQueue s := by simp [setAllTiles]
@[simp] theorem cmdQueue_counts {s} : cmdQueue (counts s) = cmdQueue s := by simp [counts]
@[simp] theorem cmdQueue_setPort {k p up s} : cmdQueue (setPort k p up s) = cmdQueue s := by simp [setPort]
@[simp] theorem cmdQueue_bringup {s} : cmdQueue (bringup s) = cmdQueue s := by simp [bringup]
@[simp] theorem cmdQueue_settleEos {s} : cmdQueue (settleEos s) = cmdQueue s := by simp [settleEos]
@[simp] theorem cmdQueue_orderEdge {s0 s} : cmdQueue (orderEdge s0 s) = cmdQueue s := by simp [orderEdge]
@[simp] theorem cmdQueue_settle {s0 s} : cmdQueue (settle s0 s) = cmdQueue s := by simp [settle]

@[simp] theorem cmdQueue_onRoster {g s} (hg : ∀ t, cmdQueue (g t) = cmdQueue t) :
    cmdQueue (onRoster g s) = cmdQueue s := by
  simp [onRoster, hg]

/-! ### Links -/

@[simp] theorem cmdQueue_modNet {s g} : cmdQueue (State.modNet s g) = cmdQueue s := by simp [State.modNet]
@[simp] theorem cmdQueue_lose {p s} : cmdQueue (lose p s) = cmdQueue s := by simp [lose]
@[simp] theorem cmdQueue_discardAt {f t s} : cmdQueue (discardAt f t s) = cmdQueue s := by simp [discardAt]
@[simp] theorem cmdQueue_unrouted {k s} : cmdQueue (unrouted k s) = cmdQueue s := by simp [unrouted]
@[simp] theorem cmdQueue_startRoutes {s} : cmdQueue (startRoutes s) = cmdQueue s := by simp [startRoutes]
@[simp] theorem cmdQueue_setHaw {s h e x} : cmdQueue (State.setHaw s h e x) = cmdQueue s := by simp [State.setHaw]
@[simp] theorem cmdQueue_modHaw {s h e g} : cmdQueue (State.modHaw s h e g) = cmdQueue s := by simp [State.modHaw]
@[simp] theorem cmdQueue_modVc {s h e v g} : cmdQueue (State.modVc s h e v g) = cmdQueue s := by simp [State.modVc]
@[simp] theorem cmdQueue_setLink {h e v s} : cmdQueue (setLink h e v s) = cmdQueue s := by simp [setLink]
@[simp] theorem cmdQueue_endError {h e n s} : cmdQueue (endError h e n s) = cmdQueue s := by simp [endError]
@[simp] theorem cmdQueue_send {h e code w s} : cmdQueue (send h e code w s) = cmdQueue s := by simp [send]
@[simp] theorem cmdQueue_sendTrain {h e w s} : cmdQueue (sendTrain h e w s) = cmdQueue s := by simp [sendTrain]
@[simp] theorem cmdQueue_transmit {h e s} : cmdQueue (transmit h e s) = cmdQueue s := by simp [transmit]
@[simp] theorem cmdQueue_received {h e code w s} : cmdQueue (received h e code w s) = cmdQueue s := by simp [received]
@[simp] theorem cmdQueue_showHeld {h e s} : cmdQueue (showHeld h e s) = cmdQueue s := by simp [showHeld]

@[simp] theorem cmdQueue_sendNew {h e v s} : cmdQueue (sendNew h e v s) = cmdQueue s := by
  unfold sendNew
  split <;> simp

@[simp] theorem cmdQueue_pump {h e n s} : cmdQueue (pump h e n s) = cmdQueue s := by
  induction n generalizing s with
  | zero => rfl
  | succ n ih =>
    unfold pump
    split <;> simp [ih]

@[simp] theorem cmdQueue_pumpEnd {h e s} : cmdQueue (pumpEnd h e s) = cmdQueue s := by simp [pumpEnd]
@[simp] theorem cmdQueue_replayed {h e v n s} : cmdQueue (replayed h e v n s) = cmdQueue s := by simp [replayed]
@[simp] theorem cmdQueue_settleEnd {h e s} : cmdQueue (settleEnd h e s) = cmdQueue s := by simp [settleEnd]

@[simp] theorem cmdQueue_discardRouted {h e p s} : cmdQueue (discardRouted h e p s) = cmdQueue s := by
  unfold discardRouted
  dsimp only
  split <;> simp

@[simp] theorem cmdQueue_strand {p k s} : cmdQueue (strand p k s) = cmdQueue s := by simp [strand]

@[simp] theorem cmdQueue_forward {p s} : cmdQueue (forward p s) = cmdQueue s := by
  unfold forward
  split <;> simp

@[simp] theorem cmdQueue_replay {h e v s} : cmdQueue (replay h e v s) = cmdQueue s := by simp [replay]
@[simp] theorem cmdQueue_release {h e v n s} : cmdQueue (release h e v n s) = cmdQueue s := by simp [release]

@[simp] theorem cmdQueue_breakLink {h e reason s} : cmdQueue (breakLink h e reason s) = cmdQueue s := by
  simp [breakLink]

@[simp] theorem cmdQueue_setLane {h e n v s} : cmdQueue (setLane h e n v s) = cmdQueue s := by simp [setLane]
@[simp] theorem cmdQueue_showLanes {h e s} : cmdQueue (showLanes h e s) = cmdQueue s := by simp [showLanes]
@[simp] theorem cmdQueue_shedTx {h e n s} : cmdQueue (shedTx h e n s) = cmdQueue s := by simp [shedTx]
@[simp] theorem cmdQueue_reportLane {h e n s} : cmdQueue (reportLane h e n s) = cmdQueue s := by simp [reportLane]

@[simp] theorem cmdQueue_sendNak {h e v reason ln s} : cmdQueue (sendNak h e v reason ln s) = cmdQueue s := by
  simp [sendNak]

@[simp] theorem cmdQueue_sendAck {h e v s} : cmdQueue (sendAck h e v s) = cmdQueue s := by simp [sendAck]
@[simp] theorem cmdQueue_setNakSent {h e v b s} : cmdQueue (setNakSent h e v b s) = cmdQueue s := by simp [setNakSent]
@[simp] theorem cmdQueue_sendFlow {h e s} : cmdQueue (sendFlow h e s) = cmdQueue s := by simp [sendFlow]
@[simp] theorem cmdQueue_flowCheck {h e v s} : cmdQueue (flowCheck h e v s) = cmdQueue s := by simp [flowCheck]
@[simp] theorem cmdQueue_toRouter {h e p s} : cmdQueue (toRouter h e p s) = cmdQueue s := by simp [toRouter]
@[simp] theorem cmdQueue_takeBuffered {h e s} : cmdQueue (takeBuffered h e s) = cmdQueue s := by simp [takeBuffered]
@[simp] theorem cmdQueue_enterProbe {h e s} : cmdQueue (enterProbe h e s) = cmdQueue s := by simp [enterProbe]
@[simp] theorem cmdQueue_startEnd {h e s} : cmdQueue (startEnd h e s) = cmdQueue s := by simp [startEnd]
@[simp] theorem cmdQueue_startEnds {h s} : cmdQueue (startEnds h s) = cmdQueue s := by simp [startEnds]
@[simp] theorem cmdQueue_dropEnd {h e s} : cmdQueue (dropEnd h e s) = cmdQueue s := by simp [dropEnd]
@[simp] theorem cmdQueue_failAttempt {h e s} : cmdQueue (failAttempt h e s) = cmdQueue s := by simp [failAttempt]
@[simp] theorem cmdQueue_exchanged {h e s} : cmdQueue (exchanged h e s) = cmdQueue s := by simp [exchanged]

@[simp] theorem cmdQueue_enterExchange {h e s} : cmdQueue (enterExchange h e s) = cmdQueue s := by
  simp [enterExchange]

@[simp] theorem cmdQueue_enterUp {h e s} : cmdQueue (enterUp h e s) = cmdQueue s := by simp [enterUp]

/-! ### The data space of a tile -/

@[simp] theorem cmdQueue_grant {k m t beats s} : cmdQueue (grant k m t beats s) = cmdQueue s := by simp [grant]

@[simp] theorem cmdQueue_grantBursts {k m a n s} : cmdQueue (grantBursts k m a n s) = cmdQueue s := by
  simp [grantBursts]

/-! ### Rigs -/

@[simp] theorem cmdQueue_bankSet {s k F v} : cmdQueue (bankSet s k F v) = cmdQueue s := by simp [bankSet]

@[simp] theorem cmdQueue_setPriv {s k level berth} : cmdQueue (setPriv s k level berth) = cmdQueue s := by
  simp [setPriv]

@[simp] theorem cmdQueue_raiseOne {k s a} : cmdQueue (raiseOne k s a) = cmdQueue s := by simp [raiseOne]
@[simp] theorem cmdQueue_raiseDue {k s} : cmdQueue (raiseDue k s) = cmdQueue s := by simp [raiseDue]
@[simp] theorem cmdQueue_settleRig {k s} : cmdQueue (settleRig k s) = cmdQueue s := by simp [settleRig]

@[simp] theorem cmdQueue_setGstack {s k i v} : cmdQueue (setGstack s k i v) = cmdQueue s := by
  unfold setGstack
  split <;> simp

@[simp] theorem cmdQueue_saveShadow {s k} : cmdQueue (saveShadow s k) = cmdQueue s := by simp [saveShadow]
@[simp] theorem cmdQueue_loadShadow {s k} : cmdQueue (loadShadow s k) = cmdQueue s := by simp [loadShadow]
@[simp] theorem cmdQueue_histLoad {s k} : cmdQueue (histLoad s k) = cmdQueue s := by simp [histLoad]

@[simp] theorem cmdQueue_foldReturn {s k stopped} : cmdQueue (foldReturn s k stopped) = cmdQueue s := by
  simp [foldReturn]

@[simp] theorem cmdQueue_arriveEret {s k} : cmdQueue (arriveEret s k) = cmdQueue s := by simp [arriveEret]

@[simp] theorem cmdQueue_arrive {s k q} : cmdQueue (arrive s k q) = cmdQueue s := by
  unfold arrive
  split <;> simp

@[simp] theorem cmdQueue_arrivals {s k} : cmdQueue (arrivals s k) = cmdQueue s := by
  unfold arrivals
  dsimp only
  split <;> simp

@[simp] theorem cmdQueue_reefIssue {s k n held c} : cmdQueue (reefIssue s k n held c) = cmdQueue s := by
  unfold reefIssue
  extract_lets p s1 s2 s3 s4 s5
  have h5 : cmdQueue s5 = cmdQueue s := by
    unfold s5 s4 s3 s2 s1
    split <;> simp
  split <;> simp [h5]

@[simp] theorem cmdQueue_countBundle {s k} : cmdQueue (countBundle s k) = cmdQueue s := by simp [countBundle]
@[simp] theorem cmdQueue_setFerry {s k e} : cmdQueue (State.setFerry s k e) = cmdQueue s := by simp [State.setFerry]
@[simp] theorem cmdQueue_closeFerry {k s} : cmdQueue (closeFerry k s) = cmdQueue s := by simp [closeFerry]
@[simp] theorem cmdQueue_kickFerry {s k t} : cmdQueue (kickFerry s k t) = cmdQueue s := by simp [kickFerry]
@[simp] theorem cmdQueue_countImem {k a ue s} : cmdQueue (countImem k a ue s) = cmdQueue s := by simp [countImem]
@[simp] theorem cmdQueue_grantFetch {k s} : cmdQueue (grantFetch k s) = cmdQueue s := by simp [grantFetch]

@[simp] theorem cmdQueue_issue {s k} : cmdQueue (issue s k) = cmdQueue s := by
  unfold issue
  dsimp only
  split <;> simp

@[simp] theorem cmdQueue_reefHeld {k n s} : cmdQueue (reefHeld k n s) = cmdQueue s := by simp [reefHeld]

@[simp] theorem cmdQueue_holdIssue {k n s} : cmdQueue (holdIssue k n s) = cmdQueue s := by
  induction n generalizing s with
  | zero => rfl
  | succ n ih =>
    unfold holdIssue
    split
    · rfl
    · simp [ih]

@[simp] theorem cmdQueue_issueState {k s} : cmdQueue (issueState k s) = cmdQueue s := by simp [issueState]
@[simp] theorem cmdQueue_issueWhere {row k s} : cmdQueue (issueWhere row k s) = cmdQueue s := by simp [issueWhere]
@[simp] theorem cmdQueue_issueRow {row k s} : cmdQueue (issueRow row k s) = cmdQueue s := by simp [issueRow]

/-! ### Memory -/

@[simp] theorem cmdQueue_setByte {s k a v} : cmdQueue (State.setByte s k a v) = cmdQueue s := by simp [State.setByte]

@[simp] theorem cmdQueue_putBytes {k a bs s} : cmdQueue (putBytes k a bs s) = cmdQueue s := by
  induction bs generalizing a s with
  | nil => rfl
  | cons b bs ih => simp [putBytes, ih]

@[simp] theorem cmdQueue_setWordErr {s k a v} : cmdQueue (State.setWordErr s k a v) = cmdQueue s := by
  simp [State.setWordErr]

@[simp] theorem cmdQueue_countCe {k a real s} : cmdQueue (countCe k a real s) = cmdQueue s := by simp [countCe]
@[simp] theorem cmdQueue_countUe {k a s} : cmdQueue (countUe k a s) = cmdQueue s := by simp [countUe]

@[simp] theorem cmdQueue_countInjUe {k a recorded s} : cmdQueue (countInjUe k a recorded s) = cmdQueue s := by
  simp [countInjUe]

@[simp] theorem cmdQueue_findReal {k a s} : cmdQueue (findReal k a s) = cmdQueue s := by
  unfold findReal
  split
  · rfl
  · extract_lets t
    simp [t]
  · exact cmdQueue_countUe

@[simp] theorem cmdQueue_readWord {k a s} : cmdQueue (readWord k a s).1 = cmdQueue s := by simp [readWord]

@[simp] theorem cmdQueue_readWords {k a n s} : cmdQueue (readWords k a n s).1 = cmdQueue s := by
  induction n generalizing a s with
  | zero => rfl
  | succ n ih => simp [readWords, ih]

@[simp] theorem cmdQueue_readBytes {k a n s} : cmdQueue (readBytes k a n s).1 = cmdQueue s := by simp [readBytes]

@[simp] theorem cmdQueue_storeWord {k a o bs s} : cmdQueue (storeWord k a o bs s).1 = cmdQueue s := by
  unfold storeWord
  dsimp only
  split
  · simp
  · split <;> simp

@[simp] theorem cmdQueue_storeBytes {k n a bs s} : cmdQueue (storeBytes k n a bs s).1 = cmdQueue s := by
  induction n generalizing a bs s with
  | zero => rfl
  | succ n ih =>
    unfold storeBytes
    split <;> simp [ih]

@[simp] theorem cmdQueue_writeBytes {k a bs s} : cmdQueue (writeBytes k a bs s).1 = cmdQueue s := by simp [writeBytes]

@[simp] theorem cmdQueue_readAs {rig k d n s} : cmdQueue (readAs rig k d n s).1 = cmdQueue s := by
  unfold readAs
  split <;> simp

@[simp] theorem cmdQueue_writeAs {rig berth k d bs s} : cmdQueue (writeAs rig berth k d bs s).1 = cmdQueue s := by
  unfold writeAs
  split <;> simp

@[simp] theorem cmdQueue_toT11 {k master kind a s} : cmdQueue (toT11 k master kind a s) = cmdQueue s := by
  simp [toT11]

@[simp] theorem cmdQueue_writeBundle {k a b s} : cmdQueue (writeBundle k a b s) = cmdQueue s := by simp [writeBundle]
@[simp] theorem cmdQueue_incAddr {k inc s} : cmdQueue (incAddr k inc s) = cmdQueue s := by simp [incAddr]

@[simp] theorem cmdQueue_serveIf {k q s} : cmdQueue (serveIf k q s) = cmdQueue s := by
  unfold serveIf
  split <;> simp

@[simp] theorem cmdQueue_drainIf {k n s} : cmdQueue (drainIf k n s) = cmdQueue s := by
  induction n generalizing s with
  | zero => rfl
  | succ n ih =>
    unfold drainIf
    split
    · rfl
    · split <;> simp [ih]

@[simp] theorem cmdQueue_ifGo {k inc store s} : cmdQueue (ifGo k inc store s) = cmdQueue s := by simp [ifGo]
@[simp] theorem cmdQueue_ifsGo {k inc s} : cmdQueue (ifsGo k inc s) = cmdQueue s := by simp [ifsGo]
@[simp] theorem cmdQueue_iflGo {k inc s} : cmdQueue (iflGo k inc s) = cmdQueue s := by simp [iflGo]
@[simp] theorem cmdQueue_injectErr {k ue s} : cmdQueue (injectErr k ue s) = cmdQueue s := by simp [injectErr]
@[simp] theorem cmdQueue_patrolLine {k b s} : cmdQueue (patrolLine k b s) = cmdQueue s := by simp [patrolLine]

/-! ### Routes -/

@[simp] theorem cmdQueue_computeLive {f s0} : cmdQueue (computeLive f s0) = cmdQueue s0 := by simp [computeLive]

@[simp] theorem cmdQueue_rerouteVc {f e v s} : cmdQueue (rerouteVc f e v s) = cmdQueue s := by
  unfold rerouteVc
  dsimp only
  split
  · rfl
  · refine (cmdQueue_foldl (fun t p => ?_) _ _).trans (by simp)
    split <;> simp

@[simp] theorem cmdQueue_dropStranded {f s} : cmdQueue (dropStranded f s) = cmdQueue s := by simp [dropStranded]
@[simp] theorem cmdQueue_pendingRoutes {s} : cmdQueue (pendingRoutes s) = cmdQueue s := by simp [pendingRoutes]

/-! ### The mesh -/

@[simp] theorem cmdQueue_depart {k fd td p s} : cmdQueue (depart k fd td p s).1 = cmdQueue s := by
  unfold depart
  repeat' split
  all_goals simp

@[simp] theorem cmdQueue_departLid {k lid p s} : cmdQueue (departLid k lid p s).1 = cmdQueue s := by
  unfold departLid
  split <;> simp

@[simp] theorem cmdQueue_answer {p kind data flits s} : cmdQueue (answer p kind data flits s) = cmdQueue s := by
  unfold answer
  split <;> simp

@[simp] theorem cmdQueue_consume {i p s} : cmdQueue (consume i p s) = cmdQueue s := by
  unfold consume
  split <;> simp

/-! ### Function units -/

@[simp] theorem cmdQueue_unitResult {k s} : cmdQueue (unitResult k s) = cmdQueue s := by
  unfold unitResult
  split <;> simp

/-! ### Loads and stores -/

@[simp] theorem cmdQueue_lsuDone {k v s} : cmdQueue (lsuDone k v s) = cmdQueue s := by simp [lsuDone]

@[simp] theorem cmdQueue_raiseBus {k info bundle slot addr s} :
    cmdQueue (raiseBus k info bundle slot addr s) = cmdQueue s := by
  simp [raiseBus]

@[simp] theorem cmdQueue_lsuFail {k s} : cmdQueue (lsuFail k s) = cmdQueue s := by
  unfold lsuFail
  split <;> simp

@[simp] theorem cmdQueue_dmemAccess {rig berth k d kind data cmp s} :
    cmdQueue (dmemAccess rig berth k d kind data cmp s).1 = cmdQueue s := by
  unfold dmemAccess
  split
  · simp
  · simp
  · rfl
  · dsimp only
    split
    · simp
    · split <;> simp

@[simp] theorem cmdQueue_lsuLocal {k d a s} : cmdQueue (lsuLocal k d a s) = cmdQueue s := by
  unfold lsuLocal
  dsimp only
  split <;> simp

@[simp] theorem cmdQueue_lsuFar {k lid r a s} : cmdQueue (lsuFar k lid r a s) = cmdQueue s := by simp [lsuFar]

@[simp] theorem cmdQueue_lsuStep {k s} : cmdQueue (lsuStep k s) = cmdQueue s := by
  unfold lsuStep
  split
  · rfl
  · dsimp only
    repeat' split
    all_goals simp

@[simp] theorem cmdQueue_lsuResponse {k tag v s} : cmdQueue (lsuResponse k tag v s) = cmdQueue s := by
  unfold lsuResponse
  repeat' split
  all_goals simp

@[simp] theorem cmdQueue_foldBytes {k bs s} : cmdQueue (foldBytes k bs s) = cmdQueue s := by simp [foldBytes]
@[simp] theorem cmdQueue_foldFail {k s} : cmdQueue (foldFail k s) = cmdQueue s := by simp [foldFail]

@[simp] theorem cmdQueue_foldLocal {k d n s} : cmdQueue (foldLocal k d n s) = cmdQueue s := by
  unfold foldLocal
  dsimp only
  split <;> simp

@[simp] theorem cmdQueue_foldFar {k lid r n fo s} : cmdQueue (foldFar k lid r n fo s) = cmdQueue s := by
  simp [foldFar]

@[simp] theorem cmdQueue_foldStep {k s} : cmdQueue (foldStep k s) = cmdQueue s := by
  unfold foldStep
  dsimp only
  split
  · simp
  · split <;> simp

@[simp] theorem cmdQueue_foldResponse {k tag bs s} : cmdQueue (foldResponse k tag bs s) = cmdQueue s := by
  unfold foldResponse
  split <;> simp

/-! ### The ferry engine -/

@[simp] theorem cmdQueue_setCredits {s} : cmdQueue (setCredits s) = cmdQueue s := by simp [setCredits]
@[simp] theorem cmdQueue_creditEdge {s} : cmdQueue (creditEdge s) = cmdQueue s := by simp [creditEdge]
@[simp] theorem cmdQueue_takeSeq {k s} : cmdQueue (takeSeq k s) = cmdQueue s := by simp [takeSeq]
@[simp] theorem cmdQueue_modAct {k g s} : cmdQueue (modAct k g s) = cmdQueue s := by simp [modAct]
@[simp] theorem cmdQueue_fryFail {k code s} : cmdQueue (fryFail k code s) = cmdQueue s := by simp [fryFail]
@[simp] theorem cmdQueue_frySent {k q} : cmdQueue (frySent k q) = cmdQueue q.1 := by simp [frySent]
@[simp] theorem cmdQueue_fryGot {k bs s} : cmdQueue (fryGot k bs s) = cmdQueue s := by simp [fryGot]

@[simp] theorem cmdQueue_fryRead {k a s} : cmdQueue (fryRead k a s) = cmdQueue s := by
  unfold fryRead
  dsimp only
  split
  · simp
  · split <;> simp
  · simp

@[simp] theorem cmdQueue_fryWrite {k a s} : cmdQueue (fryWrite k a s) = cmdQueue s := by
  unfold fryWrite
  dsimp only
  split <;> simp

@[simp] theorem cmdQueue_putBundles {k n a bs s} : cmdQueue (putBundles k n a bs s) = cmdQueue s := by
  induction n generalizing a bs s with
  | zero => rfl
  | succ n ih =>
    unfold putBundles
    split <;> simp [ih]

@[simp] theorem cmdQueue_fryBundles {k a s} : cmdQueue (fryBundles k a s) = cmdQueue s := by simp [fryBundles]

@[simp] theorem cmdQueue_sendPost {k lid seq a body s} : cmdQueue (sendPost k lid seq a body s) = cmdQueue s := by
  simp [sendPost]

@[simp] theorem cmdQueue_capture {k b a s} : cmdQueue (capture k b a s) = cmdQueue s := by simp [capture]

@[simp] theorem cmdQueue_sendFrame {k a n o s} : cmdQueue (sendFrame k a n o s) = cmdQueue s := by
  induction n generalizing o s with
  | zero => rfl
  | succ n ih =>
    unfold sendFrame
    split <;> simp [ih]

@[simp] theorem cmdQueue_sendItem {k a s} : cmdQueue (sendItem k a s) = cmdQueue s := by
  unfold sendItem
  dsimp only
  split <;> simp

@[simp] theorem cmdQueue_fryBurst {k s} : cmdQueue (fryBurst k s) = cmdQueue s := by
  unfold fryBurst
  split <;> simp

@[simp] theorem cmdQueue_fryPump {k n s} : cmdQueue (fryPump k n s) = cmdQueue s := by
  induction n generalizing s with
  | zero => rfl
  | succ n ih =>
    unfold fryPump
    dsimp only
    split <;> simp [ih]

@[simp] theorem cmdQueue_runFerry {k s} : cmdQueue (runFerry k s) = cmdQueue s := by simp [runFerry]
@[simp] theorem cmdQueue_ferryAfterLine {k s} : cmdQueue (ferryAfterLine k s) = cmdQueue s := by simp [ferryAfterLine]

@[simp] theorem cmdQueue_readDescriptor {k r s} : cmdQueue (readDescriptor k r s).1 = cmdQueue s := by
  unfold readDescriptor
  dsimp only
  split
  · rfl
  · split <;> simp

@[simp] theorem cmdQueue_startDescriptor {k s} : cmdQueue (startDescriptor k s) = cmdQueue s := by
  unfold startDescriptor
  dsimp only
  split <;> simp

@[simp] theorem cmdQueue_recordFerryError {k a code s} : cmdQueue (recordFerryError k a code s) = cmdQueue s := by
  simp [recordFerryError]

@[simp] theorem cmdQueue_finishDescriptor {k a s} : cmdQueue (finishDescriptor k a s) = cmdQueue s := by
  simp [finishDescriptor]

@[simp] theorem cmdQueue_completeDescriptor {k s} : cmdQueue (completeDescriptor k s) = cmdQueue s := by
  unfold completeDescriptor
  dsimp only
  split <;> simp

@[simp] theorem cmdQueue_ferryData {k bs s} : cmdQueue (ferryData k bs s) = cmdQueue s := by
  unfold ferryData
  split <;> simp

@[simp] theorem cmdQueue_writeDone {k s} : cmdQueue (writeDone k s) = cmdQueue s := by simp [writeDone]
@[simp] theorem cmdQueue_ferryAck {k s} : cmdQueue (ferryAck k s) = cmdQueue s := by simp [ferryAck]

@[simp] theorem cmdQueue_ferryError {k tag s} : cmdQueue (ferryError k tag s) = cmdQueue s := by
  unfold ferryError
  split <;> simp

/-! ### Network landings -/

@[simp] theorem cmdQueue_setNetSt {s k n} : cmdQueue (State.setNetSt s k n) = cmdQueue s := by simp [State.setNetSt]
@[simp] theorem cmdQueue_modNetSt {s k g} : cmdQueue (State.modNetSt s k g) = cmdQueue s := by simp [State.modNetSt]
@[simp] theorem cmdQueue_countPort {k p i s n} : cmdQueue (countPort k p i s n) = cmdQueue s := by simp [countPort]
@[simp] theorem cmdQueue_countLanding {k i s} : cmdQueue (countLanding k i s) = cmdQueue s := by simp [countLanding]
@[simp] theorem cmdQueue_setPstat {k p i b s} : cmdQueue (setPstat k p i b s) = cmdQueue s := by simp [setPstat]
@[simp] theorem cmdQueue_onLine {k p bs s} : cmdQueue (onLine k p bs s) = cmdQueue s := by simp [onLine]
@[simp] theorem cmdQueue_sendPause {k quanta s} : cmdQueue (sendPause k quanta s) = cmdQueue s := by simp [sendPause]
@[simp] theorem cmdQueue_pauseCheck {k s} : cmdQueue (pauseCheck k s) = cmdQueue s := by simp [pauseCheck]
@[simp] theorem cmdQueue_sendPort {k p s} : cmdQueue (sendPort k p s) = cmdQueue s := by simp [sendPort]

@[simp] theorem cmdQueue_macControl {k p opcode quanta s} : cmdQueue (macControl k p opcode quanta s) = cmdQueue s := by
  simp [macControl]

@[simp] theorem cmdQueue_netPortUp {k p pause s} : cmdQueue (netPortUp k p pause s) = cmdQueue s := by
  simp [netPortUp]

@[simp] theorem cmdQueue_netPortDown {k p s} : cmdQueue (netPortDown k p s) = cmdQueue s := by simp [netPortDown]

@[simp] theorem cmdQueue_bayLost {k frame s} : cmdQueue (bayLost k frame s) = cmdQueue s := by
  unfold bayLost
  split <;> simp

@[simp] theorem cmdQueue_landingSend {k lid p s} : cmdQueue (landingSend k lid p s).1 = cmdQueue s := by
  unfold landingSend
  repeat' split
  all_goals simp

@[simp] theorem cmdQueue_baySend {k j qos frame p s} : cmdQueue (baySend k j qos frame p s) = cmdQueue s := by
  simp [baySend]

@[simp] theorem cmdQueue_bayBlocks {k j qos frame n a bs s} :
    cmdQueue (bayBlocks k j qos frame n a bs s) = cmdQueue s := by
  induction n generalizing a bs s with
  | zero => rfl
  | succ n ih =>
    unfold bayBlocks
    split <;> simp [ih]

@[simp] theorem cmdQueue_bayWord {k j qos frame a v s} : cmdQueue (bayWord k j qos frame a v s) = cmdQueue s := by
  simp [bayWord]

@[simp] theorem cmdQueue_setBay {k j h b s} : cmdQueue (setBay k j h b s) = cmdQueue s := by simp [setBay]
@[simp] theorem cmdQueue_bayHeader {k m j s} : cmdQueue (bayHeader k m j s) = cmdQueue s := by simp [bayHeader]

@[simp] theorem cmdQueue_bayCounts {k j h qos frame s} : cmdQueue (bayCounts k j h qos frame s) = cmdQueue s := by
  simp [bayCounts]

@[simp] theorem cmdQueue_deliverFrame {k s f} : cmdQueue (deliverFrame k s f) = cmdQueue s := by
  unfold deliverFrame
  split <;> simp

@[simp] theorem cmdQueue_deliverHeld {k s} : cmdQueue (deliverHeld k s) = cmdQueue s := by simp [deliverHeld]

@[simp] theorem cmdQueue_bayRelease {k s} : cmdQueue (bayRelease k s) = cmdQueue s := by
  unfold bayRelease
  split <;> simp

@[simp] theorem cmdQueue_classify {k p bs s} : cmdQueue (classify k p bs s) = cmdQueue s := by
  rw [classify_eq]
  beta_reduce
  extract_lets +onlyGivenNames t
  have h : cmdQueue t = cmdQueue s := cmdQueue_countPort
  clear_value t
  split <;> simp [h]

@[simp] theorem cmdQueue_countFec {k p corr uncorr s} : cmdQueue (countFec k p corr uncorr s) = cmdQueue s := by
  simp [countFec]

@[simp] theorem cmdQueue_netFrameRx {k p bs corr uncorr s} : cmdQueue (netFrameRx k p bs corr uncorr s) = cmdQueue s := by
  simp [netFrameRx]

@[simp] theorem cmdQueue_egressPacket {k p s} : cmdQueue (egressPacket k p s).1 = cmdQueue s := by
  unfold egressPacket
  dsimp only
  split
  · simp
  · split
    · simp
    · split <;> simp

@[simp] theorem cmdQueue_egressArrives {i s} : cmdQueue (egressArrives i s) = cmdQueue s := by
  unfold egressArrives
  repeat' split
  all_goals simp

@[simp] theorem cmdQueue_releaseEgress {s k} : cmdQueue (releaseEgress s k) = cmdQueue s := by simp [releaseEgress]

@[simp] theorem cmdQueue_egressTimeout {k p s} : cmdQueue (egressTimeout k p s) = cmdQueue s := by
  unfold egressTimeout
  dsimp only
  split <;> simp

/-! ### Staged registers -/

@[simp] theorem cmdQueue_followLive {s a} : cmdQueue (followLive s a) = cmdQueue s := by simp [followLive]
@[simp] theorem cmdQueue_makeLive {p s} : cmdQueue (makeLive p s) = cmdQueue s := by simp [makeLive]
@[simp] theorem cmdQueue_applyPage {p s} : cmdQueue (applyPage p s) = cmdQueue s := by simp [applyPage]
@[simp] theorem cmdQueue_discardPage {p s} : cmdQueue (discardPage p s) = cmdQueue s := by simp [discardPage]
@[simp] theorem cmdQueue_discard {p s} : cmdQueue (discard p s) = cmdQueue s := by simp [discard]
@[simp] theorem cmdQueue_haltRig {k s} : cmdQueue (haltRig k s) = cmdQueue s := by simp [haltRig]
@[simp] theorem cmdQueue_releaseRig {k s} : cmdQueue (releaseRig k s) = cmdQueue s := by simp [releaseRig]

@[simp] theorem cmdQueue_haltReq {p request s} : cmdQueue (haltReq p request s) = cmdQueue s := by
  unfold haltReq
  split <;> simp

@[simp] theorem cmdQueue_haltPoint {p s} : cmdQueue (haltPoint p s) = cmdQueue s := by
  unfold haltPoint
  repeat' split
  all_goals simp

/-! ### Control -/

@[simp] theorem cmdQueue_gateRow {ret k s} : cmdQueue (gateRow ret k s) = cmdQueue s := by simp [gateRow]

/-! ### Exceptions -/

@[simp] theorem cmdQueue_writeBank {k c s} : cmdQueue (writeBank k c s) = cmdQueue s := by
  unfold writeBank
  have hb (t : State) (w : Fld × Nat) : cmdQueue (bankSet t k w.1 w.2) = cmdQueue t := cmdQueue_bankSet
  exact (cmdQueue_foldl hb _ _).trans (cmdQueue_foldl hb _ _)

@[simp] theorem cmdQueue_writeEstat {k c s} : cmdQueue (writeEstat k c s) = cmdQueue s := by
  unfold writeEstat
  exact cmdQueue_foldl (fun _ _ => cmdQueue_bankSet) _ _

@[simp] theorem cmdQueue_faultMarks {k c s} : cmdQueue (faultMarks k c s) = cmdQueue s := by
  unfold faultMarks
  split <;> simp

@[simp] theorem cmdQueue_writeXb {k c s} : cmdQueue (writeXb k c s) = cmdQueue s := by
  unfold writeXb
  split <;> simp

@[simp] theorem cmdQueue_clearPending {k c s} : cmdQueue (clearPending k c s) = cmdQueue s := by
  unfold clearPending
  split <;> simp

@[simp] theorem cmdQueue_saveHist {k s} : cmdQueue (saveHist k s) = cmdQueue s := by simp [saveHist]
@[simp] theorem cmdQueue_enterHandler {k c s} : cmdQueue (enterHandler k c s) = cmdQueue s := by simp [enterHandler]
@[simp] theorem cmdQueue_stopTile {k s} : cmdQueue (stopTile k s) = cmdQueue s := by simp [stopTile]
@[simp] theorem cmdQueue_toDraining {s} : cmdQueue (toDraining s) = cmdQueue s := by simp [toDraining]
@[simp] theorem cmdQueue_stopBerth {l but s} : cmdQueue (stopBerth l but s) = cmdQueue s := by simp [stopBerth]
@[simp] theorem cmdQueue_showReports {f s} : cmdQueue (showReports f s) = cmdQueue s := by simp [showReports]
@[simp] theorem cmdQueue_setReports {f q s} : cmdQueue (setReports f q s) = cmdQueue s := by simp [setReports]
@[simp] theorem cmdQueue_pushReport {f x s} : cmdQueue (pushReport f x s) = cmdQueue s := by simp [pushReport]

@[simp] theorem cmdQueue_escalate {k c s} : cmdQueue (escalate k c s) = cmdQueue s := by
  unfold escalate
  extract_lets f s1 s2 x s3 s4 s5 s6
  have h2 : cmdQueue s2 = cmdQueue s := by
    unfold s2
    split
    · split <;> simp [s1]
    · simp [s1]
  have h6 : cmdQueue s6 = cmdQueue s := by simp [s6, s5, s4, s3, h2]
  refine cmdQueue_toDraining.trans ?_
  split
  · exact h6
  · split <;> simp [h6]

@[simp] theorem cmdQueue_handlerEntry {k s} : cmdQueue (handlerEntry k s) = cmdQueue s := by
  unfold handlerEntry
  dsimp only
  repeat' split
  all_goals simp

@[simp] theorem cmdQueue_timerEvent {k s} : cmdQueue (timerEvent k s) = cmdQueue s := by simp [timerEvent]
@[simp] theorem cmdQueue_clearGwState {k s} : cmdQueue (clearGwState k s) = cmdQueue s := by simp [clearGwState]
@[simp] theorem cmdQueue_pmodeWrite {k split s} : cmdQueue (pmodeWrite k split s) = cmdQueue s := by simp [pmodeWrite]
@[simp] theorem cmdQueue_releaseTile {k s} : cmdQueue (releaseTile k s) = cmdQueue s := by simp [releaseTile]
@[simp] theorem cmdQueue_escRelease {k s} : cmdQueue (escRelease k s) = cmdQueue s := by simp [escRelease]
@[simp] theorem cmdQueue_popReport {f s} : cmdQueue (popReport f s) = cmdQueue s := by simp [popReport]

/-! ### Hawsers -/

@[simp] theorem cmdQueue_linkItem {h e s} : cmdQueue (linkItem h e s) = cmdQueue s := by simp [linkItem]

@[simp] theorem cmdQueue_inUp {h e g s} (hg : ∀ t, cmdQueue (g t) = cmdQueue t) :
    cmdQueue (inUp h e g s) = cmdQueue s := by
  simp [inUp, hg]

@[simp] theorem cmdQueue_deliver {h e v q len taken s} : cmdQueue (deliver h e v q len taken s) = cmdQueue s := by
  unfold deliver
  dsimp only
  split <;> simp

@[simp] theorem cmdQueue_seqIn {h e v q len parity taken s} :
    cmdQueue (seqIn h e v q len parity taken s) = cmdQueue s := by
  simp [seqIn]

@[simp] theorem cmdQueue_dataIn {h e hd bad parity taken s} :
    cmdQueue (dataIn h e hd bad parity taken s) = cmdQueue s := by
  unfold dataIn
  dsimp only
  split
  · simp
  · split
    · rfl
    · split
      · simp
      · split <;> simp

@[simp] theorem cmdQueue_nakLane {h e n s} : cmdQueue (nakLane h e n s) = cmdQueue s := by simp [nakLane]
@[simp] theorem cmdQueue_holdTimer {h e v s} : cmdQueue (holdTimer h e v s) = cmdQueue s := by simp [holdTimer]
@[simp] theorem cmdQueue_nakIn {h e w sent s} : cmdQueue (nakIn h e w sent s) = cmdQueue s := by simp [nakIn]
@[simp] theorem cmdQueue_laneIn {h e w s} : cmdQueue (laneIn h e w s) = cmdQueue s := by simp [laneIn]

@[simp] theorem cmdQueue_flowIn {h e v sent off s} : cmdQueue (flowIn h e v sent off s) = cmdQueue s := by
  simp [flowIn]

@[simp] theorem cmdQueue_maskIn {h e w s} : cmdQueue (maskIn h e w s) = cmdQueue s := by simp [maskIn]

@[simp] theorem cmdQueue_readyIn {h e w link s} : cmdQueue (readyIn h e w link s) = cmdQueue s := by
  unfold readyIn
  split <;> simp

@[simp] theorem cmdQueue_breakEnd {h e s} : cmdQueue (breakEnd h e s) = cmdQueue s := by simp [breakEnd]
@[simp] theorem cmdQueue_badLane {h e n s} : cmdQueue (badLane h e n s) = cmdQueue s := by simp [badLane]

@[simp] theorem cmdQueue_nakLanes {h e inside active spare s} :
    cmdQueue (nakLanes h e inside active spare s) = cmdQueue s := by
  unfold nakLanes
  split <;> simp

@[simp] theorem cmdQueue_parityErrors {h e lanes inside s} : cmdQueue (parityErrors h e lanes inside s) = cmdQueue s := by
  simp [parityErrors]

/-! ### Retirement -/

@[simp] theorem cmdQueue_deadRig {k s} : cmdQueue (deadRig k s) = cmdQueue s := by simp [deadRig]
@[simp] theorem cmdQueue_loseUse {lid s} : cmdQueue (loseUse lid s) = cmdQueue s := by simp [loseUse]
@[simp] theorem cmdQueue_fenceEnd {h e s} : cmdQueue (fenceEnd h e s) = cmdQueue s := by simp [fenceEnd]
@[simp] theorem cmdQueue_dropDead {f s} : cmdQueue (dropDead f s) = cmdQueue s := by simp [dropDead]

@[simp] theorem cmdQueue_retireTile {f t s} : cmdQueue (retireTile f t s) = cmdQueue s := by
  unfold retireTile
  repeat' split
  all_goals simp

@[simp] theorem cmdQueue_scaleShares {k b s} : cmdQueue (scaleShares k b s) = cmdQueue s := by
  unfold scaleShares
  extract_lets p some' s1 c m s2 s3
  have h2 : cmdQueue s2 = cmdQueue s := cmdQueue_m.trans (cmdQueue_foldl (fun _ _ => cmdQueue_set) _ _)
  have h3 : cmdQueue s3 = cmdQueue s := cmdQueue_ite_of h2 (by simp [h2])
  simp [h3]

@[simp] theorem cmdQueue_retireBank {f t b s} : cmdQueue (retireBank f t b s) = cmdQueue s := by simp [retireBank]

@[simp] theorem cmdQueue_retireLaneEnd {h e n s} : cmdQueue (retireLaneEnd h e n s) = cmdQueue s := by
  simp [retireLaneEnd]

@[simp] theorem cmdQueue_retireLane {f ctype cindex n s} : cmdQueue (retireLane f ctype cindex n s) = cmdQueue s := by
  simp [retireLane]

@[simp] theorem cmdQueue_dropPackets {f mark s} : cmdQueue (dropPackets f mark s) = cmdQueue s := by
  simp [dropPackets]

@[simp] theorem cmdQueue_clearField {f s} : cmdQueue (clearField f s) = cmdQueue s := by simp [clearField]
@[simp] theorem cmdQueue_bistCycles {f s} : cmdQueue (bistCycles f s) = cmdQueue s := by simp [bistCycles]

@[simp] theorem cmdQueue_removeField {f fieldTo tileTo lost s} :
    cmdQueue (removeField f fieldTo tileTo lost s) = cmdQueue s := by
  simp [removeField]

@[simp] theorem cmdQueue_applyRetire {r s} : cmdQueue (applyRetire r s) = cmdQueue s := by
  unfold applyRetire
  split <;> simp

@[simp] theorem cmdQueue_applyRetirements {s} : cmdQueue (applyRetirements s) = cmdQueue s := by
  simp [applyRetirements]

@[simp] theorem cmdQueue_requestRetire {r s} : cmdQueue (requestRetire r s) = cmdQueue s := by
  unfold requestRetire
  extract_lets s1 m s2
  have h1 : cmdQueue s1 = cmdQueue s := by
    unfold s1
    split
    · exact cmdQueue_setBit
    · rfl
  have h2 : cmdQueue s2 = cmdQueue s :=
    cmdQueue_ite_of cmdQueue_applyRetire (cmdQueue_ite_of h1 (cmdQueue_m.trans h1))
  generalize s2 = t at h2
  split <;> simp [h2]

@[simp] theorem cmdQueue_failRequests {f t s} : cmdQueue (failRequests f t s) = cmdQueue s := by simp [failRequests]

@[simp] theorem cmdQueue_loseTile {f t inRouter s} : cmdQueue (loseTile f t inRouter s) = cmdQueue s := by
  unfold loseTile
  dsimp only
  split
  · rfl
  · split <;> simp

@[simp] theorem cmdQueue_escalation {e s} : cmdQueue (escalation e s) = cmdQueue s := by
  unfold escalation
  split <;> simp

@[simp] theorem cmdQueue_newFieldRecords {s0 s} : cmdQueue (newFieldRecords s0 s) = cmdQueue s := by
  simp [newFieldRecords]

@[simp] theorem cmdQueue_reachRoster {e s} : cmdQueue (reachRoster e s) = cmdQueue s := by simp [reachRoster]

/-! ### Store landings -/

@[simp] theorem cmdQueue_setStoreSt {s k n} : cmdQueue (State.setStoreSt s k n) = cmdQueue s := by
  simp [State.setStoreSt]

@[simp] theorem cmdQueue_modStoreSt {s k g} : cmdQueue (State.modStoreSt s k g) = cmdQueue s := by
  simp [State.modStoreSt]

@[simp] theorem cmdQueue_setPortStat {k p F v s} : cmdQueue (setPortStat k p F v s) = cmdQueue s := by
  simp [setPortStat]

@[simp] theorem cmdQueue_countStore {k p i s} : cmdQueue (countStore k p i s) = cmdQueue s := by simp [countStore]
@[simp] theorem cmdQueue_slotSet {k i F v s} : cmdQueue (slotSet k i F v s) = cmdQueue s := by simp [slotSet]
@[simp] theorem cmdQueue_modXfer {k i g s} : cmdQueue (modXfer k i g s) = cmdQueue s := by simp [modXfer]

@[simp] theorem cmdQueue_skipTile {k i lid s} : cmdQueue (skipTile k i lid s) = cmdQueue s := by
  unfold skipTile
  split <;> simp

@[simp] theorem cmdQueue_xferSend {k i x lid p s} : cmdQueue (xferSend k i x lid p s) = cmdQueue s := by
  simp [xferSend]

@[simp] theorem cmdQueue_xferBlock {k i x a bs s} : cmdQueue (xferBlock k i x a bs s) = cmdQueue s := by
  simp [xferBlock]

@[simp] theorem cmdQueue_xferBlocks {k i x n a bs s} : cmdQueue (xferBlocks k i x n a bs s) = cmdQueue s := by
  induction n generalizing a bs s with
  | zero => rfl
  | succ n ih =>
    unfold xferBlocks
    split <;> simp [ih]

@[simp] theorem cmdQueue_xferReads {k i x n o s} : cmdQueue (xferReads k i x n o s) = cmdQueue s := by
  induction n generalizing o s with
  | zero => rfl
  | succ n ih =>
    unfold xferReads
    split <;> simp [ih]

@[simp] theorem cmdQueue_modNvme {k p g s} : cmdQueue (modNvme k p g s) = cmdQueue s := by simp [modNvme]
@[simp] theorem cmdQueue_submit {k x at' upTo s} : cmdQueue (submit k x at' upTo s) = cmdQueue s := by simp [submit]

@[simp] theorem cmdQueue_submitWrites {k i s} : cmdQueue (submitWrites k i s) = cmdQueue s := by
  unfold submitWrites
  split <;> simp

@[simp] theorem cmdQueue_askTile {k s x} : cmdQueue (askTile k s x) = cmdQueue s := by simp [askTile]
@[simp] theorem cmdQueue_askTiles {k s} : cmdQueue (askTiles k s) = cmdQueue s := by simp [askTiles]

@[simp] theorem cmdQueue_endXfer {k i res s} : cmdQueue (endXfer k i res s) = cmdQueue s := by
  unfold endXfer
  split <;> simp

@[simp] theorem cmdQueue_startXferAt {k i inCrossing s} : cmdQueue (startXferAt k i inCrossing s) = cmdQueue s := by
  unfold startXferAt
  split
  · rfl
  · dsimp only
    split <;> simp

@[simp] theorem cmdQueue_startWaiting {s k} : cmdQueue (startWaiting s k) = cmdQueue s := by simp [startWaiting]
@[simp] theorem cmdQueue_xctlWrite {k i v s} : cmdQueue (xctlWrite k i v s) = cmdQueue s := by simp [xctlWrite]

@[simp] theorem cmdQueue_nvmeDone {k i status data s} : cmdQueue (nvmeDone k i status data s) = cmdQueue s := by
  unfold nvmeDone
  repeat' split
  all_goals simp

@[simp] theorem cmdQueue_xferComplete {k i s} : cmdQueue (xferComplete k i s) = cmdQueue s := by
  unfold xferComplete
  split <;> simp

@[simp] theorem cmdQueue_xferAnswer {k i tag ok bytes s} : cmdQueue (xferAnswer k i tag ok bytes s) = cmdQueue s := by
  unfold xferAnswer
  split <;> simp

@[simp] theorem cmdQueue_endPort {k p s} : cmdQueue (endPort k p s) = cmdQueue s := by simp [endPort]
@[simp] theorem cmdQueue_portLost {k p s} : cmdQueue (portLost k p s) = cmdQueue s := by simp [portLost]
@[simp] theorem cmdQueue_lowerPerst {k p s} : cmdQueue (lowerPerst k p s) = cmdQueue s := by simp [lowerPerst]
@[simp] theorem cmdQueue_resetPort {k p s} : cmdQueue (resetPort k p s) = cmdQueue s := by simp [resetPort]
@[simp] theorem cmdQueue_resetPorts {k s} : cmdQueue (resetPorts k s) = cmdQueue s := by simp [resetPorts]

@[simp] theorem cmdQueue_xferTimeout {k i s} : cmdQueue (xferTimeout k i s) = cmdQueue s := by
  unfold xferTimeout
  split <;> simp

@[simp] theorem cmdQueue_releasePerst {k p s} : cmdQueue (releasePerst k p s) = cmdQueue s := by
  unfold releasePerst
  split <;> simp

@[simp] theorem cmdQueue_storeLinkUp {k p gen width s} : cmdQueue (storeLinkUp k p gen width s) = cmdQueue s := by
  simp [storeLinkUp]

@[simp] theorem cmdQueue_storePortUp {k p lbads s} : cmdQueue (storePortUp k p lbads s) = cmdQueue s := by
  simp [storePortUp]

@[simp] theorem cmdQueue_deviceLate {k p s} : cmdQueue (deviceLate k p s) = cmdQueue s := by simp [deviceLate]

@[simp] theorem cmdQueue_inboundRequest {k p target s} : cmdQueue (inboundRequest k p target s) = cmdQueue s := by
  unfold inboundRequest
  split <;> simp

/-! ### The hoist -/

@[simp] theorem cmdQueue_modH {s g} : cmdQueue (State.modH s g) = cmdQueue s := by simp [State.modH]
@[simp] theorem cmdQueue_setHoistState {v s} : cmdQueue (setHoistState v s) = cmdQueue s := by simp [setHoistState]
@[simp] theorem cmdQueue_lockSet {b s} : cmdQueue (lockSet b s) = cmdQueue s := by simp [lockSet]
@[simp] theorem cmdQueue_startCheck {arming s} : cmdQueue (startCheck arming s) = cmdQueue s := by simp [startCheck]
@[simp] theorem cmdQueue_toIdle {s} : cmdQueue (toIdle s) = cmdQueue s := by simp [toIdle]
@[simp] theorem cmdQueue_disarm {s} : cmdQueue (disarm s) = cmdQueue s := by simp [disarm]
@[simp] theorem cmdQueue_abort {s} : cmdQueue (abort s) = cmdQueue s := by simp [abort]
@[simp] theorem cmdQueue_pushEntry {s x} : cmdQueue (pushEntry s x) = cmdQueue s := by simp [pushEntry]
@[simp] theorem cmdQueue_pushEntries {s} : cmdQueue (pushEntries s) = cmdQueue s := by simp [pushEntries]
@[simp] theorem cmdQueue_judgeSet {s} : cmdQueue (judgeSet s) = cmdQueue s := by simp [judgeSet]
@[simp] theorem cmdQueue_armPassed {s} : cmdQueue (armPassed s) = cmdQueue s := by simp [armPassed]
@[simp] theorem cmdQueue_finishCheck {s} : cmdQueue (finishCheck s) = cmdQueue s := by simp [finishCheck]
@[simp] theorem cmdQueue_checkEnd {s} : cmdQueue (checkEnd s) = cmdQueue s := by simp [checkEnd]
@[simp] theorem cmdQueue_popFifo {s} : cmdQueue (popFifo s) = cmdQueue s := by simp [popFifo]
@[simp] theorem cmdQueue_scaleApplied {p s} : cmdQueue (scaleApplied p s) = cmdQueue s := by simp [scaleApplied]

@[simp] theorem cmdQueue_headerChanged {old p s} : cmdQueue (headerChanged old p s) = cmdQueue s := by
  unfold headerChanged
  split
  · rfl
  · dsimp only
    split <;> simp

@[simp] theorem cmdQueue_resetChanged {old p s} : cmdQueue (resetChanged old p s) = cmdQueue s := by
  simp [resetChanged]

@[simp] theorem cmdQueue_dropPage {p s} : cmdQueue (dropPage p s) = cmdQueue s := by simp [dropPage]
@[simp] theorem cmdQueue_hoistNow {old} : cmdQueue (hoistNow old) = cmdQueue old := by simp [hoistNow]

@[simp] theorem cmdQueue_hoistAtSlack {s} : cmdQueue (hoistAtSlack s) = cmdQueue s := by
  unfold hoistAtSlack
  split <;> simp

@[simp] theorem cmdQueue_hoistInstant {s} : cmdQueue (hoistInstant s) = cmdQueue s := by
  unfold hoistInstant
  split <;> simp

/-! ### The logbook -/

@[simp] theorem cmdQueue_setSlot {s seq b} : cmdQueue (setSlot s seq b) = cmdQueue s := by simp [setSlot]

@[simp] theorem cmdQueue_logbookWrite {s} : cmdQueue (logbookWrite s) = cmdQueue s := by
  unfold logbookWrite
  split <;> simp

@[simp] theorem cmdQueue_setReadWindow {st b s} : cmdQueue (setReadWindow st b s) = cmdQueue s := by
  simp [setReadWindow]

@[simp] theorem cmdQueue_readSeq {v s} : cmdQueue (readSeq v s) = cmdQueue s := by simp [readSeq]
@[simp] theorem cmdQueue_ackSeq {v s} : cmdQueue (ackSeq v s) = cmdQueue s := by simp [ackSeq]
@[simp] theorem cmdQueue_serviceMark {v s} : cmdQueue (serviceMark v s) = cmdQueue s := by simp [serviceMark]

@[simp] theorem cmdQueue_serviceReason {reason s} : cmdQueue (serviceReason reason s) = cmdQueue s := by
  simp [serviceReason]

/-! ### The port -/

@[simp] theorem cmdQueue_rejectFrame {f reason s} : cmdQueue (rejectFrame f reason s) = cmdQueue s := by
  simp [rejectFrame]

@[simp] theorem cmdQueue_statusFrame {s} : cmdQueue (statusFrame s) = cmdQueue s := by simp [statusFrame]

@[simp] theorem cmdQueue_takeCommand {tag c n s} : cmdQueue (takeCommand tag c n s) = cmdQueue s := by
  simp [takeCommand]

@[simp] theorem cmdQueue_answerCommand {result data s} : cmdQueue (answerCommand result data s) = cmdQueue s := by
  simp [answerCommand]

@[simp] theorem cmdQueue_clearCounters {s} : cmdQueue (clearCounters s) = cmdQueue s := by simp [clearCounters]

/-! ### Power -/

@[simp] theorem cmdQueue_powerAlert {code arg0 arg1 s} : cmdQueue (powerAlert code arg0 arg1 s) = cmdQueue s := by
  simp [powerAlert]

@[simp] theorem cmdQueue_modP {s g} : cmdQueue (State.modP s g) = cmdQueue s := by simp [State.modP]

@[simp] theorem cmdQueue_setFault {r s} : cmdQueue (setFault r s) = cmdQueue s := by
  unfold setFault
  split <;> simp

@[simp] theorem cmdQueue_railFault {r s} : cmdQueue (railFault r s) = cmdQueue s := by simp [railFault]
@[simp] theorem cmdQueue_operation {r v s} : cmdQueue (operation r v s) = cmdQueue s := by simp [operation]
@[simp] theorem cmdQueue_voutCommand {r mv s} : cmdQueue (voutCommand r mv s) = cmdQueue s := by simp [voutCommand]
@[simp] theorem cmdQueue_sentTo {r code v s} : cmdQueue (sentTo r code v s) = cmdQueue s := by simp [sentTo]
@[simp] theorem cmdQueue_clearFaults {r s} : cmdQueue (clearFaults r s) = cmdQueue s := by simp [clearFaults]
@[simp] theorem cmdQueue_configure {r s} : cmdQueue (configure r s) = cmdQueue s := by simp [configure]
@[simp] theorem cmdQueue_setFieldRail {f b s} : cmdQueue (setFieldRail f b s) = cmdQueue s := by simp [setFieldRail]
@[simp] theorem cmdQueue_setFieldOn {f b s} : cmdQueue (setFieldOn f b s) = cmdQueue s := by simp [setFieldOn]

@[simp] theorem cmdQueue_setLandingRail {k b s} : cmdQueue (setLandingRail k b s) = cmdQueue s := by
  simp [setLandingRail]

@[simp] theorem cmdQueue_notAcked {r p s} : cmdQueue (notAcked r p s) = cmdQueue s := by simp [notAcked]
@[simp] theorem cmdQueue_railKept {f s} : cmdQueue (railKept f s) = cmdQueue s := by simp [railKept]
@[simp] theorem cmdQueue_dropWaits {p s} : cmdQueue (dropWaits p s) = cmdQueue s := by simp [dropWaits]

@[simp] theorem cmdQueue_railOff {r v s} : cmdQueue (railOff r v s) = cmdQueue s := by
  unfold railOff
  split <;> simp

@[simp] theorem cmdQueue_switchOff {r v s} : cmdQueue (switchOff r v s) = cmdQueue s := by simp [switchOff]
@[simp] theorem cmdQueue_fieldOff {f v s} : cmdQueue (fieldOff f v s) = cmdQueue s := by simp [fieldOff]

@[simp] theorem cmdQueue_stopFlash {s} : cmdQueue (stopFlash s) = cmdQueue s := by
  unfold stopFlash
  split <;> simp

@[simp] theorem cmdQueue_resetLogged {s} : cmdQueue (resetLogged s) = cmdQueue s := by
  unfold resetLogged
  split <;> simp

@[simp] theorem cmdQueue_wakeFails {s} : cmdQueue (wakeFails s) = cmdQueue s := by simp [wakeFails]
@[simp] theorem cmdQueue_railsOff {s} : cmdQueue (railsOff s) = cmdQueue s := by simp [railsOff]

@[simp] theorem cmdQueue_moorEnd {s} : cmdQueue (moorEnd s) = cmdQueue s := by
  unfold moorEnd
  split <;> simp

@[simp] theorem cmdQueue_moorNow {c s} : cmdQueue (moorNow c s) = cmdQueue s := by simp [moorNow]

@[simp] theorem cmdQueue_requestMoor {c s} : cmdQueue (requestMoor c s) = cmdQueue s := by
  unfold requestMoor
  split <;> simp

theorem cmdQueue_moorIfPending {s t} (h : moorIfPending s = some t) : cmdQueue t = cmdQueue s := by
  simp only [moorIfPending, Option.map_eq_some_iff] at h
  obtain ⟨c, -, rfl⟩ := h
  simp

@[simp] theorem cmdQueue_dropLanding {k s} : cmdQueue (dropLanding k s) = cmdQueue s := by simp [dropLanding]
@[simp] theorem cmdQueue_rosterField {f v s} : cmdQueue (rosterField f v s) = cmdQueue s := by simp [rosterField]

@[simp] theorem cmdQueue_startBist {f s} : cmdQueue (startBist f s) = cmdQueue s := by
  unfold startBist
  refine (cmdQueue_foldl (fun t r => ?_) _ _).trans (by simp)
  split
  · rfl
  · split <;> simp

@[simp] theorem cmdQueue_finishBist {f s} : cmdQueue (finishBist f s) = cmdQueue s := by simp [finishBist]
@[simp] theorem cmdQueue_startStep {r s} : cmdQueue (startStep r s) = cmdQueue s := by simp [startStep]
@[simp] theorem cmdQueue_wclkStart {s} : cmdQueue (wclkStart s) = cmdQueue s := by simp [wclkStart]

@[simp] theorem cmdQueue_pumpRails {n s} : cmdQueue (pumpRails n s) = cmdQueue s := by
  induction n generalizing s with
  | zero => rfl
  | succ n ih =>
    unfold pumpRails
    refine cmdQueue_ite_of rfl ?_
    split
    · refine cmdQueue_ite_of rfl ?_
      split
      · next h => exact cmdQueue_moorIfPending h
      · exact cmdQueue_wclkStart
    · refine cmdQueue_ite_of rfl ?_
      extract_lets s1 s2
      have h1 : cmdQueue s1 = cmdQueue s := cmdQueue_modP
      have h2 : cmdQueue s2 = cmdQueue s := by
        unfold s2
        split
        · exact cmdQueue_ite_of (cmdQueue_rosterField.trans h1) h1
        · exact h1
      exact cmdQueue_ite_of (cmdQueue_startStep.trans h1) (ih.trans h2)

@[simp] theorem cmdQueue_nextRail {s} : cmdQueue (nextRail s) = cmdQueue s := by
  unfold nextRail
  split
  · next h => exact cmdQueue_moorIfPending h
  · simp

@[simp] theorem cmdQueue_queueRail {r s} : cmdQueue (queueRail r s) = cmdQueue s := by simp [queueRail]

@[simp] theorem cmdQueue_railGood {r deskewOk s} : cmdQueue (railGood r deskewOk s) = cmdQueue s := by
  unfold railGood
  dsimp only
  split
  · split
    · next h => simp [cmdQueue_moorIfPending h]
    · simp
  · simp
  · simp

@[simp] theorem cmdQueue_stepFailed {r s} : cmdQueue (stepFailed r s) = cmdQueue s := by
  unfold stepFailed
  split <;> simp

@[simp] theorem cmdQueue_railLost {r w s} : cmdQueue (railLost r w s) = cmdQueue s := by
  unfold railLost
  split <;> simp

@[simp] theorem cmdQueue_polled {r w deskewOk s} : cmdQueue (polled r w deskewOk s) = cmdQueue s := by simp [polled]

@[simp] theorem cmdQueue_probeRead {r rev cap mode s} : cmdQueue (probeRead r rev cap mode s) = cmdQueue s := by
  simp [probeRead]

@[simp] theorem cmdQueue_endProbe {s} : cmdQueue (endProbe s) = cmdQueue s := by
  unfold endProbe
  dsimp only
  split
  · next h => simp [cmdQueue_moorIfPending h]
  · repeat' split
    all_goals simp

@[simp] theorem cmdQueue_probeFrom {ans n i s} : cmdQueue (probeFrom ans n i s) = cmdQueue s := by
  induction n generalizing i s with
  | zero => simp [probeFrom]
  | succ n ih =>
    unfold probeFrom
    split
    · next h => exact cmdQueue_moorIfPending h
    · split <;> simp [ih]

@[simp] theorem cmdQueue_beginProbe {s} : cmdQueue (beginProbe s) = cmdQueue s := by simp [beginProbe]
@[simp] theorem cmdQueue_startProbe {ans s} : cmdQueue (startProbe ans s) = cmdQueue s := by simp [startProbe]
@[simp] theorem cmdQueue_askProbe {s} : cmdQueue (askProbe s) = cmdQueue s := by simp [askProbe]

@[simp] theorem cmdQueue_giveUp {w probe s} : cmdQueue (giveUp w probe s) = cmdQueue s := by
  unfold giveUp
  split <;> simp

@[simp] theorem cmdQueue_alertRead {r w s} : cmdQueue (alertRead r w s) = cmdQueue s := by simp [alertRead]
@[simp] theorem cmdQueue_visit {f s} : cmdQueue (visit f s) = cmdQueue s := by simp [visit]

@[simp] theorem cmdQueue_retried {w reply probe s} : cmdQueue (retried w reply probe s) = cmdQueue s := by
  unfold retried
  repeat' split
  all_goals simp

@[simp] theorem cmdQueue_setCauses {l s} : cmdQueue (setCauses l s) = cmdQueue s := by simp [setCauses]
@[simp] theorem cmdQueue_startWake {l probe s} : cmdQueue (startWake l probe s) = cmdQueue s := by simp [startWake]
@[simp] theorem cmdQueue_holdWake {w s} : cmdQueue (holdWake w s) = cmdQueue s := by simp [holdWake]

@[simp] theorem cmdQueue_wakeArrives {w probe s} : cmdQueue (wakeArrives w probe s) = cmdQueue s := by
  unfold wakeArrives
  split <;> simp

@[simp] theorem cmdQueue_actHeld {probe s} : cmdQueue (actHeld probe s) = cmdQueue s := by simp [actHeld]
@[simp] theorem cmdQueue_afterMoor {probe s} : cmdQueue (afterMoor probe s) = cmdQueue s := by simp [afterMoor]

@[simp] theorem cmdQueue_wakeFrame {tag probe s} : cmdQueue (wakeFrame tag probe s) = cmdQueue s := by
  simp [wakeFrame]

@[simp] theorem cmdQueue_moorFrame {tag s} : cmdQueue (moorFrame tag s) = cmdQueue s := by simp [moorFrame]
@[simp] theorem cmdQueue_showRetired {s} : cmdQueue (showRetired s) = cmdQueue s := by simp [showRetired]

@[simp] theorem cmdQueue_cutWrite {written s} : cmdQueue (cutWrite written s) = cmdQueue s := by
  unfold cutWrite
  split <;> simp

@[simp] theorem cmdQueue_leaveField {f s} : cmdQueue (leaveField f s) = cmdQueue s := by simp [leaveField]
@[simp] theorem cmdQueue_fieldOnSet {f s} : cmdQueue (fieldOnSet f s) = cmdQueue s := by simp [fieldOnSet]
@[simp] theorem cmdQueue_fieldCleared {f s} : cmdQueue (fieldCleared f s) = cmdQueue s := by simp [fieldCleared]
@[simp] theorem cmdQueue_fieldOnClear {f s} : cmdQueue (fieldOnClear f s) = cmdQueue s := by simp [fieldOnClear]
@[simp] theorem cmdQueue_landingOnSet {k s} : cmdQueue (landingOnSet k s) = cmdQueue s := by simp [landingOnSet]
@[simp] theorem cmdQueue_landingOnClear {k s} : cmdQueue (landingOnClear k s) = cmdQueue s := by simp [landingOnClear]

/-! ### Commands of the defect map -/

@[simp] theorem cmdQueue_finishTests {s} : cmdQueue (finishTests s) = cmdQueue s := by simp [finishTests]

@[simp] theorem cmdQueue_retireNow {kind field loc s} : cmdQueue (retireNow kind field loc s) = cmdQueue s := by
  simp [retireNow]

@[simp] theorem cmdQueue_retireValid {d s} : cmdQueue (retireValid d s) = cmdQueue s := by
  unfold retireValid
  dsimp only
  split
  · simp
  · split <;> simp

@[simp] theorem cmdQueue_retireRequest {s} : cmdQueue (retireRequest s) = cmdQueue s := by simp [retireRequest]

@[simp] theorem cmdQueue_onMap {g s} (hg : ∀ t, cmdQueue (g t) = cmdQueue t) : cmdQueue (onMap g s) = cmdQueue s := by
  simp [onMap, hg]

@[simp] theorem cmdQueue_retireCmd {s} : cmdQueue (retireCmd s) = cmdQueue s := by simp [retireCmd]
@[simp] theorem cmdQueue_askSync {s} : cmdQueue (askSync s) = cmdQueue s := by simp [askSync]

@[simp] theorem cmdQueue_syncCopies {flash s} : cmdQueue (syncCopies flash s) = cmdQueue s := by
  unfold syncCopies
  dsimp only
  split
  · rfl
  · next h => simp [cmdQueue_reconcile h]

@[simp] theorem cmdQueue_mapSync {flash s} : cmdQueue (mapSync flash s) = cmdQueue s := by simp [mapSync]
@[simp] theorem cmdQueue_sentPoll {readBack s} : cmdQueue (sentPoll readBack s) = cmdQueue s := by simp [sentPoll]

/-! ### Crossings and slack water -/

@[simp] theorem cmdQueue_setCseq {v s} : cmdQueue (setCseq v s) = cmdQueue s := by simp [setCseq]

@[simp] theorem cmdQueue_startCrossing {step s} : cmdQueue (startCrossing step s) = cmdQueue s := by
  simp [startCrossing]

@[simp] theorem cmdQueue_stopCrossing {s} : cmdQueue (stopCrossing s) = cmdQueue s := by simp [stopCrossing]
@[simp] theorem cmdQueue_latchCurNo {s} : cmdQueue (latchCurNo s) = cmdQueue s := by simp [latchCurNo]
@[simp] theorem cmdQueue_refuseResume {b s} : cmdQueue (refuseResume b s) = cmdQueue s := by simp [refuseResume]
@[simp] theorem cmdQueue_resume {b s} : cmdQueue (resume b s) = cmdQueue s := by simp [resume]
@[simp] theorem cmdQueue_suspend {b s} : cmdQueue (suspend b s) = cmdQueue s := by simp [suspend]

@[simp] theorem cmdQueue_copyLine {from' src to' dst s} : cmdQueue (copyLine from' src to' dst s).1 = cmdQueue s := by
  unfold copyLine
  dsimp only
  split
  · rfl
  · split <;> simp

@[simp] theorem cmdQueue_copyLines {from' src to' dst n s} :
    cmdQueue (copyLines from' src to' dst n s).1 = cmdQueue s := by
  induction n generalizing src dst s with
  | zero => rfl
  | succ n ih => simp [copyLines, ih]

@[simp] theorem cmdQueue_lineFailed {b s} : cmdQueue (lineFailed b s) = cmdQueue s := by simp [lineFailed]

@[simp] theorem cmdQueue_restoreBerth {s l} : cmdQueue (restoreBerth s l) = cmdQueue s := by
  refine cmdQueue_foldl (fun t i => ?_) _ _
  dsimp only
  split
  · split <;> simp
  · simp

@[simp] theorem cmdQueue_showSnap {k s} : cmdQueue (showSnap k s) = cmdQueue s := by simp [showSnap]

@[simp] theorem cmdQueue_startCopies {s l} : cmdQueue (startCopies s l) = cmdQueue s := by
  refine cmdQueue_foldl (fun t i => ?_) _ _
  split <;> simp

@[simp] theorem cmdQueue_lineCopied {k failed s} : cmdQueue (lineCopied k failed s) = cmdQueue s := by
  unfold lineCopied
  split
  · rfl
  · dsimp only
    repeat' split
    all_goals simp

@[simp] theorem cmdQueue_emptyHalf {k h s} : cmdQueue (emptyHalf k h s) = cmdQueue s := by simp [emptyHalf]
@[simp] theorem cmdQueue_showPosts {k h s} : cmdQueue (showPosts k h s) = cmdQueue s := by simp [showPosts]
@[simp] theorem cmdQueue_swapPosts {n s} : cmdQueue (swapPosts n s) = cmdQueue s := by simp [swapPosts]
@[simp] theorem cmdQueue_showDropped {s l} : cmdQueue (showDropped s l) = cmdQueue s := by simp [showDropped]
@[simp] theorem cmdQueue_moveReefStats {k s} : cmdQueue (moveReefStats k s) = cmdQueue s := by simp [moveReefStats]
@[simp] theorem cmdQueue_clearOpened {k s} : cmdQueue (clearOpened k s) = cmdQueue s := by simp [clearOpened]

@[simp] theorem cmdQueue_openTile {no recross replay k s} : cmdQueue (openTile no recross replay k s) = cmdQueue s := by
  simp [openTile]

@[simp] theorem cmdQueue_openTiles {no recross l s} : cmdQueue (openTiles no recross l s) = cmdQueue s := by
  refine cmdQueue_foldl (fun t e => ?_) _ _
  split <;> simp

@[simp] theorem cmdQueue_resumeBerth {s l} : cmdQueue (resumeBerth s l) = cmdQueue s := by simp [resumeBerth]
@[simp] theorem cmdQueue_resumeAll {ls s} : cmdQueue (resumeAll ls s) = cmdQueue s := by simp [resumeAll]
@[simp] theorem cmdQueue_settleHolders {ls s} : cmdQueue (settleHolders ls s) = cmdQueue s := by simp [settleHolders]
@[simp] theorem cmdQueue_newEgress {s} : cmdQueue (newEgress s) = cmdQueue s := by simp [newEgress]

@[simp] theorem cmdQueue_latchCrossing {no ls s} : cmdQueue (latchCrossing no ls s) = cmdQueue s := by
  simp [latchCrossing]

@[simp] theorem cmdQueue_opening {s} : cmdQueue (opening s) = cmdQueue s := by simp [opening]
@[simp] theorem cmdQueue_ingressClose {s} : cmdQueue (ingressClose s) = cmdQueue s := by simp [ingressClose]

@[simp] theorem cmdQueue_cxdone {k s} : cmdQueue (cxdone k s) = cmdQueue s := by
  unfold cxdone
  dsimp only
  split <;> simp

@[simp] theorem cmdQueue_overrun {k s} : cmdQueue (overrun k s) = cmdQueue s := by
  unfold overrun
  split
  · split
    · simp
    · rfl
  · rfl

@[simp] theorem cmdQueue_stopUnfinished {s} : cmdQueue (stopUnfinished s) = cmdQueue s := by
  unfold stopUnfinished
  refine cmdQueue_foldl (fun t k => ?_) _ _
  dsimp only
  split <;> simp

@[simp] theorem cmdQueue_drainLimit {s} : cmdQueue (drainLimit s) = cmdQueue s := by simp [drainLimit]
@[simp] theorem cmdQueue_recrossLimit {s} : cmdQueue (recrossLimit s) = cmdQueue s := by simp [recrossLimit]
@[simp] theorem cmdQueue_egressRelease {s} : cmdQueue (egressRelease s) = cmdQueue s := by simp [egressRelease]
@[simp] theorem cmdQueue_showPeak {s l} : cmdQueue (showPeak s l) = cmdQueue s := by simp [showPeak]

@[simp] theorem cmdQueue_showVerdict {s v} : cmdQueue (showVerdict s v) = cmdQueue s := by
  unfold showVerdict
  split <;> simp

@[simp] theorem cmdQueue_removePosts {bad s} : cmdQueue (removePosts bad s) = cmdQueue s := by simp [removePosts]
@[simp] theorem cmdQueue_suspendAll {s} : cmdQueue (suspendAll s) = cmdQueue s := by simp [suspendAll]
@[simp] theorem cmdQueue_endRun {clean s} : cmdQueue (endRun clean s) = cmdQueue s := by simp [endRun]
@[simp] theorem cmdQueue_releaseStops {s} : cmdQueue (releaseStops s) = cmdQueue s := by simp [releaseStops]
@[simp] theorem cmdQueue_stepOne {s} : cmdQueue (stepOne s) = cmdQueue s := by simp [stepOne]
@[simp] theorem cmdQueue_showCounts {s} : cmdQueue (showCounts s) = cmdQueue s := by simp [showCounts]
@[simp] theorem cmdQueue_finalSlack {s} : cmdQueue (finalSlack s) = cmdQueue s := by simp [finalSlack]
@[simp] theorem cmdQueue_slackWater {s} : cmdQueue (slackWater s) = cmdQueue s := by simp [slackWater]
@[simp] theorem cmdQueue_openRecross {s} : cmdQueue (openRecross s) = cmdQueue s := by simp [openRecross]
@[simp] theorem cmdQueue_restoreEnd {s} : cmdQueue (restoreEnd s) = cmdQueue s := by simp [restoreEnd]

/-! ### The field loop, the damage guard and the RTC -/

@[simp] theorem cmdQueue_recompute {f margin watts s} : cmdQueue (recompute f margin watts s) = cmdQueue s := by
  simp [recompute]

@[simp] theorem cmdQueue_droopTrip {f s} : cmdQueue (droopTrip f s) = cmdQueue s := by
  unfold droopTrip
  exact cmdQueue_m.trans (by simp)

@[simp] theorem cmdQueue_droopEnd {f s} : cmdQueue (droopEnd f s) = cmdQueue s := by
  unfold droopEnd
  split
  · exact cmdQueue_m.trans cmdQueue_set
  · rfl

@[simp] theorem cmdQueue_tripField {f sensor reading acked s} :
    cmdQueue (tripField f sensor reading acked s) = cmdQueue s := by
  simp [tripField]

@[simp] theorem cmdQueue_sampleField {unacked f readings s} :
    cmdQueue (sampleField unacked f readings s) = cmdQueue s := by
  unfold sampleField
  repeat' split
  all_goals simp

@[simp] theorem cmdQueue_sampleAll {readings unacked s} : cmdQueue (sampleAll readings unacked s) = cmdQueue s := by
  refine cmdQueue_foldl (fun t i => ?_) _ _
  split <;> simp

@[simp] theorem cmdQueue_secondTick {s} : cmdQueue (secondTick s) = cmdQueue s := by simp [secondTick]
@[simp] theorem cmdQueue_rtcLoad {hi s} : cmdQueue (rtcLoad hi s) = cmdQueue s := by simp [rtcLoad]
@[simp] theorem cmdQueue_rtcLatch {s} : cmdQueue (rtcLatch s) = cmdQueue s := by simp [rtcLatch]
@[simp] theorem cmdQueue_countTest {f passed s} : cmdQueue (countTest f passed s) = cmdQueue s := by simp [countTest]
@[simp] theorem cmdQueue_failTile {f t s} : cmdQueue (failTile f t s) = cmdQueue s := by simp [failTile]
@[simp] theorem cmdQueue_failBank {f t s b} : cmdQueue (failBank f t s b) = cmdQueue s := by simp [failBank]

@[simp] theorem cmdQueue_tileTestEnd {f t part banks s} : cmdQueue (tileTestEnd f t part banks s) = cmdQueue s := by
  unfold tileTestEnd
  dsimp only
  split <;> simp

@[simp] theorem cmdQueue_timeoutTile {f s t} : cmdQueue (timeoutTile f s t) = cmdQueue s := by simp [timeoutTile]

/-! ### The test access port -/

@[simp] theorem cmdQueue_setTap {code extest refused s} : cmdQueue (setTap code extest refused s) = cmdQueue s := by
  simp [setTap]

@[simp] theorem cmdQueue_afterExtest {was probe s} : cmdQueue (afterExtest was probe s) = cmdQueue s := by
  simp [afterExtest]

@[simp] theorem cmdQueue_loadTap {code probe s} : cmdQueue (loadTap code probe s) = cmdQueue s := by simp [loadTap]

@[simp] theorem cmdQueue_loadExtest {frame s} : cmdQueue (loadExtest frame s) = cmdQueue s := by
  unfold loadExtest
  repeat' split
  all_goals simp

@[simp] theorem cmdQueue_loadBypass {code probe s} : cmdQueue (loadBypass code probe s) = cmdQueue s := by
  simp [loadBypass]

@[simp] theorem cmdQueue_trstLevel {low probe s} : cmdQueue (trstLevel low probe s) = cmdQueue s := by
  simp [trstLevel]

@[simp] theorem cmdQueue_updateDr {value levels s} : cmdQueue (updateDr value levels s) = cmdQueue s := by
  simp [updateDr]

/-! ### Accesses to registers -/

@[simp] theorem cmdQueue_readEffect {a s} : cmdQueue (readEffect a s) = cmdQueue s := by
  unfold readEffect
  split <;> simp

@[simp] theorem cmdQueue_stageWord {a v s} : cmdQueue (stageWord a v s) = cmdQueue s := by simp [stageWord]

@[simp] theorem cmdQueue_haltOnlyWord {k a v s} : cmdQueue (haltOnlyWord k a v s) = cmdQueue s := by
  simp [haltOnlyWord]

@[simp] theorem cmdQueue_liveWord {k a v s} : cmdQueue (liveWord k a v s) = cmdQueue s := by simp [liveWord]

@[simp] theorem cmdQueue_writeFields {a v s} : cmdQueue (writeFields a v s) = cmdQueue s := by
  unfold writeFields
  split <;> simp

@[simp] theorem cmdQueue_writeFieldOn {base v s} : cmdQueue (writeFieldOn base v s) = cmdQueue s := by
  simp [writeFieldOn]

@[simp] theorem cmdQueue_writeLandingOn {v s} : cmdQueue (writeLandingOn v s) = cmdQueue s := by simp [writeLandingOn]

@[simp] theorem cmdQueue_writeMpwr {a v s} : cmdQueue (writeMpwr a v s) = cmdQueue s := by
  unfold writeMpwr
  split <;> simp

@[simp] theorem cmdQueue_writeMast {a v s} : cmdQueue (writeMast a v s) = cmdQueue s := by
  unfold writeMast
  split <;> simp

@[simp] theorem cmdQueue_writeDmap {a v s} : cmdQueue (writeDmap a v s) = cmdQueue s := by
  unfold writeDmap
  split <;> simp

@[simp] theorem cmdQueue_writeLogb {a v s} : cmdQueue (writeLogb a v s) = cmdQueue s := by
  unfold writeLogb
  split <;> simp

@[simp] theorem cmdQueue_writeHoist {a v s} : cmdQueue (writeHoist a v s) = cmdQueue s := by
  unfold writeHoist
  repeat' split
  all_goals simp

@[simp] theorem cmdQueue_writeCseq {a v s} : cmdQueue (writeCseq a v s) = cmdQueue s := by
  unfold writeCseq
  repeat' split
  all_goals simp

@[simp] theorem cmdQueue_writeBerth {a v s} : cmdQueue (writeBerth a v s) = cmdQueue s := by simp [writeBerth]
@[simp] theorem cmdQueue_writeEcc {k a v s} : cmdQueue (writeEcc k a v s) = cmdQueue s := by simp [writeEcc]
@[simp] theorem cmdQueue_writeEvents {k a v s} : cmdQueue (writeEvents k a v s) = cmdQueue s := by simp [writeEvents]

@[simp] theorem cmdQueue_writeTile0 {a v s} : cmdQueue (writeTile0 a v s) = cmdQueue s := by
  unfold writeTile0
  split <;> simp

@[simp] theorem cmdQueue_writeHeader {a v s} : cmdQueue (writeHeader a v s) = cmdQueue s := by
  unfold writeHeader
  split <;> simp

@[simp] theorem cmdQueue_writeFctl {a v s} : cmdQueue (writeFctl a v s) = cmdQueue s := by simp [writeFctl]
@[simp] theorem cmdQueue_writeHaws {a v s} : cmdQueue (writeHaws a v s) = cmdQueue s := by simp [writeHaws]
@[simp] theorem cmdQueue_writeStrlX {a v s} : cmdQueue (writeStrlX a v s) = cmdQueue s := by simp [writeStrlX]

@[simp] theorem cmdQueue_regWrite {a v s} : cmdQueue (regWrite a v s) = cmdQueue s := by
  unfold regWrite
  repeat' split
  all_goals simp

@[simp] theorem cmdQueue_rigWrite {k a berth v s} : cmdQueue (rigWrite k a berth v s) = cmdQueue s := by
  simp [rigWrite]

theorem cmdQueue_broadcastAt {v r a} : cmdQueue (broadcastAt v r a).1 = cmdQueue r.1 := by
  unfold broadcastAt
  dsimp only
  split <;> simp

@[simp] theorem cmdQueue_broadcast {a v s} : cmdQueue (broadcast a v s) = cmdQueue s := by
  unfold broadcast
  dsimp only
  simp [cmdQueue_foldl_fst (r := (s, 0)) (g := broadcastAt v) fun r b => cmdQueue_broadcastAt]

@[simp] theorem cmdQueue_readFrame {tag a s} : cmdQueue (readFrame tag a s) = cmdQueue s := by simp [readFrame]
@[simp] theorem cmdQueue_writeFrame {tag a v s} : cmdQueue (writeFrame tag a v s) = cmdQueue s := by simp [writeFrame]

@[simp] theorem cmdQueue_completeCommand {s} : cmdQueue (completeCommand s) = cmdQueue s := by
  unfold completeCommand
  split <;> simp

@[simp] theorem cmdQueue_takenFrame {f probe s} : cmdQueue (takenFrame f probe s) = cmdQueue s := by
  unfold takenFrame
  split <;> simp

@[simp] theorem cmdQueue_registerWrite {w a v s} : cmdQueue (registerWrite w a v s) = cmdQueue s := by
  unfold registerWrite
  repeat' split
  all_goals simp

@[simp] theorem cmdQueue_iouDone {k v s} : cmdQueue (iouDone k v s) = cmdQueue s := by simp [iouDone]
@[simp] theorem cmdQueue_keepOld {k q s} : cmdQueue (keepOld k q s) = cmdQueue s := by simp [keepOld]

@[simp] theorem cmdQueue_iouStep {k s} : cmdQueue (iouStep k s) = cmdQueue s := by
  unfold iouStep
  split <;> simp

/-! ### Packets -/

theorem cmdQueue_serve {kind i act s} (hact : ∀ k p t, cmdQueue (act k p t).state = cmdQueue t) :
    cmdQueue (serve kind i act s) = cmdQueue s := by
  unfold serve
  split
  · rfl
  · repeat' split
    all_goals simp [hact]

theorem cmdQueue_respond {kind i act s} (hact : ∀ k p t, cmdQueue (act k p t) = cmdQueue t) :
    cmdQueue (respond kind i act s) = cmdQueue s := by
  unfold respond
  split <;> simp [hact]

/-! ## Requests served at M3 -/

section Served
variable {s : State} {k a n : Nat} {p : Pkt}

theorem cmdQueue_atM3 {grants : State → State} {act : State → Served} (hgr : ∀ t, cmdQueue (grants t) = cmdQueue t)
    (hact : ∀ t, cmdQueue (act t).state = cmdQueue t) : cmdQueue (atM3 k a n grants act s).state = cmdQueue s := by
  unfold atM3
  split
  · exact cmdQueue_toT11
  · exact (hact _).trans (hgr _)

theorem cmdQueue_serveRead : cmdQueue (serveRead k p s).state = cmdQueue s := by
  refine cmdQueue_atM3 (fun _ => cmdQueue_grant) fun t => ?_
  dsimp only
  split <;> simp [errorServed]

theorem cmdQueue_serveWrite : cmdQueue (serveWrite k p s).state = cmdQueue s := by
  refine cmdQueue_atM3 (fun _ => cmdQueue_grant) fun t => ?_
  dsimp only
  split <;> simp [errorServed]

theorem cmdQueue_serveAtomic : cmdQueue (serveAtomic k p s).state = cmdQueue s := by
  refine cmdQueue_atM3 (fun _ => cmdQueue_grant) fun t => ?_
  dsimp only
  split <;> simp [errorServed]

theorem cmdQueue_serveBlockWrite : cmdQueue (serveBlockWrite k p s).state = cmdQueue s := by
  refine cmdQueue_atM3 (fun _ => cmdQueue_grantBursts) fun t => ?_
  dsimp only
  split <;> simp [errorServed]

theorem cmdQueue_serveBlockRead : cmdQueue (serveBlockRead k p s).state = cmdQueue s := by
  refine cmdQueue_atM3 (fun _ => cmdQueue_grantBursts) fun t => ?_
  dsimp only
  split <;> simp [errorServed]

theorem cmdQueue_serveImem : cmdQueue (serveImem k p s).state = cmdQueue s := by simp [serveImem]

theorem cmdQueue_servePost : cmdQueue (servePost k p s).state = cmdQueue s := by
  unfold servePost
  dsimp only
  split
  · split
    · exact cmdQueue_modX
    · exact cmdQueue_atM3 (fun _ => cmdQueue_grantBursts) fun _ => cmdQueue_modX
  · exact cmdQueue_modX

end Served

/-! ## Outcomes -/

/-- The outcome is a next state, and the commands that wait are those of `s`. -/
def Answers (s : State) (o : Out) : Prop := ∃ t, o = .next t ∧ cmdQueue t = cmdQueue s

section Outcomes
variable {s : State} {g : State → State}

theorem answers_next {t : State} (h : cmdQueue t = cmdQueue s) : Answers s (.next t) := ⟨t, rfl, h⟩

theorem cmdQueue_ite_self {c : Prop} [Decidable c] (hg : ∀ t, cmdQueue (g t) = cmdQueue t) :
    cmdQueue (if c then g s else s) = cmdQueue s :=
  cmdQueue_ite_of (hg s) rfl

theorem answers_ifStandby (hg : ∀ t, cmdQueue (g t) = cmdQueue t) : Answers s (ifStandby g s) :=
  answers_next (cmdQueue_ite_self hg)

theorem answers_ifAwake (hg : ∀ t, cmdQueue (g t) = cmdQueue t) : Answers s (ifAwake g s) :=
  answers_next (cmdQueue_ite_self hg)

theorem answers_ifReach {p} (hg : ∀ t, cmdQueue (g t) = cmdQueue t) : Answers s (ifReach p g s) :=
  answers_ifAwake fun _ => cmdQueue_ite_self hg

theorem answers_ifTile {f t} (hg : ∀ t, cmdQueue (g t) = cmdQueue t) : Answers s (ifTile f t g s) :=
  answers_ifAwake fun _ => cmdQueue_ite_self hg

theorem answers_ifLanding {k} (hg : ∀ t, cmdQueue (g t) = cmdQueue t) : Answers s (ifLanding k g s) :=
  answers_ifAwake fun _ => cmdQueue_ite_self hg

theorem answers_ifStorePort {k p} (hg : ∀ t, cmdQueue (g t) = cmdQueue t) : Answers s (ifStorePort k p g s) :=
  answers_ifLanding fun _ => cmdQueue_ite_self hg

theorem answers_atLoop {f} (hg : ∀ t, cmdQueue (g t) = cmdQueue t) : Answers s (atLoop f g s) :=
  answers_ifAwake fun _ => cmdQueue_ite_self hg

theorem answers_atEnd {h e} (hg : ∀ t, cmdQueue (g t) = cmdQueue t) : Answers s (atEnd h e g s) :=
  answers_ifAwake fun _ => cmdQueue_ite_of (cmdQueue_transmit.trans ((hg _).trans cmdQueue_settleEnd)) rfl

theorem answers_atEndNow {h e} (hg : ∀ t, cmdQueue (g t) = cmdQueue t) : Answers s (atEndNow h e g s) :=
  answers_atEnd fun _ => (hg _).trans cmdQueue_settleEnd

theorem answers_ifFree {code tag n} (hg : ∀ t, cmdQueue (g t) = cmdQueue t) : Answers s (ifFree code tag n g s) :=
  answers_next (cmdQueue_ite_of rfl (cmdQueue_ite_of cmdQueue_rejectFrame (hg s)))

theorem answers_issueRow {row k} : Answers s (.next (issueRow row k s)) := answers_next cmdQueue_issueRow

end Outcomes

/-! ## Rows with a body of their own -/

section Rows
variable {s : State}

theorem answers_execPatrolScrub {f t b} : Answers s (execPatrolScrub f t b s) := answers_ifAwake fun _ => by simp

theorem answers_execRouteComputeEnd {f} : Answers s (execRouteComputeEnd f s) := answers_ifAwake fun _ => by simp

theorem answers_execLookupIn {f lid} : Answers s (execLookupIn f lid s) := answers_ifReach fun _ => by simp

theorem answers_execCreditWindow : Answers s (execCreditWindow s) := answers_ifAwake fun _ => by simp

theorem answers_execPauseFrame {k p opcode quanta} : Answers s (execPauseFrame k p opcode quanta s) :=
  answers_ifLanding fun _ => by simp

theorem answers_execPauseQuantaExpiry {k p} : Answers s (execPauseQuantaExpiry k p s) :=
  answers_ifLanding fun _ => by simp

theorem answers_execDiscard {page} : Answers s (execDiscard page s) := answers_next (cmdQueue_ite_self fun _ => cmdQueue_discard)

theorem answers_execRaise {f t} : Answers s (execRaise f t s) := answers_ifTile fun _ => by simp

theorem answers_execEscRelease {f t} : Answers s (execEscRelease f t s) := by
  unfold execEscRelease
  refine answers_ifReach fun _ => ?_
  split <;> simp

theorem answers_execDataPacket {h e hd parity badType badLen taken} :
    Answers s (execDataPacket h e hd parity badType badLen taken s) :=
  answers_atEndNow fun _ => by simp

theorem answers_execHawserAck {h e w} : Answers s (execHawserAck h e w s) := answers_atEndNow fun _ => by simp

theorem answers_execNak {h e w sent} : Answers s (execNak h e w s sent) := answers_atEnd fun _ => by simp

theorem answers_execLane {h e w} : Answers s (execLane h e w s) := answers_atEndNow fun _ => by simp

theorem answers_execFlow {h e w sent0 sent1} : Answers s (execFlow h e w s sent0 sent1) :=
  answers_atEnd fun _ => by simp

theorem answers_execUnknownItemType {h e framing} : Answers s (execUnknownItemType h e framing s) :=
  answers_atEndNow fun _ => by simp

theorem answers_execTrainMask {h e w} : Answers s (execTrainMask h e w s) := answers_atEnd fun _ => by simp

theorem answers_execTrainReady {h e w link} : Answers s (execTrainReady h e w link s) :=
  answers_atEnd fun _ => by simp

theorem answers_execLaneJudgedGood {h e lane} : Answers s (execLaneJudgedGood h e lane s) :=
  answers_atEnd fun _ => by simp

theorem answers_execProbeWindowEnd {h e} : Answers s (execProbeWindowEnd h e s) := by
  unfold execProbeWindowEnd
  refine answers_atEnd fun _ => ?_
  split <;> simp

theorem answers_execTrainingAttemptTimeout {h e} : Answers s (execTrainingAttemptTimeout h e s) := by
  unfold execTrainingAttemptTimeout
  refine answers_atEnd fun t => ?_
  extract_lets st m t1 t2
  have h2 : cmdQueue t2 = cmdQueue t := cmdQueue_failAttempt.trans cmdQueue_m
  refine cmdQueue_ite_of (cmdQueue_ite_of ?_ h2) rfl
  exact cmdQueue_startRoutes.trans ((cmdQueue_onRoster fun _ => cmdQueue_setChan).trans h2)

theorem answers_execUpWaitReadyInterval {h e} : Answers s (execUpWaitReadyInterval h e s) :=
  answers_atEnd fun _ => by simp

theorem answers_execQuietEnd {h e} : Answers s (execQuietEnd h e s) := answers_atEnd fun _ => by simp

theorem answers_execLaneParityError {h e lanes inside} : Answers s (execLaneParityError h e lanes inside s) :=
  answers_atEndNow fun _ => by simp

theorem answers_execAckTimerExpiry {h e v} : Answers s (execAckTimerExpiry h e v s) := by
  unfold execAckTimerExpiry
  refine answers_atEndNow fun t => ?_
  split
  · rfl
  · refine cmdQueue_ite_of rfl ?_
    extract_lets p w m t1 t2
    have h2 : cmdQueue t2 = cmdQueue t := cmdQueue_modVc.trans (cmdQueue_bumpSat.trans cmdQueue_m)
    exact cmdQueue_ite_of (cmdQueue_breakLink.trans h2) (cmdQueue_replay.trans h2)

theorem answers_execAckDue {h e v} : Answers s (execAckDue h e v s) := by
  unfold execAckDue
  refine answers_atEndNow fun _ => ?_
  repeat' split
  all_goals simp

theorem answers_execFlowRefresh {h e} : Answers s (execFlowRefresh h e s) := answers_atEndNow fun _ => by simp

theorem answers_execCreditTimeout {h e v} : Answers s (execCreditTimeout h e v s) := by
  unfold execCreditTimeout
  refine answers_atEndNow fun _ => ?_
  split <;> simp

theorem answers_execStoreLinkDown {k p} : Answers s (execStoreLinkDown k p s) := answers_ifStorePort fun _ => by simp

theorem answers_execInboundRequest {k p target} : Answers s (execInboundRequest k p target s) :=
  answers_ifStorePort fun _ => by simp

theorem answers_execAlertHeldLow {low} : Answers s (execAlertHeldLow s low) := answers_ifStandby fun _ => by simp

theorem answers_execRailStatusPoll {reply deskewOk} : Answers s (execRailStatusPoll reply deskewOk s) := by
  unfold execRailStatusPoll
  refine answers_ifStandby fun _ => ?_
  repeat' split
  all_goals simp

theorem answers_execPowerGoodTimeout : Answers s (execPowerGoodTimeout s) := by
  unfold execPowerGoodTimeout
  refine answers_ifStandby fun _ => ?_
  split <;> simp

theorem answers_execPmbusRetry {reply probe} : Answers s (execPmbusRetry reply probe s) := by
  unfold execPmbusRetry
  refine answers_ifStandby fun _ => ?_
  repeat' split
  all_goals simp

theorem answers_execSdaLowIdle {freed} : Answers s (execSdaLowIdle freed s) := by
  unfold execSdaLowIdle
  refine answers_ifStandby fun t => cmdQueue_ite_of rfl ?_
  extract_lets t1 t2 t3
  have h3 : cmdQueue t3 = cmdQueue t := by simp [t3, t2, t1]
  split <;> simp [h3]

theorem answers_execSclLowTimeout {rail} : Answers s (execSclLowTimeout rail s) := answers_ifStandby fun _ => by simp

theorem answers_execSidebandRetry {probe} : Answers s (execSidebandRetry probe s) :=
  answers_ifStandby fun _ => by simp

theorem answers_execPmbAlertService {rail reply} : Answers s (execPmbAlertService rail reply s) := by
  unfold execPmbAlertService
  refine answers_ifStandby fun _ => ?_
  repeat' split
  all_goals simp

theorem answers_execWakeN {probe} : Answers s (execWakeN probe s) := answers_ifStandby fun _ => by simp

theorem answers_execRtcAlarm {probe} : Answers s (execRtcAlarm probe s) := answers_ifStandby fun _ => by simp

theorem answers_execPllLocked {flash} : Answers s (execPllLocked flash s) := answers_ifStandby fun _ => by simp

theorem answers_execPllNoLock : Answers s (execPllNoLock s) := answers_ifStandby fun _ => by simp

theorem answers_execReconciled : Answers s (execReconciled s) := by
  unfold execReconciled
  refine answers_ifStandby fun t => cmdQueue_ite_of rfl ?_
  split
  · simp
  · next h =>
    have h1 := cmdQueue_reconcile h
    split
    · next h2 => exact (cmdQueue_moorIfPending h2).trans h1
    · simp [h1]

theorem answers_execResetN {frame} : Answers s (execResetN frame s) := by
  unfold execResetN
  refine answers_ifStandby fun t => ?_
  extract_lets pins t1 t2 t3
  have h2 : cmdQueue t2 = cmdQueue t := by
    unfold t2
    split
    · exact cmdQueue_rejectFrame
    · rfl
  have h3 : cmdQueue t3 = cmdQueue t := cmdQueue_requestMoor.trans (cmdQueue_modP.trans h2)
  exact cmdQueue_ite_of rfl (cmdQueue_ite_of (cmdQueue_resetLogged.trans h3) h3)

theorem answers_execResetNRise {probe} : Answers s (execResetNRise probe s) := answers_ifStandby fun _ => by simp

theorem answers_execVstbyRemoved {written} : Answers s (execVstbyRemoved written s) :=
  answers_ifStandby fun _ => by simp

theorem answers_execVstbyApplied : Answers s (execVstbyApplied s) := by
  unfold execVstbyApplied
  refine answers_next (cmdQueue_ite_of rfl ?_)
  extract_lets s1 s2
  have h2 : cmdQueue s2 = cmdQueue s := by
    unfold s2
    split <;> simp [s1]
  exact cmdQueue_set.trans (cmdQueue_set.trans h2)

theorem answers_execReadIndex {index} : Answers s (execReadIndex index s) := answers_ifStandby fun _ => by simp

theorem answers_execFlashBusyPoll {readBackOk late} : Answers s (execFlashBusyPoll readBackOk s late) := by
  unfold execFlashBusyPoll
  refine answers_ifStandby fun _ => ?_
  split <;> simp

theorem answers_execFlashOpTimeout {late} : Answers s (execFlashOpTimeout s late) := by
  unfold execFlashOpTimeout
  refine answers_ifStandby fun _ => ?_
  split <;> simp

theorem answers_execVdemandRecompute {f code} : Answers s (execVdemandRecompute f code s) :=
  answers_atLoop fun _ => by simp

theorem answers_execMastVisit {f acked} : Answers s (execMastVisit f acked s) := answers_atLoop fun _ => by simp

theorem answers_execDamageGuardSample {readings unacked} : Answers s (execDamageGuardSample readings unacked s) :=
  answers_ifStandby fun _ => by simp

theorem answers_execTileTestEnd {f t part banks} : Answers s (execTileTestEnd f t part banks s) :=
  answers_ifAwake fun _ => by simp

theorem answers_execBistTimeout {f} : Answers s (execBistTimeout f s) := answers_ifAwake fun _ => by simp

theorem answers_execLandingSelfTestEnd {k passed} : Answers s (execLandingSelfTestEnd k passed s) :=
  answers_ifAwake fun _ => by simp

theorem answers_execPortWindowExpiry {k p} : Answers s (execPortWindowExpiry k p s) :=
  answers_ifAwake fun _ => cmdQueue_ite_of rfl (cmdQueue_onRoster fun _ => cmdQueue_m)

theorem answers_execRejectedFrame {frame probe} : Answers s (execRejectedFrame frame s probe) := by
  unfold execRejectedFrame
  refine answers_next (cmdQueue_ite_of ?_ rfl)
  split <;> simp

theorem answers_execReadResp {i} : Answers s (execReadResp i s) := by
  unfold execReadResp
  refine answers_next (cmdQueue_respond fun k p t => ?_)
  split <;> simp

theorem answers_execAck {i} : Answers s (execAck i s) := by
  unfold execAck
  refine answers_next (cmdQueue_respond fun k p t => ?_)
  split <;> simp

theorem answers_execBlockResp {i} : Answers s (execBlockResp i s) := by
  unfold execBlockResp
  refine answers_next (cmdQueue_respond fun k p t => ?_)
  split <;> simp

theorem answers_execError {i} : Answers s (execError i s) := by
  unfold execError
  refine answers_next (cmdQueue_respond fun k p t => ?_)
  split <;> simp
end Rows

/-! ## Every command -/

/-- Every command answers a next state in which the same commands wait. -/
theorem answers_exec (c : Instr) {s : State} : Answers s (exec c s) := by
  cases c with
  | status => exact answers_next (cmdQueue_ite_self fun _ => cmdQueue_statusFrame)
  | read => exact answers_ifFree fun _ => cmdQueue_readFrame
  | write => exact answers_ifFree fun _ => cmdQueue_writeFrame
  | moor => exact answers_ifFree fun _ => cmdQueue_moorFrame
  | wake => exact answers_ifFree fun _ => cmdQueue_wakeFrame
  | rejectedFrame => exact answers_execRejectedFrame
  | commandComplete => exact answers_ifStandby fun _ => cmdQueue_completeCommand
  | registerWrite => exact answers_next cmdQueue_registerWrite
  | vstbyApplied => exact answers_execVstbyApplied
  | resetN => exact answers_execResetN
  | wakeN => exact answers_execWakeN
  | rtcAlarm => exact answers_execRtcAlarm
  | rtcSecondsWrite => exact answers_ifStandby fun _ => cmdQueue_rtcLoad
  | rtcSecondsLoRead => exact answers_ifStandby fun _ => cmdQueue_rtcLatch
  | pmbusRetry => exact answers_execPmbusRetry
  | sdaLowIdle => exact answers_execSdaLowIdle
  | sclLowTimeout => exact answers_execSclLowTimeout
  | sidebandRetry => exact answers_execSidebandRetry
  | pmbAlertService => exact answers_execPmbAlertService
  | railStatusPoll => exact answers_execRailStatusPoll
  | powerGoodTimeout => exact answers_execPowerGoodTimeout
  | pllLocked => exact answers_execPllLocked
  | pllNoLock => exact answers_execPllNoLock
  | reconciled => exact answers_execReconciled
  | fieldOnSet => exact answers_ifStandby fun _ => cmdQueue_fieldOnSet
  | fieldOnClear => exact answers_ifStandby fun _ => cmdQueue_fieldOnClear
  | landingOnSet => exact answers_ifStandby fun _ => cmdQueue_landingOnSet
  | landingOnClear => exact answers_ifStandby fun _ => cmdQueue_landingOnClear
  | moorReq => exact answers_ifStandby fun _ => cmdQueue_requestMoor
  | allowanceRecompute => exact answers_atLoop fun _ => cmdQueue_recompute
  | droopTrip => exact answers_atLoop fun _ => cmdQueue_droopTrip
  | droopHoldEnd => exact answers_atLoop fun _ => cmdQueue_droopEnd
  | vdemandRecompute => exact answers_execVdemandRecompute
  | mastVisit => exact answers_execMastVisit
  | damageGuardSample => exact answers_execDamageGuardSample
  | tileTestEnd => exact answers_execTileTestEnd
  | bistTimeout => exact answers_execBistTimeout
  | landingSelfTestEnd => exact answers_execLandingSelfTestEnd
  | portWindowExpiry => exact answers_execPortWindowExpiry
  | escalationReachesRoster => exact answers_ifAwake fun _ => cmdQueue_reachRoster
  | retireCmd => exact answers_ifStandby fun _ => cmdQueue_retireCmd
  | mapSync => exact answers_ifStandby fun _ => cmdQueue_mapSync
  | readIndex => exact answers_execReadIndex
  | flashBusyPoll => exact answers_execFlashBusyPoll
  | flashOpTimeout => exact answers_execFlashOpTimeout
  | check | arm => exact answers_ifAwake fun _ => cmdQueue_startCheck
  | disarm => exact answers_ifAwake fun _ => cmdQueue_disarm
  | abort => exact answers_ifAwake fun _ => cmdQueue_abort
  | checkEnd => exact answers_ifAwake fun _ => cmdQueue_checkEnd
  | fifoHiRead => exact answers_ifAwake fun _ => cmdQueue_popFifo
  | hoistInstant => exact answers_ifAwake fun _ => cmdQueue_onRoster fun _ => cmdQueue_hoistInstant
  | discard => exact answers_execDiscard
  | haltReq => exact answers_ifReach fun _ => cmdQueue_haltReq
  | haltPointReached => exact answers_ifReach fun _ => cmdQueue_haltPoint
  | cntClear => exact answers_ifStandby fun _ => cmdQueue_clearCounters
  | alertHeldLow => exact answers_execAlertHeldLow
  | extest => exact answers_next cmdQueue_loadExtest
  | samplePreload | idcode => exact answers_next cmdQueue_loadTap
  | bypass => exact answers_next cmdQueue_loadBypass
  | trstN => exact answers_next cmdQueue_trstLevel
  | start | step => exact answers_ifAwake fun _ => cmdQueue_startCrossing
  | stop => exact answers_ifAwake fun _ => cmdQueue_stopCrossing
  | curNoLoRead => exact answers_ifAwake fun _ => cmdQueue_latchCurNo
  | opening => exact answers_ifAwake fun _ => cmdQueue_onRoster fun _ => cmdQueue_opening
  | ingressClose => exact answers_ifAwake fun _ => cmdQueue_ingressClose
  | cxdone => exact answers_ifAwake fun _ => cmdQueue_cxdone
  | overrun => exact answers_ifAwake fun _ => cmdQueue_overrun
  | drainLimit => exact answers_ifAwake fun _ => cmdQueue_drainLimit
  | recrossStage1Limit => exact answers_ifAwake fun _ => cmdQueue_recrossLimit
  | egressRelease => exact answers_ifAwake fun _ => cmdQueue_egressRelease
  | slackWater => exact answers_ifAwake fun _ => cmdQueue_onRoster fun _ => cmdQueue_slackWater
  | restoreEnd => exact answers_ifAwake fun _ => cmdQueue_onRoster fun _ => cmdQueue_restoreEnd
  | snapshotLineCopied => exact answers_ifAwake fun _ => cmdQueue_lineCopied
  | resume => exact answers_ifAwake fun _ => cmdQueue_resume
  | suspend => exact answers_ifAwake fun _ => cmdQueue_suspend
  | move | shl | shr | sar | rol | ror | ext | exts | ins | bswap | hswap | clz | ctz | c32cB | c32cW | c32B | c32W | c16B |
    c16W | cpB | cpW | fin32 | fin16 | finp | parW | parB | revW | revB | pop | fold32c | fold32 | fold16 | foldp | fclr |
    mul | mulu | mulv | mulvu | div | divu | divq | divqu | init | seth | rnd | swp | ldadd | cas | sync | ior | iow | jmp |
    call | ret | dbnz | rpt | rpti | trap | gwcall | gwret | slip | eret | compare | kick =>
    exact answers_issueRow
  | add | addc | addv | sub | subb | subv | and | or | xor | andn | slt | sltu | min | minu | max | maxu | abs | pass =>
    exact answers_issueRow
  | foldBeatRead => exact answers_next cmdQueue_foldStep
  | unitResult => exact answers_next cmdQueue_unitResult
  | ldb | ldbs | ldh | ldhs | ldw | stb | sth | stw => exact answers_issueRow
  | lsuAccessComplete => exact answers_next cmdQueue_lsuStep
  | iouAccessComplete => exact answers_ifAwake fun _ => cmdQueue_iouStep
  | gateCall | gateReturn => exact answers_next cmdQueue_gateRow
  | handlerEntry => exact answers_next cmdQueue_handlerEntry
  | timerEvent => exact answers_ifTile fun _ => cmdQueue_timerEvent
  | raise => exact answers_execRaise
  | pmodeWrite => exact answers_ifTile fun _ => cmdQueue_pmodeWrite
  | escRelease => exact answers_execEscRelease
  | escHead2Read => exact answers_ifReach fun _ => cmdQueue_popReport
  | ifs => exact answers_ifTile fun _ => cmdQueue_ifsGo
  | ifl => exact answers_ifTile fun _ => cmdQueue_iflGo
  | injCe | injUe => exact answers_ifTile fun _ => cmdQueue_injectErr
  | patrolScrub => exact answers_execPatrolScrub
  | creditWindow => exact answers_execCreditWindow
  | routeComputeEnd => exact answers_execRouteComputeEnd
  | lookupIn => exact answers_execLookupIn
  | farRead => exact answers_next (cmdQueue_serve fun _ _ _ => cmdQueue_serveRead)
  | farWrite => exact answers_next (cmdQueue_serve fun _ _ _ => cmdQueue_serveWrite)
  | farAtomic => exact answers_next (cmdQueue_serve fun _ _ _ => cmdQueue_serveAtomic)
  | blockWrite => exact answers_next (cmdQueue_serve fun _ _ _ => cmdQueue_serveBlockWrite)
  | imemWrite => exact answers_next (cmdQueue_serve fun _ _ _ => cmdQueue_serveImem)
  | post => exact answers_next (cmdQueue_serve fun _ _ _ => cmdQueue_servePost)
  | egress => exact answers_next cmdQueue_egressArrives
  | blockRead => exact answers_next (cmdQueue_serve fun _ _ _ => cmdQueue_serveBlockRead)
  | readResp => exact answers_execReadResp
  | ack => exact answers_execAck
  | blockResp => exact answers_execBlockResp
  | error => exact answers_execError
  | descriptorStart => exact answers_next cmdQueue_startDescriptor
  | descriptorComplete => exact answers_next cmdQueue_completeDescriptor
  | dataPacket => exact answers_execDataPacket
  | hawserAck => exact answers_execHawserAck
  | nak => exact answers_execNak
  | lane => exact answers_execLane
  | flow => exact answers_execFlow
  | trainMask => exact answers_execTrainMask
  | trainReady => exact answers_execTrainReady
  | laneParityError => exact answers_execLaneParityError
  | ackTimerExpiry => exact answers_execAckTimerExpiry
  | ackDue => exact answers_execAckDue
  | flowRefresh => exact answers_execFlowRefresh
  | creditTimeout => exact answers_execCreditTimeout
  | probeWindowEnd => exact answers_execProbeWindowEnd
  | trainingAttemptTimeout => exact answers_execTrainingAttemptTimeout
  | upWaitReadyInterval => exact answers_execUpWaitReadyInterval
  | quietEnd => exact answers_execQuietEnd
  | linkBreak => exact answers_atEndNow fun _ => cmdQueue_breakEnd
  | netPortUp => exact answers_ifLanding fun _ => cmdQueue_netPortUp
  | netPortDown => exact answers_ifLanding fun _ => cmdQueue_netPortDown
  | netFrameRx => exact answers_ifLanding fun _ => cmdQueue_netFrameRx
  | pauseFrame => exact answers_execPauseFrame
  | pauseQuantaExpiry => exact answers_execPauseQuantaExpiry
  | bayRelease => exact answers_ifLanding fun _ => cmdQueue_bayRelease
  | egressTimeout => exact answers_ifLanding fun _ => cmdQueue_egressTimeout
  | xctlGo => exact answers_ifReach fun _ => cmdQueue_xctlWrite
  | nvmeCompletion => exact answers_ifLanding fun _ => cmdQueue_nvmeDone
  | storeTransferComplete => exact answers_ifLanding fun _ => cmdQueue_xferComplete
  | xferTimeout => exact answers_ifLanding fun _ => cmdQueue_xferTimeout
  | pePerstNRelease => exact answers_ifLanding fun _ => cmdQueue_releasePerst
  | storeLinkUp => exact answers_ifStorePort fun _ => cmdQueue_storeLinkUp
  | storePortUp => exact answers_ifStorePort fun _ => cmdQueue_storePortUp
  | deviceReadyTimeout => exact answers_ifStorePort fun _ => cmdQueue_deviceLate
  | storeLinkDown => exact answers_execStoreLinkDown
  | inboundRequest => exact answers_execInboundRequest
  | intDrop | aerError => exact answers_ifStorePort fun _ => cmdQueue_countStore
  | logbookWrite => exact answers_ifStandby fun _ => cmdQueue_logbookWrite
  | readSeq => exact answers_ifStandby fun _ => cmdQueue_readSeq
  | ackSeq => exact answers_ifStandby fun _ => cmdQueue_ackSeq
  | serviceMark => exact answers_ifStandby fun _ => cmdQueue_serviceMark
  | serviceReason => exact answers_ifStandby fun _ => cmdQueue_serviceReason
  | vstbyRemoved => exact answers_execVstbyRemoved
  | resetNRise => exact answers_execResetNRise
  | rtcSecondTick => exact answers_ifStandby fun _ => cmdQueue_secondTick
  | updateDr => exact answers_next cmdQueue_updateDr
  | laneJudgedGood => exact answers_execLaneJudgedGood
  | unknownItemType => exact answers_execUnknownItemType
  | noOperation => exact answers_issueRow

/-- Settles O5: no row of the table refuses, faults or takes from the queue. That a row whose moment has not come, or that
its state does not allow, still answers a state is the model's choice (log 4). -/
theorem everyCommandAnswersANextState : Obligations.EveryCommandAnswersANextState := by
  intro c s
  exact answers_exec c

end Sys2Proof.Machine
end
